-- ==== Sys2Proof/Word.lean ====
section
/-! DEFINITION. The word types of the block and the type of its sparse tables. -/

namespace Sys2Proof

/-- A 32-bit register or memory word (R9). -/
abbrev Word := BitVec 32

/-- One byte of memory. -/
abbrev Byte := BitVec 8

/-- A sparse table: pairs of a key and a value. Every table of the state is kept in one canonical form: keys strictly
rising, and no entry equal to what an unlisted key reads as. -/
abbrev Tbl (α : Type) := List (Nat × α)

end Sys2Proof
end

