-- ==== Sys2Proof/Syntax.lean ====
section
/-! DEFINITION. The commands of the OLK-7160 block: one constructor of `Instr` for each row of the table, in its order.
Operands: `b` a bay 0-15, `i` a pane instance (bay * 9 + local index, 0-143), `p` a port (0-31 for P0-P31, 32 and 33 for
F0 and F1), `f` a Follux die, `ch` a memory channel, `c` the bytes of one whole engine command as a little-endian number
(header of Table 2-4 first), `v` a register value, `path` a management path (1 SMBus, 2 Follux, 3 test port; R544). What
the block reads from its sensors, its pins and its lines arrives as an operand. -/

namespace Sys2Proof

/-- One access that an engine attempts at a scratchpad bank or an accumulator port in one slot (R55, Table 2-7):
engine code, word address, write or read, the written word, and stored bits that a disturbance flipped since the last
slot, as pairs of a 32-bit word address and a 39-bit flip mask (R298, R519; log entry 15, DESIGN CHOICE). -/
structure SramReq where
  eng : Nat
  addr : Nat
  wr : Bool
  data : Nat
  upsets : List (Nat × Nat)
deriving DecidableEq, Repr

/-- What bring-up steps 4 to 7 found (R478, Table 15-6, R481). -/
structure BringUp where
  /-- bays whose clocks or regulators failed to calibrate -/
  badBays : List Nat
  /-- stacks, as (bay, channel) pairs, whose channel failed to train -/
  badChannels : List (Nat × Nat)
deriving DecidableEq, Repr

/-- What the sensors of R571 read, in degrees and millivolts. -/
structure Sensors where
  /-- laser-source temperatures by window die and Follux die, keyed 0-9 -/
  lasers : List (Nat × Nat)
  /-- lintel temperatures -/
  lintels : List (Nat × Nat)
  ctl : Nat
  sup : Nat
  /-- input power in watts and rail readings by register offset of the SUP block -/
  rails : List (Nat × Nat)
deriving DecidableEq, Repr

/-- The commands of the table. -/
inductive Instr where
  /-- `ARRAY_CLOCK_STEP` (R31). A bay's array clock moves one step of its eight values and the new value comes into
  force without stopping. -/
  | arrayClockStep (b : Nat)
  /-- `BAY_DOORBELL` (R43). A write to BAY_DOORBELL names a queue and a new absolute tail index. -/
  | bayDoorbell (b v : Nat)
  /-- `TASK_FETCH` (R359). The dispatcher fetches one task entry from the next enabled queue in turn while it holds a
  credit. -/
  | taskFetch (b : Nat)
  /-- `NOP` (R52). The sequencer executes NOP and does nothing. -/
  | nop (i c : Nat)
  /-- `FENCE` (R52). The sequencer waits until every earlier command of the list has completed. -/
  | fence (i c : Nat)
  /-- `SIGNAL` (R52). The sequencer adds an amount to a sync object of its device. -/
  | signal (i c : Nat)
  /-- `WAIT` (R374). The sequencer registers a wait of a threshold at a sync object and blocks until it is met. -/
  | wait (i c : Nat)
  /-- `TAKE` (R374). The sequencer registers a take of a threshold, served in arrival order with an indivisible
  subtraction. -/
  | take (i c : Nat)
  /-- `END` (R52). The sequencer ends the list; the task completes once every issued command has completed. -/
  | endList (i c : Nat)
  /-- `COMMAND_TIME_LIMIT` (R53). An array, vector-engine, NGE or TE command still running after 1,048,576 cycles is
  stopped and faults with code 0x0A. -/
  | commandTimeLimit (i eng : Nat)
  /-- `MEMORY_CHANNEL_SLOT` (R55). A slot of a memory channel comes up and carries the access of the engine and class
  its table and shares name. -/
  | memoryChannelSlot (b ch : Nat) (upsets : List (Nat × Nat))
  /-- `LINTEL_PORT_SLOT` (R55). A slot of a lintel port in one direction comes up and carries a transfer of its named
  owner and class. -/
  | lintelPortSlot (b lintel : Nat) (inward : Bool) (bad : Bool)
  /-- `SCRATCHPAD_BANK_SLOT` (R55). A slot of a scratchpad bank carries one 64-byte word for the engine the loaded
  slot set names. -/
  | scratchpadBankSlot (i bank : Nat) (req : SramReq)
  /-- `ACCUMULATOR_PORT_SLOT` (R55). A slot of an accumulator port carries one row of 64 values for the engine the
  slot set names. -/
  | accumulatorPortSlot (i port : Nat) (req : SramReq)
  /-- `BAY_ENGINE_COMMAND_SLOT` (R51). A bay engine takes at most one command from the pane its command slot table
  names for the cycle. -/
  | bayEngineCommandSlot (b eng : Nat)
  /-- `SWITCH_DRAINED` (R65). Once running commands have completed, the outgoing waits are recorded and the save of
  overlapping regions, tiles and sequencer block begins. -/
  | switchDrained (i : Nat)
  /-- `SWITCH_SAVE_DONE` (R66). The save of step 4 ends and the restore of the incoming sequencer block, regions and
  tiles begins. -/
  | switchSaveDone (i : Nat)
  /-- `SWITCH_RESTORE_DONE` (R65). The restore ends, the incoming slot set and shares take effect and the sequencer
  resumes. -/
  | switchRestoreDone (i : Nat)
  /-- `BAY_SLOTDATA_WRITE` (R581). A write to BAY_SLOTDATA stages an entry at the selected slot index and advances the
  index. -/
  | baySlotdataWrite (b v : Nat)
  /-- `BAY_SLOTDATA_READ` (R581). A read of BAY_SLOTDATA returns the selected entry and advances the slot index. -/
  | baySlotdataRead (b : Nat)
  /-- `PANE_SLOTDATA_READ` (R582). A read of PANE_SLOTDATA returns the loaded entry and advances the slot index,
  wrapping at 255. -/
  | paneSlotdataRead (i : Nat)
  /-- `BAY_QERR_CLEAR` (R11). A write of 1 to BAY_QERR.QERR clears the queue-error flag. -/
  | bayQerrClear (b v : Nat)
  /-- `MATMUL` (R93). The cell array computes one 64 by 64 tile over NLEAF leaves as a pass of the tile's summation
  tree. -/
  | matmul (i c : Nat)
  /-- `MATMUL_RESULT_WRITE` (R95). After its last depth step, and any make-up, a MATMUL writes its result and flags to
  its tile. -/
  | matmulResultWrite (i : Nat)
  /-- `DRAIN` (R96). The drain path converts one accumulator tile and writes it to the scratchpad. -/
  | drain (i c : Nat)
  /-- `ENCODE` (R98). The cell path converts dense operand tiles into a headered panel and writes its result words. -/
  | encode (i c : Nat)
  /-- `CHSTEP` (R135). The bay's XE combines a chain position's own partial with the incoming record and sends or
  writes the result. -/
  | chstep (i c : Nat)
  /-- `CHAIN_RECORD_LAND` (R136). The successor's XE lands a chain record within DCTX's regions or save area and
  signals DSYNC, or discards it. -/
  | chainRecordLand (b : Nat)
  /-- `GATHER` (R161). The NGE aggregates the neighbour rows of a range of vertices into output rows or panels. -/
  | gather (i c : Nat)
  /-- `SEGGATHER` (R167). The NGE forms the segment partials of hub vertices for its rank and signals DSYNC. -/
  | seggather (i c : Nat)
  /-- `DEGSCAN` (R166). The NGE writes the hub list of a range of vertices. -/
  | degscan (i c : Nat)
  /-- `SEQSTAGE` (R176). The NGE stages positions of an ordered sequence as operand panels. -/
  | seqstage (i c : Nat)
  /-- `SEQSOFT` (R177). The NGE runs one maximum or exponent pass of softmax over a score tile. -/
  | seqsoft (i c : Nat)
  /-- `NARROW_READ_RETURN` (R151). A narrow read returns to the NGE, which combines rows in its class's order and
  writes complete vertices in order. -/
  | narrowReadReturn (i k : Nat)
  /-- `SASH` (R191). The vector engine applies a chain of up to eight stages to every element of a shape. -/
  | sash (i c : Nat)
  /-- `REDUCE` (R201). The vector engine sums, or takes the max or min, along one axis. -/
  | reduce (i c : Nat)
  /-- `TABULATE` (R206). The vector engine adds records into the cells of an exact cross-tabulation. -/
  | tabulate (i c : Nat)
  /-- `LINE_UPDATE` (R209). A memory controller applies a tabulation line update through its update buffer by read and
  write. -/
  | lineUpdate (b : Nat)
  /-- `TLOOKUP` (R228). The TE maps, deduplicates, fetches and pools the rows of a batch of bags. -/
  | tlookup (i c : Nat)
  /-- `TPREFETCH` (R233). The TE maps and deduplicates a later batch and stages prefetched rows. -/
  | tprefetch (i c : Nat)
  /-- `TGRAD` (R237). The TE sends a gradient contribution for each occurrence to the row's owner. -/
  | tgrad (i c : Nat)
  /-- `TSTEP_APPLY` (R240). The TE applies the contributions of a step to the rows its bay owns and advances APPLIED.
  -/
  | tstepApply (i c : Nat)
  /-- `TSTEP_REFRESH` (R243). The TE re-reads every replica of the table in its hot set from the current owners. -/
  | tstepRefresh (i c : Nat)
  /-- `TREPL` (R245). The TE sets the bay's replicated rows of a table. -/
  | trepl (i c : Nat)
  /-- `TMIGRATE` (R246). The TE begins moving each listed row to a target bay's guest area. -/
  | tmigrate (i c : Nat)
  /-- `TROWWRITE` (R248). The TE writes listed rows at their owners, each as one indivisible write. -/
  | trowwrite (i c : Nat)
  /-- `ROW_REQUEST` (R230). An owner TE answers, holds, forwards or refuses a demand or prefetch row request. -/
  | rowRequest (b : Nat)
  /-- `ROW_RESPONSE` (R229). A row returns to the requesting TE, which dequantises and pools it. -/
  | rowResponse (b : Nat)
  /-- `CONTRIBUTION` (R238). An owner accepts a contribution into its gradient buffer, or refuses it. -/
  | contribution (b : Nat)
  /-- `MIGRATION_COPY_DONE` (R247). A row's copy to the target completes and the row is copied again or flipped. -/
  | migrationCopyDone (b : Nat)
  /-- `TE_CTRCLR` (R253). A write of 1 to TE_CTRCLR[0] sets the TE counters to 0. -/
  | teCtrclr (b v : Nat)
  /-- `SOPEN` (R262). The SE opens a stream over a descriptor list and fetches its first burst. -/
  | sopen (i c : Nat)
  /-- `SRELEASE` (R263). The SE takes back the oldest delivered buffers of a load. -/
  | srelease (i c : Nat)
  /-- `SPOST` (R263). The SE takes the next filled buffers of a store. -/
  | spost (i c : Nat)
  /-- `SCANCEL` (R273). The SE ends a stream and discards its undelivered work. -/
  | scancel (i c : Nat)
  /-- `BLOCK_DELIVERED` (R260). A stream's next block is delivered in order, its run-dry time advances and SYNC is
  signalled. -/
  | blockDelivered (i st : Nat)
  /-- `STREAM_SLIP` (R271). Device time passes a stream's run-dry time while its next block is undelivered, counting a
  slip. -/
  | streamSlip (i st : Nat)
  /-- `SE_STRDATA_READ` (R282). A read of SE_STRDATA returns the selected stream-record word and advances the word. -/
  | seStrdataRead (i : Nat)
  /-- `MARGIN_MONITOR_LOW` (R308). A channel's margin monitor falls below its threshold and requests a retraining
  shutter. -/
  | marginMonitorLow (b ch : Nat)
  /-- `SHUTTER_START` (R310). A requested channel shutter starts once no other channel of the stack is shuttered. -/
  | shutterStart (b : Nat)
  /-- `SHUTTER_END` (R309). A channel shutter ends, the channel returns to service and waiting requests are served. -/
  | shutterEnd (b : Nat)
  /-- `RETRAINING_FAILURE` (R309). A retraining shutter not complete at 40 µs ends as a failure and requests another
  retraining. -/
  | retrainingFailure (b : Nat)
  /-- `MEM_RQTAIL_WRITE` (R305). The driver advances MEM_RQTAIL, freeing room for held retirement records. -/
  | memRqtailWrite (b v : Nat)
  /-- `MEM_RACK` (R306). The driver acknowledges a RETIRE or VACATE record, refusing the page or starting evacuation.
  -/
  | memRack (b v : Nat)
  /-- `MEM_SVC_RETRAIN` (R319). MEM_SVC action 0b001 requests a retraining shutter of a channel. -/
  | memSvcRetrain (b ch : Nat)
  /-- `MEM_SVC_SELF_TEST` (R319). MEM_SVC action 0b010 starts a self-test of a channel. -/
  | memSvcSelfTest (b ch : Nat)
  /-- `MEM_SVC_DECLARE_FAILED` (R311). MEM_SVC action 0b011 declares a channel failed and starts its removal. -/
  | memSvcDeclareFailed (b ch : Nat)
  /-- `EVACUATION_COPY_DONE` (R311). The copy of a failed channel's bands ends and the map is switched, posting
  REMOVED. -/
  | evacuationCopyDone (b : Nat)
  /-- `STACK_TEMPERATURE_READ` (R315). Every 10 µs the controller reads its die sensors and applies the actions of
  Table 9-11. -/
  | stackTemperatureRead (b : Nat) (temps : List Nat)
  /-- `PAGE_WALK_LINE` (R328). A page-table line read by the walker returns and the walk continues, completes or
  faults. -/
  | pageWalkLine (b k : Nat)
  /-- `WALKRSP` (R329). A companion walk reply arrives and is checked, cached or turned into a fault. -/
  | walkrsp (b : Nat)
  /-- `COMPANION_WALK_TIMEOUT` (R329). A companion walk without a reply after 1 ms faults its accesses with code 0x94.
  -/
  | companionWalkTimeout (b k : Nat)
  /-- `INVAL` (R332). A bay receives an invalidation and drops the entries it names. -/
  | inval (b : Nat)
  /-- `INVACK` (R333). A bay acknowledges an invalidation once every access through a dropped entry has completed. -/
  | invack (b : Nat)
  /-- `XLT_FRESOLVE` (R348). The driver resolves a fault-queue entry for retry or failure. -/
  | xltFresolve (v : Nat)
  /-- `XLT_FNTAIL_WRITE` (R345). The driver advances XLT_FNTAIL, freeing notice space and letting stalled faults
  retry. -/
  | xltFntailWrite (v : Nat)
  /-- `XLT_MPTAIL_WRITE` (R350). The driver adds pages to the migration pool. -/
  | xltMptailWrite (v : Nat)
  /-- `MIGRATION_START` (R349). The oldest pending migrate entry starts a migration once none runs and the pool is not
  empty. -/
  | migrationStart
  /-- `MIGRATION_STEP_DONE` (R350). A waiting step of a page migration completes and the migration goes on, completes
  or fails. -/
  | migrationStepDone
  /-- `XLT_FLUSH_TLB` (R354). XLT_FLUSH[0] drops every TLB and walk-cache entry of the bay. -/
  | xltFlushTlb (b : Nat)
  /-- `XLT_FLUSH_OWNER` (R339). XLT_FLUSH[1] drops every owner-cache line of the bay. -/
  | xltFlushOwner (b : Nat)
  /-- `TASK_COMPLETE` (R370). A task completes, signals DONESYNC if enabled and frees its ready-list entry. -/
  | taskComplete (i : Nat)
  /-- `DSP_TFTAIL_WRITE` (R371). The driver advances DSP_TFTAIL, freeing room for held task-fault records. -/
  | dspTftailWrite (b v : Nat)
  /-- `SLICE_EXPIRY` (R365). A running task has run for DSP_SLICE and a ready task of equal priority displaces it. -/
  | sliceExpiry (i : Nat)
  /-- `BLOCKED_SWITCH` (R368). A task blocked in WAIT or TAKE for DSP_BLOCKSW is switched out when the pane has a
  candidate. -/
  | blockedSwitch (i : Nat)
  /-- `CONTEXT_RESET` (R372). A write to DSP_CTXRESET resets a context throughout the device. -/
  | contextReset (b v : Nat)
  /-- `CONTEXT_RESET_DONE` (R372). The last step of a context reset completes, RESETBUSY clears and a held reset
  starts. -/
  | contextResetDone
  /-- `SIGNAL_APPLY` (R375). A signal reaches its object's home, which adds it and releases waits and serves takes, or
  refuses it. -/
  | signalApply (b : Nat)
  /-- `WAIT_TIMEOUT` (R380). A wait or take with a timeout expires, is removed and faults its task with code 0xA4. -/
  | waitTimeout (b k : Nat)
  /-- `SYN_CREATE` (R389). SYN_CTRL create makes the selected object Live with its owner, value and ANYCTX. -/
  | synCreate (b v : Nat)
  /-- `SYN_DESTROY` (R378). SYN_CTRL destroy breaks the object if it has waiters and then frees it. -/
  | synDestroy (b v : Nat)
  /-- `SYN_SET_VALUE` (R389). SYN_CTRL set value replaces an object's value and settles its waiters. -/
  | synSetValue (b v : Nat)
  /-- `WIN_PCTRL_RETRAIN` (R420). WIN_PCTRL or FLX_PCTRL retrain starts a service shutter of the port. -/
  | winPctrlRetrain (p : Nat)
  /-- `WIN_PCTRL_REPLACE_LANE` (R408). WIN_PCTRL or FLX_PCTRL replace lane swaps a named lane for a spare while the
  port stays Up. -/
  | winPctrlReplaceLane (p lane : Nat)
  /-- `WIN_PCTRL_DISABLE` (R400). WIN_PCTRL or FLX_PCTRL disable takes the port Off, with failover if Up. -/
  | winPctrlDisable (p : Nat)
  /-- `WIN_PCTRL_ENABLE` (R400). WIN_PCTRL or FLX_PCTRL enable powers the port's lasers and rings and moves it to
  Dark. -/
  | winPctrlEnable (p : Nat)
  /-- `LIGHT_DETECTED` (R400). A Dark port sees light on 16 or more lanes and begins tuning. -/
  | lightDetected (p lanes : Nat)
  /-- `DARK_RETRY` (R400). A Dark port that sees no light for 1 s retries. -/
  | darkRetry (p : Nat)
  /-- `RINGS_TUNED` (R400). A port's rings reach their wavelengths and it sends TS1. -/
  | ringsTuned (p : Nat)
  /-- `CLOCK_LOCK` (R400). A port gains clock lock on 16 or more lanes and sends TS2. -/
  | clockLock (p lanes : Nat)
  /-- `LOCK_TIMEOUT` (R400). A port in Train1 without lock for 100 ms returns to Dark. -/
  | lockTimeout (p : Nat)
  /-- `TRAINING_WORD` (R398). A training word is received and advances the lane map, alignment or return to Dark. -/
  | trainingWord (p lane w : Nat)
  /-- `CODEWORD` (R397). A codeword is received, corrected or discarded, and counted toward FEC lock or a swap. -/
  | codeword (p : Nat) (errs : List (Nat × Nat))
  /-- `FLIT_RECEIVE` (R404). A flit is received, checked and accepted or discarded, with its ACK, NAK, HOLD and
  credits applied. -/
  | flitReceive (p flit : Nat)
  /-- `FLIT_SEND` (R405). A port sends its next flit, filling a data flit from the channels that hold data and credit.
  -/
  | flitSend (p : Nat)
  /-- `REPLAY_TIMEOUT` (R404). No advance of ACK for WIN_REPLAYTMO makes the sender resend, or the receiver repeat
  NAK. -/
  | replayTimeout (p : Nat)
  /-- `LANE_FAULT` (R408). A lane loses light or lock, or exceeds its corrected-symbol limit, and a swap is named or a
  shutter started. -/
  | laneFault (p lane : Nat) (lost : Bool)
  /-- `LIGHT_LOST` (R400). Light lost on 3 or more lanes takes an Up port to Dark with failover. -/
  | lightLost (p lanes : Nat)
  /-- `DRAIN_DONE` (R420). A shuttered port's flits are all acknowledged, its flows move and it retrains. -/
  | drainDone (p : Nat)
  /-- `DRAIN_TIMEOUT` (R420). A drain not finished within 2 µs ends in failover. -/
  | drainTimeout (p : Nat)
  /-- `FLOW_RELEASE` (R411). A flow held for a port change is released once its old port holds no unacknowledged flit
  of it. -/
  | flowRelease (b : Nat)
  /-- `RDREQ` (R416). A remote read request is served at the target as a memory access of the requesting context. -/
  | rdreq (b : Nat)
  /-- `WRREQ` (R416). A remote write request is served at the target word by word. -/
  | wrreq (b : Nat)
  /-- `ATOMIC` (R416). A remote atomic add is applied by the memory controller as one read-modify-write. -/
  | atomic (b : Nat)
  /-- `RDRESP` (R417). A read response returns data or a status that faults the requester. -/
  | rdresp (b : Nat)
  /-- `WRACK` (R417). A write acknowledgement returns with its status. -/
  | wrack (b : Nat)
  /-- `ATACK` (R417). An atomic acknowledgement returns with its status. -/
  | atack (b : Nat)
  /-- `LKREQ` (R230). A remote lookup request reaches the owner bay's TE. -/
  | lkreq (b : Nat)
  /-- `LKRESP` (R229). A remote lookup response returns stamped rows to the requesting TE. -/
  | lkresp (b : Nat)
  /-- `GRAD` (R237). A remote gradient contribution reaches a row's owner. -/
  | grad (b : Nat)
  /-- `GRACK` (R237). An owner's acknowledgement of a contribution reaches the sender. -/
  | grack (b : Nat)
  /-- `CHREC` (R136). A chain record from another device arrives and is landed and signalled. -/
  | chrec (b : Nat)
  /-- `SIGNAL_MESSAGE` (R419). A signal message from another device reaches its object's home behind the writes it
  guards. -/
  | signalMessage (b : Nat)
  /-- `TESVC` (R247). A table-service message between owners carries forwarding, a guest copy or an entry flip. -/
  | tesvc (b : Nat)
  /-- `FAILOVER` (R421). A FAILOVER names a lost port and delivered counts, and the receiver resends the rest in
  order. -/
  | failover (p : Nat)
  /-- `REMOTE_TIMEOUT` (R418). A remote read, write or atomic without a response after XE_RTMO faults its requester
  with code 0xB1. -/
  | remoteTimeout (b k : Nat)
  /-- `XE_RTFLUSH` (R429). A write to XE_RTFLUSH[0] drops the XE's cached route entries. -/
  | xeRtflush (b v : Nat)
  /-- `CRDS` (R434). The companion reads a line and may keep a clean copy. -/
  | crds (f : Nat)
  /-- `CRDO` (R434). The companion reads a line and may modify its copy. -/
  | crdo (f : Nat)
  /-- `CRDU` (R434). The companion reads bytes without keeping a copy. -/
  | crdu (f : Nat)
  /-- `CWR` (R436). The companion writes device memory without consulting the directory. -/
  | cwr (f : Nat)
  /-- `CWB` (R434). The companion writes back an Owned line, which becomes Invalid. -/
  | cwb (f : Nat)
  /-- `CEVICT` (R434). The companion drops a line it holds, which becomes Invalid. -/
  | cevict (f : Nat)
  /-- `SNPRSP` (R434). A snoop response arrives, its dirty data is written and the held access proceeds. -/
  | snprsp (f : Nat)
  /-- `SNOOP_TIMEOUT` (R434). A snoop without a response within 1 ms makes the line Invalid and logs it. -/
  | snoopTimeout (b k : Nat)
  /-- `DOORBELL` (R438). A Follux doorbell message acts as a write to BAY_DOORBELL of its bay. -/
  | doorbell (f : Nat)
  /-- `MGRD` (R438). A Follux management read of a register is served and answered with MGRSP. -/
  | mgrd (f : Nat)
  /-- `MGWR` (R438). A Follux management write of a register is served and answered with MGRSP. -/
  | mgwr (f : Nat)
  /-- `COMPANION_TIMEOUT` (R444). A request to the companion without a response after FLX_HTMO faults its task with
  code 0xC1. -/
  | companionTimeout (b k : Nat)
  /-- `FLX_MSICTL_WRITE` (R442). A write to FLX_MSICTL sets or clears MASK, sending the MSI of a pending vector when
  cleared. -/
  | flxMsictlWrite (vec v : Nat)
  /-- `CTL_IRQTEST` (R551). A write to CTL_IRQTEST raises the named vector. -/
  | ctlIrqtest (v : Nat)
  /-- `CHECK` (R454). The CVU runs one check, per-block check, fingerprint or fingerprint-combine job. -/
  | check (i c : Nat)
  /-- `POWER_UP` (R466). Board rails rise from off, the supply die samples the straps and releases the control die,
  starting device time. -/
  | powerUp (chip smba recoverN : Nat)
  /-- `PIN_RESET` (R465). RESET_N low then high resets every die but the supply die. -/
  | pinReset (chip smba recoverN : Nat)
  /-- `RESTART` (R465). CTL_RESTART with KIND 0b01 restarts the device, keeping the log and device time. -/
  | restart (path : Nat)
  /-- `RECOVERY` (R477). CTL_RESTART with KIND 0b10 restarts into a recovery boot. -/
  | recovery (path : Nat)
  /-- `BOOT_DIRECTORY_READ` (R469). The ROM has read the directory, service record and helper data and chooses the
  active slot or recovery. -/
  | bootDirectoryRead
  /-- `SLOT_VERIFY_DONE` (R475). The ROM finishes verifying a slot and accepts it, tries the other or enters recovery.
  -/
  | slotVerifyDone
  /-- `BRING_UP_STEPS_DONE` (R478). Bring-up steps 4 to 7 complete, or calibration or training fails. -/
  | bringUpStepsDone (rep : BringUp)
  /-- `LASERS_LOCKED` (R479). Every laser of the enabled ports has locked or faulted and exchange training begins. -/
  | lasersLocked (faulted : List Nat)
  /-- `EXCHANGE_TRAINING_TIMEOUT` (R482). 500 ms of exchange training end and Follux training begins. -/
  | exchangeTrainingTimeout
  /-- `FOLLUX_TRAINING_TIMEOUT` (R480). 320 ms pass without a Follux port Up and error 0x0A is recorded. -/
  | folluxTrainingTimeout
  /-- `CTL_COMMIT` (R485). A commit checks a target's staged copies together and is rejected or made pending. -/
  | ctlCommit (v : Nat)
  /-- `COMMIT_APPLY` (R485). At the target's safe boundary every staged value of a pending commit takes effect
  together. -/
  | commitApply (tgt : Nat)
  /-- `SEC_NEW_NONCE` (R498). SEC_CMD 0x1 makes a new unused nonce current. -/
  | secNewNonce
  /-- `SEC_LOAD_TOKEN` (R498). SEC_CMD 0x2 verifies a service token and enters or renews Service. -/
  | secLoadToken (path : Nat)
  /-- `SEC_LEAVE_SERVICE` (R495). SEC_CMD 0x3 returns the device from Service to Sealed. -/
  | secLeaveService
  /-- `SEC_ATTEST` (R499). SEC_CMD 0x4 writes a signed attestation report over the challenge. -/
  | secAttest
  /-- `SEC_CERTIFICATE` (R499). SEC_CMD 0x5 copies the identity certificate to SEC_ARGADDR. -/
  | secCertificate
  /-- `SEC_ENROL` (R496). SEC_CMD 0x6 in Open re-reads the PUF array and writes new helper data. -/
  | secEnrol
  /-- `SEC_TOKDATA` (R510). A write to SEC_TOKDATA appends 4 B to the token buffer. -/
  | secTokdata (v : Nat)
  /-- `SERVICE_END` (R495). Device time reaches SEC_SVCEND and the device returns to Sealed. -/
  | serviceEnd
  /-- `SEC_FPDATA_WRITE` (R510). A write to SEC_FPDATA appends to the flash page buffer. -/
  | secFpdataWrite (v : Nat)
  /-- `SEC_FPDATA_READ` (R510). A read of SEC_FPDATA returns the flash word and advances SEC_FPADDR by 4. -/
  | secFpdataRead
  /-- `FLASH_ERASE` (R496). SEC_FPCMD 0b01 erases a 64 KiB sector, refused outside the image slots and certificate. -/
  | flashErase
  /-- `FLASH_PROGRAM` (R496). SEC_FPCMD 0b10 programs the page buffer at SEC_FPADDR. -/
  | flashProgram
  /-- `DBG_REQ` (R500). A debug level is requested over a path and granted or refused. -/
  | dbgReq (path v : Nat)
  /-- `HALT` (R502). DBG_HALT halt stops a pane's sequencer at the next command boundary. -/
  | halt (path v : Nat)
  /-- `RESUME` (R502). DBG_HALT resume lets a halted pane run again. -/
  | resume (path v : Nat)
  /-- `STEP` (R502). DBG_HALT step issues one command and halts again when it completes. -/
  | step (path v : Nat)
  /-- `DBG_MDATA_READ` (R503). An Intrude read of local memory at DBG_MADDR, which then advances by 4. -/
  | dbgMdataRead (path : Nat)
  /-- `DBG_MDATA_WRITE` (R503). An Intrude write of local memory at DBG_MADDR, logged, which then advances by 4. -/
  | dbgMdataWrite (path v : Nat)
  /-- `DBG_FDATA` (R503). A register force writes a value at DBG_FADDR whatever its access code, and is logged. -/
  | dbgFdata (path v : Nat)
  /-- `DBG_TRCDATA_READ` (R513). A read of DBG_TRCDATA returns the selected trace word and advances the word. -/
  | dbgTrcdataRead (path : Nat)
  /-- `PWR_REQ` (R506). A power-state request starts a transition toward the target state or is refused. -/
  | pwrReq (v : Nat)
  /-- `POWER_TRANSITION_DONE` (R506). A power transition reaches its next state and a held request is taken from it.
  -/
  | powerTransitionDone
  /-- `JUNCTION_SENSOR_READ` (R507). Every 10 µs a bay reads its junction sensors and steps its clock as Table 16-7
  states. -/
  | junctionSensorRead (b temp : Nat)
  /-- `TARGETED_SELF_TEST` (R520). A targeted self-test of a resource starts as its domain's recovery, holding the
  target out of service. -/
  | targetedSelfTest (k : Nat)
  /-- `SELF_TEST_VERDICT` (R522). A self-test ends with a transient or lasting verdict and the remap, repair,
  replacement or removal it calls for. -/
  | selfTestVerdict (k : Nat) (lasting : Bool) (repairable : Bool)
  /-- `DOMAIN_RESET_DONE` (R524). A domain reset completes and self-tests of the resources with discarded faults run.
  -/
  | domainResetDone (dkind inst : Nat)
  /-- `LOG_DATA_READ` (R537). A read of LOG_DATA returns the selected word and advances the word, then the index. -/
  | logDataRead
  /-- `UPDATE_START` (R530). CTL_UPDCMD start begins a live firmware update by reading and verifying the image. -/
  | updateStart
  /-- `UPDATE_ABORT` (R530). CTL_UPDCMD abort ends an update in Verify or Write. -/
  | updateAbort
  /-- `UPDATE_VERIFY_DONE` (R530). An update's checks finish and the inactive slot is programmed, or the update ends.
  -/
  | updateVerifyDone
  /-- `UPDATE_WRITE_DONE` (R530). The inactive slot is read back equal to the image, or a flash error ends the update.
  -/
  | updateWriteDone (ok : Bool)
  /-- `UPDATE_HANDOVER` (R530). Pending commits applied, the new control firmware takes over and held accesses are
  served. -/
  | updateHandover
  /-- `LINK_FIRMWARE_PORT_DONE` (R531). One port's link firmware update ends and the update moves to the next port or
  commits. -/
  | linkFirmwarePortDone
  /-- `PANESVC_SELF_TEST` (R529). CTL_PANESVC 0b01 starts a self-test of a pane number. -/
  | panesvcSelfTest (n : Nat)
  /-- `PANESVC_REPLACE` (R529). CTL_PANESVC 0b10 replaces a pane number by its bay's spare. -/
  | panesvcReplace (n : Nat)
  /-- `SMBUS_READ` (R545). An SMBus command 0x01 transaction reads one register and returns status and data. -/
  | smbusRead (a : Nat)
  /-- `SMBUS_WRITE` (R545). An SMBus command 0x02 transaction writes one register and returns status. -/
  | smbusWrite (a v : Nat)
  /-- `SMBUS_TIMEOUT` (R545). An SMBus access not started within 20 ms is abandoned with reason 0x07. -/
  | smbusTimeout (a : Nat) (wr : Bool)
  /-- `DBGACC` (R501). The test port's DBGACC instruction carries one management-window access. -/
  | dbgacc (a v : Nat) (wr : Bool)
  /-- `CTL_TIME_LO_READ` (R551). A read of CTL_TIME_LO returns device time and latches its high half for that path. -/
  | ctlTimeLoRead (path : Nat)
  /-- `REGISTER_WRITE` (R11). A write to a register with no row of its own acts by its access code and the access
  rules. -/
  | registerWrite (path a v : Nat)
  /-- `SUP_EVENTS_CLEAR` (R573). A write of 1 to a SUP_EVENTS bit clears that event flag. -/
  | supEventsClear (v : Nat)
  /-- `REFCLK0_LOSS` (R565). REFCLK0 shows no edge for 100 ns and every PLL moves to REFCLK1. -/
  | refclk0Loss
  /-- `REFCLK_BOTH_LOST` (R565). Neither reference clock shows an edge for 10 µs and the supply die enters P5. -/
  | refclkBothLost
  /-- `VIN_UNDERVOLTAGE` (R562). VIN falls below its undervoltage level and the supply die enters P5, setting VINUV.
  -/
  | vinUndervoltage
  /-- `VAUX_UNDERVOLTAGE` (R562). VAUX falls below its undervoltage level and the whole device resets. -/
  | vauxUndervoltage
  /-- `SENSOR_READ` (R571). Every 100 µs the window-die, lintel, control and supply sensors are read. -/
  | sensorRead (rep : Sensors)
  /-- `VIN_DIP` (R573). VIN leaves regulation but stays above its undervoltage level for 1 µs or more, setting
  SUP_EVENTS.VINDIP and clearing SUP_STAT.VINOK until it returns. -/
  | vinDip
  /-- `VIO_UNDERVOLTAGE` (R559). VIO falls below 1.6 V or returns into regulation, changing SUP_STAT.VIOOK. -/
  | vioUndervoltage
  /-- `REFCLK1_LOSS` (R574). REFCLK1 alone stops showing edges, or shows them again, while REFCLK0 runs, changing
  SUP_STAT.REF1LOST. -/
  | refclk1Loss
  /-- `SEC_COMMAND_COMPLETE` (R512). A running SEC command finishes within its bound, writes SEC_RESULT and clears
  SEC_STAT.BUSY. -/
  | secCommandComplete
  /-- `FLASH_OPERATION_COMPLETE` (R510). A flash erase or program started by SEC_FPCMD ends, clearing SEC_FPSTAT.BUSY
  and setting ERROR if it failed. -/
  | flashOperationComplete (ok : Bool)
  /-- `EXTEST` (R501). The test port's EXTEST instruction is accepted at Intrude, in Open or Service and in P4, and
  drives the status pins other than READY_OUT. -/
  | extest (drive : Nat)
deriving DecidableEq, Repr

end Sys2Proof
end

