-- ==== Sys2Proof/Machine/Tbl.lean ====
section
/-! DEFINITION. Sparse tables and bit fields: the reads and the writes of a table in canonical form, and the bit-field and
byte-order helpers that every layout of the manual goes through (R6, R9: little-endian). -/

namespace Sys2Proof.Machine

variable {α : Type}

/-- What table `t` holds at `k`; `d` is what an unlisted key reads as. -/
def tget (d : α) : Tbl α → Nat → α
  | [], _ => d
  | (k', v) :: t, k => if k' = k then v else tget d t k

/-- Put an entry whose key is absent at its place in rising key order. -/
def tins (k : Nat) (v : α) : Tbl α → Tbl α
  | [] => [(k, v)]
  | (k', v') :: t => if k < k' then (k, v) :: (k', v') :: t else (k', v') :: tins k v t

/-- Remove the entry at `k`. -/
def tdel (t : Tbl α) (k : Nat) : Tbl α := t.filter (fun e => e.1 != k)

/-- Write `v` at `k`; writing what an unlisted key reads as removes the entry. -/
def tset [DecidableEq α] (d : α) (t : Tbl α) (k : Nat) (v : α) : Tbl α :=
  if v = d then tdel t k else tins k v (tdel t k)

/-- Keys strictly rising from `lo`. -/
def tsorted : Nat → Tbl α → Bool
  | _, [] => true
  | lo, (k, _) :: t => decide (lo ≤ k) && tsorted (k + 1) t

/-- The canonical form: keys strictly rising, no entry equal to the unlisted value. -/
def twf [DecidableEq α] (d : α) (t : Tbl α) : Bool :=
  tsorted 0 t && t.all (fun e => decide (e.2 ≠ d))

/-- Write a list of entries in order. -/
def tsetAll [DecidableEq α] (d : α) (t : Tbl α) (es : List (Nat × α)) : Tbl α :=
  es.foldl (fun t e => tset d t e.1 e.2) t

/-- Drop every entry with a key in [lo, hi): those keys read as unlisted again. -/
def tdrop (t : Tbl α) (lo hi : Nat) : Tbl α := t.filter (fun e => !(lo ≤ e.1 && e.1 < hi))

/-- Entries with a key in [lo, hi), rebased to start at `dst`. -/
def tslice (t : Tbl α) (lo hi dst : Nat) : Tbl α :=
  (t.filter (fun e => lo ≤ e.1 && e.1 < hi)).map (fun e => (e.1 - lo + dst, e.2))

/-- Replace [lo, lo + n) of `t` by [src, src + n) of `u`. -/
def tcopy [DecidableEq α] (d : α) (u t : Tbl α) (src lo n : Nat) : Tbl α :=
  tsetAll d (tdrop t lo (lo + n)) (tslice u src (src + n) lo)

/-- Bits [hi:lo] of `n` (Table 0-3). -/
def bits (n hi lo : Nat) : Nat := n / 2 ^ lo % 2 ^ (hi + 1 - lo)

/-- Bit `k` of `n`. -/
def bit (n k : Nat) : Bool := n / 2 ^ k % 2 == 1

/-- `n` with bits [hi:lo] replaced by `v`. -/
def setBits (n hi lo v : Nat) : Nat := n - bits n hi lo * 2 ^ lo + v % 2 ^ (hi + 1 - lo) * 2 ^ lo

/-- A Bool as one bit. -/
def b2n (b : Bool) : Nat := if b then 1 else 0

/-- The little-endian bytes of `n`, `len` of them. -/
def leBytes : Nat → Nat → List Byte
  | 0, _ => []
  | len + 1, n => BitVec.ofNat 8 n :: leBytes len (n / 256)

/-- The number a list of little-endian bytes spells. -/
def leNat : List Byte → Nat
  | [] => 0
  | b :: bs => b.toNat + 256 * leNat bs

/-- Bytes `off` to `off + len - 1` of a byte string, as a number. -/
def field (bs : List Byte) (off len : Nat) : Nat := leNat ((bs.drop off).take len)

/-- Bytes `off` to `off + len - 1` of a command given as one little-endian number. -/
def cbytes (c off len : Nat) : Nat := c / 2 ^ (8 * off) % 2 ^ (8 * len)

/-- Bits [hi:lo] of the field that starts at byte `off` of a command. -/
def cbits (c off hi lo : Nat) : Nat := bits (c / 2 ^ (8 * off)) hi lo

/-- Number of set bits among the low `w` bits. -/
def popcount : Nat → Nat → Nat
  | 0, _ => 0
  | w + 1, n => n % 2 + popcount w (n / 2)

/-- Positions of the set bits among the low `w` bits, rising. -/
def setBitsOf (w n : Nat) : List Nat := (List.range w).filter (bit n)

/-- The low `w` bits in reverse order. -/
def revBits : Nat → Nat → Nat
  | 0, _ => 0
  | w + 1, n => n % 2 * 2 ^ w + revBits w (n / 2)

/-- A number as a signed one of `w` bits. -/
def toSigned (w n : Nat) : Int := if bit n (w - 1) then (n % 2 ^ w : Nat) - (2 ^ w : Nat) else (n % 2 ^ w : Nat)

/-- A signed number as `w` bits of two's complement. -/
def ofSigned (w : Nat) (x : Int) : Nat := (x % (2 ^ w : Nat)).toNat

/-- Saturating addition of a counter of `w` bits. -/
def satAdd (w a n : Nat) : Nat := min (a + n) (2 ^ w - 1)

/-- Replace element `k` of a list by `f` of it. -/
def modAt (l : List α) (k : Nat) (f : α → α) : List α := l.mapIdx (fun j x => if j = k then f x else x)

/-- Remove the first element that satisfies `p`. -/
def eraseFirst (p : α → Bool) : List α → List α
  | [] => []
  | x :: xs => if p x then xs else x :: eraseFirst p xs

end Sys2Proof.Machine
end

