-- ==== Sys2Proof/Machine/Num.lean ====
section
/-! DEFINITION. Numbers: the formats of Table 3-1, exact dyadic values, rounding to nearest even, the conversions of
Table 3-7, division and square root, and the long element of Table 4-2. Every operation is exact integer arithmetic
followed by one rounding. -/

namespace Sys2Proof.Machine

/-- A value of a float format: NaN, an infinity, or sign * m * 2^e (zero keeps its sign). -/
inductive FV where
  | nan
  | inf (neg : Bool)
  | fin (neg : Bool) (m : Nat) (e : Int)
deriving DecidableEq, Repr

/-- A float format of Table 3-1. -/
structure Fmt where
  ebits : Nat
  mbits : Nat
  bias : Nat
  hasInf : Bool
deriving DecidableEq, Repr

/-- Format codes 0x0-0x4 (R82). -/
def fmtOf (code : Nat) : Fmt :=
  if code = 0 then ⟨8, 23, 127, true⟩ else if code = 1 then ⟨5, 10, 15, true⟩
  else if code = 2 then ⟨8, 7, 127, true⟩ else if code = 3 then ⟨4, 3, 7, false⟩ else ⟨5, 2, 15, true⟩

/-- FP32. -/
abbrev fp32 : Fmt := fmtOf 0

/-- The width in bits of an element of a format code; 0 for a reserved code. -/
def fmtBits (code : Nat) : Nat :=
  if code = 0 ∨ code = 7 then 32 else if code = 1 ∨ code = 2 then 16
  else if code = 3 ∨ code = 4 ∨ code = 5 then 8 else if code = 6 then 4 else 0

/-- 2^k as a natural number for k ≥ 0. -/
def pow2 (k : Int) : Nat := 2 ^ k.toNat

/-- The value a bit pattern encodes (R83: subnormals are the values they encode). -/
def fdecode (f : Fmt) (x : Nat) : FV :=
  let w := f.ebits + f.mbits
  let neg := bit x w
  let e := x / 2 ^ f.mbits % 2 ^ f.ebits
  let m := x % 2 ^ f.mbits
  let top := 2 ^ f.ebits - 1
  if f.hasInf && e == top then (if m = 0 then .inf neg else .nan)
  else if !f.hasInf && e == top && m == 2 ^ f.mbits - 1 then .nan
  else if e = 0 then .fin neg m (1 - f.bias - f.mbits)
  else .fin neg (m + 2 ^ f.mbits) (e - f.bias - f.mbits)

/-- The canonical NaN of a format (R83). -/
def fnan (f : Fmt) : Nat :=
  if f.hasInf then (2 ^ f.ebits - 1) * 2 ^ f.mbits + 2 ^ (f.mbits - 1) else 2 ^ (f.ebits + f.mbits) - 1

/-- The bit pattern of an infinity. -/
def finf (f : Fmt) (neg : Bool) : Nat := b2n neg * 2 ^ (f.ebits + f.mbits) + (2 ^ f.ebits - 1) * 2 ^ f.mbits

/-- The bit pattern of the largest finite value of a sign. -/
def fmax (f : Fmt) (neg : Bool) : Nat :=
  b2n neg * 2 ^ (f.ebits + f.mbits) + (if f.hasInf then (2 ^ f.ebits - 1) * 2 ^ f.mbits - 1 else 2 ^ (f.ebits + f.mbits) - 2)

/-- m / 2^k rounded to nearest even for k ≥ 0, m * 2^-k exactly otherwise. -/
def rneShift (m : Nat) (k : Int) : Nat :=
  if k ≤ 0 then m * pow2 (-k)
  else
    let q := m / pow2 k
    let r := m % pow2 k
    let half := pow2 (k - 1)
    if half < r ∨ (r = half ∧ q % 2 = 1) then q + 1 else q

/-- Round a finite magnitude m * 2^e > 0 to a format to nearest even, subnormals kept: the bits without sign, or none
when the rounding with an unbounded exponent exceeds the largest finite value (R97). -/
def froundMag (f : Fmt) (m : Nat) (e : Int) : Option Nat :=
  if m = 0 then some 0
  else
    let emin : Int := 1 - f.bias
    let top : Int := (Nat.log2 m : Int) + e
    let q : Int := max (top - f.mbits) (emin - f.mbits)
    let r0 := rneShift m (q - e)
    let (r, q) := if r0 = 2 ^ (f.mbits + 1) then (2 ^ f.mbits, q + 1) else (r0, q)
    if r < 2 ^ f.mbits then some r
    else
      let ef := q + f.mbits + f.bias
      let bitsv := ef.toNat * 2 ^ f.mbits + (r - 2 ^ f.mbits)
      if fmax f false < bitsv then none else some bitsv

/-- Round a value to a format; the flag says that a finite value overflowed. `sat` chooses the largest finite value, else
infinity, or NaN in E4M3 (Table 3-7). -/
def fround (f : Fmt) (sat : Bool) : FV → Nat × Bool
  | .nan => (fnan f, false)
  | .inf neg => (if f.hasInf then finf f neg else if sat then fmax f neg else fnan f, false)
  | .fin neg m e =>
    match froundMag f m e with
    | some b => (b2n neg * 2 ^ (f.ebits + f.mbits) + b, false)
    | none => (if sat then fmax f neg else if f.hasInf then finf f neg else fnan f, true)

/-- Is the value zero of either sign? -/
def FV.isZero : FV → Bool
  | .fin _ 0 _ => true
  | _ => false

/-- Is the value finite? -/
def FV.isFin : FV → Bool
  | .fin _ _ _ => true
  | _ => false

/-- An exact dyadic number v * 2^e. -/
structure Dy where
  v : Int
  e : Int
deriving DecidableEq, Repr

/-- The exact number of a finite value (0 for the others). -/
def FV.dy : FV → Dy
  | .fin neg m e => ⟨if neg then -(m : Int) else m, e⟩
  | _ => ⟨0, 0⟩

/-- A dyadic as a float value; an exact zero is +0. -/
def Dy.fv (d : Dy) : FV := .fin (d.v < 0) d.v.natAbs d.e

/-- Exact sum. -/
def Dy.add (a b : Dy) : Dy :=
  let e := min a.e b.e
  ⟨a.v * pow2 (a.e - e) + b.v * pow2 (b.e - e), e⟩

/-- Exact product. -/
def Dy.mul (a b : Dy) : Dy := ⟨a.v * b.v, a.e + b.e⟩

/-- Negation. -/
def Dy.neg (a : Dy) : Dy := ⟨-a.v, a.e⟩

/-- a < b. -/
def Dy.lt (a b : Dy) : Bool := decide ((Dy.add a (Dy.neg b)).v < 0)

/-- The exponent k with 2^k ≤ |d| < 2^(k+1), for d ≠ 0. -/
def Dy.exp (d : Dy) : Int := (Nat.log2 d.v.natAbs : Int) + d.e

/-- Numeric comparison of non-NaN values: a < b, with -inf lowest, +inf highest and the zeros equal (R131). -/
def FV.lt : FV → FV → Bool
  | .inf na, .inf nb => na && !nb
  | .inf na, .fin _ _ _ => na
  | .fin _ _ _, .inf nb => !nb
  | .fin na ma ea, .fin nb mb eb => Dy.lt (FV.dy (.fin na ma ea)) (FV.dy (.fin nb mb eb))
  | _, _ => false

/-- Product of two values (R85, R87): NaN for a NaN operand or infinity times zero. -/
def FV.mul : FV → FV → FV
  | .fin na ma ea, .fin nb mb eb => .fin (na != nb) (ma * mb) (ea + eb)
  | .nan, _ => .nan
  | _, .nan => .nan
  | .inf na, .inf nb => .inf (na != nb)
  | .inf na, .fin nb mb _ => if mb = 0 then .nan else .inf (na != nb)
  | .fin na ma _, .inf nb => if ma = 0 then .nan else .inf (na != nb)

/-- Exact sum of two values; opposite infinities and NaN give NaN; an exact zero is +0, but -0 + -0 is left to callers
that define it. -/
def FV.add : FV → FV → FV
  | .fin na ma ea, .fin nb mb eb => (Dy.add (FV.dy (.fin na ma ea)) (FV.dy (.fin nb mb eb))).fv
  | .nan, _ => .nan
  | _, .nan => .nan
  | .inf na, .inf nb => if na = nb then .inf na else .nan
  | .inf na, _ => .inf na
  | _, .inf nb => .inf nb

/-- Negation of a value. -/
def FV.neg : FV → FV
  | .nan => .nan
  | .inf n => .inf (!n)
  | .fin n m e => .fin (!n) m e

/-- Quotient with sticky bit: enough bits for one correct rounding to FP32. -/
def FV.div : FV → FV → FV
  | .fin na ma ea, .fin nb mb eb =>
    if mb = 0 then (if ma = 0 then .nan else .inf (na != nb))
    else
      let k := 64 + Nat.log2 mb
      let n := ma * 2 ^ k
      .fin (na != nb) (2 * (n / mb) + (if n % mb = 0 then 0 else 1)) (ea - eb - k - 1)
  | .nan, _ => .nan
  | _, .nan => .nan
  | .inf _, .inf _ => .nan
  | .inf na, .fin nb _ _ => .inf (na != nb)
  | .fin na _ _, .inf nb => .fin (na != nb) 0 0

/-- Square root with sticky bit; negative nonzero gives NaN; -0 gives -0. -/
def FV.sqrt : FV → FV
  | .nan => .nan
  | .inf neg => if neg then .nan else .inf false
  | .fin neg m e =>
    if m = 0 then .fin neg 0 e
    else if neg then .nan
    else
      let (m, e) := if e % 2 = 0 then (m, e) else (2 * m, e - 1)
      let n := m * 2 ^ 128
      let r := Nat.sqrt n
      .fin false (2 * r + (if r * r = n then 0 else 1)) (e / 2 - 64 - 1)

/-- FP32 bits of a value, saturating at the largest finite value; the flag says it saturated (Table 4-4). -/
def toF32 (v : FV) : Nat × Bool := fround fp32 true v

/-- The value of FP32 bits. -/
def f32 (x : Nat) : FV := fdecode fp32 x

/-- FP32 addition with an IEEE result to infinity (no saturation). -/
def f32add (x y : Nat) : Nat := (fround fp32 false (FV.add (f32 x) (f32 y))).1

/-- Round an exact number to the nearest integer, ties to even. -/
def Dy.rint (d : Dy) : Int :=
  if 0 ≤ d.e then d.v * pow2 d.e
  else
    let q := rneShift d.v.natAbs (-d.e)
    if d.v < 0 then -(q : Int) else q

/-- Range of an integer format: lowest and highest value. -/
def intRange (code : Nat) (uns : Bool) : Int × Int :=
  let w := fmtBits code
  if uns then (0, (2 ^ w : Nat) - 1) else (-((2 ^ (w - 1) : Nat) : Int), (2 ^ (w - 1) : Nat) - 1)

/-- Saturate an integer to a format: its bits and whether it saturated. -/
def satInt (code : Nat) (uns : Bool) (x : Int) : Nat × Bool :=
  let (lo, hi) := intRange code uns
  let y := max lo (min hi x)
  (ofSigned (fmtBits code) y, y != x)

/-- The integer an operand element of an integer format encodes. -/
def intDecode (code : Nat) (uns : Bool) (x : Nat) : Int :=
  if uns then (x % 2 ^ fmtBits code : Nat) else toSigned (fmtBits code) x

/-- One value of a conversion: a float value or an exact integer, or an integer shifted (Table 3-7). -/
inductive CV where
  | flt (v : FV)
  | int (x : Int)
deriving DecidableEq, Repr

/-- What a conversion gives: the bits, and whether it saturated or met a NaN for an integer. -/
structure CRes where
  out : Nat
  sat : Bool
  nan : Bool
deriving DecidableEq, Repr

/-- Conversion to an output format by Table 3-7 (RECT is applied by the caller). -/
def convert (code : Nat) (sat uns : Bool) (shift : Nat) : CV → CRes
  | .flt v =>
    if code ≤ 4 then
      let (b, ov) := fround (fmtOf code) sat v
      let infSat := code = 3 && sat && (match v with | .inf _ => true | _ => false)
      ⟨b, (ov && sat) || infSat, false⟩
    else match v with
      | .nan => ⟨0, false, true⟩
      | .inf neg =>
        let (lo, hi) := intRange code uns
        ⟨ofSigned (fmtBits code) (if neg then lo else hi), true, false⟩
      | .fin neg m e =>
        let (b, s) := satInt code uns (Dy.rint (FV.dy (.fin neg m e)))
        ⟨b, s, false⟩
  | .int x =>
    if code ≤ 4 then
      let (b, ov) := fround (fmtOf code) sat (Dy.fv ⟨x, 0⟩)
      ⟨b, ov && sat, false⟩
    else
      let y := Dy.rint ⟨x, -(shift : Int)⟩
      let (b, s) := satInt code uns y
      ⟨b, s, false⟩

/-- A long element (Table 4-2): the finite value is v * 2^-316; spec 0 finite, 1 +inf, 2 -inf, 3 NaN. -/
structure LongEl where
  v : Int
  spec : Nat
deriving DecidableEq, Repr

/-- The 640 bits of a long element. -/
def LongEl.toBits (x : LongEl) : Nat := ofSigned 638 x.v + x.spec % 4 * 2 ^ 638

/-- A long element from its 640 bits. -/
def LongEl.ofBits (n : Nat) : LongEl := ⟨toSigned 638 (n % 2 ^ 638), bits n 639 638⟩

/-- The value of a long element. -/
def LongEl.fv (x : LongEl) : FV :=
  if x.spec = 0 then Dy.fv ⟨x.v, -316⟩ else if x.spec = 1 then .inf false else if x.spec = 2 then .inf true else .nan

/-- SPEC of a sum (Table 4-4, long). -/
def specAdd (a b : Nat) : Nat :=
  if a = 0 then b else if b = 0 then a else if a = b then a else 3

/-- Sum of two long elements, clamped to the range of R119; the flag says that the sum left the range. -/
def LongEl.add (a b : LongEl) : LongEl × Bool :=
  let s := a.v + b.v
  let hi : Int := (2 ^ 637 : Nat) - 1
  let lo : Int := -((2 ^ 637 : Nat) : Int)
  (⟨max lo (min hi s), specAdd a.spec b.spec⟩, decide (hi < s ∨ s < lo))

/-- A value as a long element: exact for every product of R119's range. -/
def LongEl.ofFV : FV → LongEl
  | .nan => ⟨0, 3⟩
  | .inf neg => ⟨0, if neg then 2 else 1⟩
  | .fin neg m e =>
    let k := e + 316
    let a : Int := if 0 ≤ k then m * pow2 k else (m / pow2 (-k) : Nat)
    ⟨if neg then -a else a, 0⟩

/-- An integer as a long element. -/
def LongEl.ofInt (x : Int) : LongEl := ⟨x * (2 ^ 316 : Nat), 0⟩

end Sys2Proof.Machine
end

