-- ==== Sys2Proof/Config.lean ====
section
/-! DEFINITION. What an implementation fixes and the free values: constants with no body, so that no proof can see what
they are. `freeByte` supplies each byte whose value the manual leaves open, applied to a counter of the state (log entry
7); `pick` supplies each choice the manual leaves open, applied to the same counter (log entry 14, DESIGN CHOICE). The cryptographic
functions and the PUF are named by the manual and defined elsewhere (log entry 8, DESIGN CHOICE). -/

namespace Sys2Proof.Config

/-- The n-th byte whose value the manual does not fix (R5, R118, R190). -/
opaque freeByte : Nat → Byte

/-- The n-th choice among `k` that the manual does not fix (R331). -/
opaque pick : Nat → Nat → Nat

/-- Offset of a die's copy of device time, of which the manual fixes only that two dies differ by at most 2 ns (R35). -/
opaque dieSkew : Nat → Nat

/-- Lag of the sample through which a die's blocks read its copy, of which the manual gives only a bound (R35). -/
opaque sampleLag : Nat → Nat

/-- Does a value that overflows a format, formed from these operands, become the largest finite value: format code, operand bits, for
conversions and products whose overflow the manual leaves open (R154, R176). -/
opaque overflowMax : Nat → Nat → Nat → Bool

/-- SHAKE256 with an output length in bytes (R472). -/
opaque shake256 : List Byte → Nat → List Byte

/-- KMAC256 of a key, a message and an output length (R495). -/
opaque kmac256 : List Byte → List Byte → Nat → List Byte

/-- Falcon-1024 verification: public key, message, signature (R475, R498). -/
opaque falconVerify : List Byte → List Byte → List Byte → Bool

/-- Falcon-1024 signature by the key derived from a seed (R499). -/
opaque falconSign : List Byte → List Byte → List Byte

/-- The root seed that the PUF array and helper data give, if they give one (R494). -/
opaque pufSeed : List Byte → Option (List Byte)

/-- The Falcon-1024 public key that a 32-byte key seed generates (R492). -/
opaque falconKey : List Byte → List Byte

/-- The key digest held in the ROM (R475). -/
opaque romKey : List Byte

/-- Helper data that an enrolment writes (R496). -/
opaque pufEnrol : Nat → List Byte

end Sys2Proof.Config
end

