-- ==== Sys2Proof/Machine/RegMap.lean ====
section
/-! DEFINITION. The register map (R542, Tables 18-1 and 18-2): where every register lies in the management window, its
access code (R11), its writable bits (R13) and its Reset value (R14), as the chapters' register tables give them. -/

namespace Sys2Proof.Machine

/-- Base of bay Bn (Table 18-1). -/
def bayBase (b : Nat) : Nat := 0x01000000 + 0x100000 * b
/-- Base of pane instance i = bay * 9 + local index (Table 18-2). -/
def paneBase (i : Nat) : Nat := bayBase (i / 9) + 0x10000 + 0x10000 * (i % 9)
/-- Base of window die Wk. -/
def winBase (k : Nat) : Nat := 0x00800000 + 0x1000 * k
/-- Base of Follux die Ff. -/
def flxBase (f : Nat) : Nat := 0x00900000 + 0x1000 * f

/-- Access codes of Table 0-5. -/
inductive Acc where | ro | rw | w1c | wo | rws
deriving DecidableEq, Repr

/-- One register of a block: offset, access code, writable bits, reset value. -/
structure RegRow where
  off : Nat
  acc : Acc
  mask : Nat
  reset : Nat
deriving DecidableEq, Repr

namespace Reg

def BAY_QTBASE_LO (b : Nat) : Nat := bayBase b + 0x0
def BAY_QTBASE_HI (b : Nat) : Nat := bayBase b + 0x4
def BAY_CTXBASE_LO (b : Nat) : Nat := bayBase b + 0x8
def BAY_CTXBASE_HI (b : Nat) : Nat := bayBase b + 0xC
def BAY_DOORBELL (b : Nat) : Nat := bayBase b + 0x10
def BAY_DBSTAT (b : Nat) : Nat := bayBase b + 0x14
def BAY_QERR (b : Nat) : Nat := bayBase b + 0x18
def BAY_BSHARE (b : Nat) : Nat := bayBase b + 0x20
def BAY_SLOTSEL (b : Nat) : Nat := bayBase b + 0x30
def BAY_SLOTDATA (b : Nat) : Nat := bayBase b + 0x34
def BAY_VIOL (b : Nat) : Nat := bayBase b + 0x40
def PANE_STATE (i : Nat) : Nat := paneBase i + 0x0
def PANE_PC_LO (i : Nat) : Nat := paneBase i + 0x4
def PANE_PC_HI (i : Nat) : Nat := paneBase i + 0x8
def PANE_CLAIM (i : Nat) : Nat := paneBase i + 0xC
def PANE_FAULT (i : Nat) : Nat := paneBase i + 0x10
def PANE_FTAG (i : Nat) : Nat := paneBase i + 0x14
def PANE_MODE (i : Nat) : Nat := paneBase i + 0x18
def PANE_SLOTSEL (i : Nat) : Nat := paneBase i + 0x1C
def PANE_SLOTDATA (i : Nat) : Nat := paneBase i + 0x20
def PANE_CMDCOUNT (i : Nat) : Nat := paneBase i + 0x24
def PANE_ARRSTAT (i : Nat) : Nat := paneBase i + 0x100
def PANE_ARRCYC_LO (i : Nat) : Nat := paneBase i + 0x104
def PANE_ARRCYC_HI (i : Nat) : Nat := paneBase i + 0x108
def PANE_SPSKIP (i : Nat) : Nat := paneBase i + 0x10C
def PANE_PREDSKIP (i : Nat) : Nat := paneBase i + 0x110
def PANE_PREDMISS (i : Nat) : Nat := paneBase i + 0x114
def PANE_PREDMKUP (i : Nat) : Nat := paneBase i + 0x118
def PANE_CVTSAT (i : Nat) : Nat := paneBase i + 0x11C
def PANE_CVTNAN (i : Nat) : Nat := paneBase i + 0x120
def PANE_METAFAULT (i : Nat) : Nat := paneBase i + 0x124
def PANE_TFSEL (i : Nat) : Nat := paneBase i + 0x200
def PANE_TFLAG (i : Nat) : Nat := paneBase i + 0x204
def PANE_SATMASK0 (i : Nat) : Nat := paneBase i + 0x210
def PANE_SATMASK1 (i : Nat) : Nat := paneBase i + 0x214
def PANE_SATMASK2 (i : Nat) : Nat := paneBase i + 0x218
def PANE_SATMASK3 (i : Nat) : Nat := paneBase i + 0x21C
def PANE_CANCMASK0 (i : Nat) : Nat := paneBase i + 0x220
def PANE_CANCMASK1 (i : Nat) : Nat := paneBase i + 0x224
def PANE_CANCMASK2 (i : Nat) : Nat := paneBase i + 0x228
def PANE_CANCMASK3 (i : Nat) : Nat := paneBase i + 0x22C
def PANE_CHSTEPS (i : Nat) : Nat := paneBase i + 0x230
def PANE_CHCANC (i : Nat) : Nat := paneBase i + 0x234
def PANE_CHSAT (i : Nat) : Nat := paneBase i + 0x238
def PANE_ACCFAULT (i : Nat) : Nat := paneBase i + 0x23C
def NGE_STAT (i : Nat) : Nat := paneBase i + 0x2000
def NGE_READS_LO (i : Nat) : Nat := paneBase i + 0x2004
def NGE_READS_HI (i : Nat) : Nat := paneBase i + 0x2008
def NGE_FHIT (i : Nat) : Nat := paneBase i + 0x200C
def NGE_VDONE (i : Nat) : Nat := paneBase i + 0x2010
def NGE_HUBS (i : Nat) : Nat := paneBase i + 0x2014
def NGE_SEGS (i : Nat) : Nat := paneBase i + 0x2018
def NGE_CANC (i : Nat) : Nat := paneBase i + 0x201C
def NGE_SAT (i : Nat) : Nat := paneBase i + 0x2020
def NGE_OUTHW (i : Nat) : Nat := paneBase i + 0x2024
def NGE_FAULT (i : Nat) : Nat := paneBase i + 0x2028
def NGE_FVTX_LO (i : Nat) : Nat := paneBase i + 0x202C
def NGE_FVTX_HI (i : Nat) : Nat := paneBase i + 0x2030
def VEC_STAT (i : Nat) : Nat := paneBase i + 0x1000
def VEC_ELEM_LO (i : Nat) : Nat := paneBase i + 0x1004
def VEC_ELEM_HI (i : Nat) : Nat := paneBase i + 0x1008
def VEC_SAT (i : Nat) : Nat := paneBase i + 0x100C
def VEC_CANC (i : Nat) : Nat := paneBase i + 0x1010
def VEC_MSUP (i : Nat) : Nat := paneBase i + 0x1014
def VEC_TABREC_LO (i : Nat) : Nat := paneBase i + 0x1018
def VEC_TABREC_HI (i : Nat) : Nat := paneBase i + 0x101C
def VEC_TABOOR (i : Nat) : Nat := paneBase i + 0x1020
def VEC_FAULT (i : Nat) : Nat := paneBase i + 0x1024
def VEC_FPOS (i : Nat) : Nat := paneBase i + 0x1028
def TE_TDBASE_LO (b : Nat) : Nat := bayBase b + 0x1000
def TE_TDBASE_HI (b : Nat) : Nat := bayBase b + 0x1004
def TE_STAT (b : Nat) : Nat := bayBase b + 0x1008
def TE_LOOKUP (b : Nat) : Nat := bayBase b + 0x100C
def TE_DEDUP (b : Nat) : Nat := bayBase b + 0x1010
def TE_HOTHIT (b : Nat) : Nat := bayBase b + 0x1014
def TE_DEFAULT (b : Nat) : Nat := bayBase b + 0x1018
def TE_REMOTE (b : Nat) : Nat := bayBase b + 0x101C
def TE_PFDROP (b : Nat) : Nat := bayBase b + 0x1020
def TE_STALE (b : Nat) : Nat := bayBase b + 0x1024
def TE_STGOVF (b : Nat) : Nat := bayBase b + 0x1028
def TE_CONTRIB (b : Nat) : Nat := bayBase b + 0x102C
def TE_APPLIED (b : Nat) : Nat := bayBase b + 0x1030
def TE_FWD (b : Nat) : Nat := bayBase b + 0x1034
def TE_MIGR (b : Nat) : Nat := bayBase b + 0x1038
def TE_MIGFAIL (b : Nat) : Nat := bayBase b + 0x103C
def TE_OLDVER (b : Nat) : Nat := bayBase b + 0x1040
def TE_NONFIN (b : Nat) : Nat := bayBase b + 0x1044
def TE_CANC (b : Nat) : Nat := bayBase b + 0x1048
def TE_SAT (b : Nat) : Nat := bayBase b + 0x104C
def TE_HOTOVF (b : Nat) : Nat := bayBase b + 0x1050
def TE_HOTLINES (b : Nat) : Nat := bayBase b + 0x1054
def TE_FAULT (b : Nat) : Nat := bayBase b + 0x1058
def TE_FROW_LO (b : Nat) : Nat := bayBase b + 0x105C
def TE_FROW_HI (b : Nat) : Nat := bayBase b + 0x1060
def TE_CTRCLR (b : Nat) : Nat := bayBase b + 0x1064
def SE_STAT (i : Nat) : Nat := paneBase i + 0x3000
def SE_BYTES_LO (i : Nat) : Nat := paneBase i + 0x3004
def SE_BYTES_HI (i : Nat) : Nat := paneBase i + 0x3008
def SE_BLOCKS (i : Nat) : Nat := paneBase i + 0x300C
def SE_DESC (i : Nat) : Nat := paneBase i + 0x3010
def SE_MERGE (i : Nat) : Nat := paneBase i + 0x3014
def SE_PFDROP (i : Nat) : Nat := paneBase i + 0x3018
def SE_SLIP (i : Nat) : Nat := paneBase i + 0x301C
def SE_SLIPMAX (i : Nat) : Nat := paneBase i + 0x3020
def SE_DISCARD (i : Nat) : Nat := paneBase i + 0x3024
def SE_FAULT (i : Nat) : Nat := paneBase i + 0x3028
def SE_FADDR_LO (i : Nat) : Nat := paneBase i + 0x302C
def SE_FADDR_HI (i : Nat) : Nat := paneBase i + 0x3030
def SE_STRSEL (i : Nat) : Nat := paneBase i + 0x3034
def SE_STRDATA (i : Nat) : Nat := paneBase i + 0x3038
def MEM_GEOM (b : Nat) : Nat := bayBase b + 0x3000
def MEM_STAT (b : Nat) : Nat := bayBase b + 0x3004
def MEM_CTRL (b : Nat) : Nat := bayBase b + 0x3008
def MEM_TEMP (b : Nat) : Nat := bayBase b + 0x300C
def MEM_CECNT (b : Nat) : Nat := bayBase b + 0x3010
def MEM_UECNT (b : Nat) : Nat := bayBase b + 0x3014
def MEM_UEADDR_LO (b : Nat) : Nat := bayBase b + 0x3018
def MEM_UEADDR_HI (b : Nat) : Nat := bayBase b + 0x301C
def MEM_RQBASE_LO (b : Nat) : Nat := bayBase b + 0x3020
def MEM_RQBASE_HI (b : Nat) : Nat := bayBase b + 0x3024
def MEM_RQHEAD (b : Nat) : Nat := bayBase b + 0x3028
def MEM_RQTAIL (b : Nat) : Nat := bayBase b + 0x302C
def MEM_RACK (b : Nat) : Nat := bayBase b + 0x3030
def MEM_RETCNT (b : Nat) : Nat := bayBase b + 0x3034
def MEM_RMAPSEL (b : Nat) : Nat := bayBase b + 0x3038
def MEM_RMAPDATA (b : Nat) : Nat := bayBase b + 0x303C
def MEM_SHUTCNT (b : Nat) : Nat := bayBase b + 0x3040
def MEM_SHUTMAX (b : Nat) : Nat := bayBase b + 0x3044
def MEM_SVC (b : Nat) : Nat := bayBase b + 0x3048
def MEM_EVAC (b : Nat) : Nat := bayBase b + 0x304C
def XLT_STAT (b : Nat) : Nat := bayBase b + 0x4000
def XLT_OTBASE_LO (b : Nat) : Nat := bayBase b + 0x4004
def XLT_OTBASE_HI (b : Nat) : Nat := bayBase b + 0x4008
def XLT_OTCTRL (b : Nat) : Nat := bayBase b + 0x400C
def XLT_HIT (b : Nat) : Nat := bayBase b + 0x4010
def XLT_MISS (b : Nat) : Nat := bayBase b + 0x4014
def XLT_RWALK (b : Nat) : Nat := bayBase b + 0x4018
def XLT_INVAL (b : Nat) : Nat := bayBase b + 0x401C
def XLT_CTXFAIL (b : Nat) : Nat := bayBase b + 0x4020
def XLT_FLUSH (b : Nat) : Nat := bayBase b + 0x4024
def XLT_OTLIMIT (b : Nat) : Nat := bayBase b + 0x4028
def XLT_FQSTAT : Nat := 0x2000
def XLT_FQBASE_LO : Nat := 0x2004
def XLT_FQBASE_HI : Nat := 0x2008
def XLT_FNBASE_LO : Nat := 0x200C
def XLT_FNBASE_HI : Nat := 0x2010
def XLT_FNHEAD : Nat := 0x2014
def XLT_FNTAIL : Nat := 0x2018
def XLT_FRESOLVE : Nat := 0x201C
def XLT_MPBASE_LO : Nat := 0x2020
def XLT_MPBASE_HI : Nat := 0x2024
def XLT_MPHEAD : Nat := 0x2028
def XLT_MPTAIL : Nat := 0x202C
def XLT_FQSTALL : Nat := 0x2030
def XLT_REFAULT : Nat := 0x2034
def XLT_STALERES : Nat := 0x2038
def XLT_MIGCNT : Nat := 0x203C
def XLT_FQHW : Nat := 0x2040
def DSP_STAT (b : Nat) : Nat := bayBase b + 0x5000
def DSP_DCBASE_LO (b : Nat) : Nat := bayBase b + 0x5004
def DSP_DCBASE_HI (b : Nat) : Nat := bayBase b + 0x5008
def DSP_DCLIMIT (b : Nat) : Nat := bayBase b + 0x500C
def DSP_SLICE (b : Nat) : Nat := bayBase b + 0x5010
def DSP_BLOCKSW (b : Nat) : Nat := bayBase b + 0x5014
def DSP_TFBASE_LO (b : Nat) : Nat := bayBase b + 0x5018
def DSP_TFBASE_HI (b : Nat) : Nat := bayBase b + 0x501C
def DSP_TFHEAD (b : Nat) : Nat := bayBase b + 0x5020
def DSP_TFTAIL (b : Nat) : Nat := bayBase b + 0x5024
def DSP_CTXRESET (b : Nat) : Nat := bayBase b + 0x5028
def DSP_LEVEL0 (b : Nat) : Nat := bayBase b + 0x502C
def DSP_LEVEL1 (b : Nat) : Nat := bayBase b + 0x5030
def DSP_LEVEL2 (b : Nat) : Nat := bayBase b + 0x5034
def DSP_LEVEL3 (b : Nat) : Nat := bayBase b + 0x5038
def DSP_PREEMPT (b : Nat) : Nat := bayBase b + 0x503C
def DSP_INTRPT (b : Nat) : Nat := bayBase b + 0x5040
def DSP_SLICED (b : Nat) : Nat := bayBase b + 0x5044
def DSP_TASKS (b : Nat) : Nat := bayBase b + 0x5048
def SYN_SEL (b : Nat) : Nat := bayBase b + 0x6000
def SYN_CTRL (b : Nat) : Nat := bayBase b + 0x6004
def SYN_INIT_LO (b : Nat) : Nat := bayBase b + 0x6008
def SYN_INIT_HI (b : Nat) : Nat := bayBase b + 0x600C
def SYN_OWNERW (b : Nat) : Nat := bayBase b + 0x6010
def SYN_STAT (b : Nat) : Nat := bayBase b + 0x6014
def SYN_VAL_LO (b : Nat) : Nat := bayBase b + 0x6018
def SYN_VAL_HI (b : Nat) : Nat := bayBase b + 0x601C
def SYN_LSIG (b : Nat) : Nat := bayBase b + 0x6020
def SYN_LSIGCTX (b : Nat) : Nat := bayBase b + 0x6024
def SYN_LSIGT_LO (b : Nat) : Nat := bayBase b + 0x6028
def SYN_LSIGT_HI (b : Nat) : Nat := bayBase b + 0x602C
def SYN_WCOUNT (b : Nat) : Nat := bayBase b + 0x6030
def SYN_WSEL (b : Nat) : Nat := bayBase b + 0x6034
def SYN_WDATA0 (b : Nat) : Nat := bayBase b + 0x6038
def SYN_WDATA1 (b : Nat) : Nat := bayBase b + 0x603C
def SYN_POOL (b : Nat) : Nat := bayBase b + 0x6040
def SYN_WSTALL (b : Nat) : Nat := bayBase b + 0x6044
def SYN_REFUSED (b : Nat) : Nat := bayBase b + 0x6048
def WIN_STAT (k : Nat) : Nat := winBase k + 0x0
def WIN_REPLAYTMO (k : Nat) : Nat := winBase k + 0x4
def WIN_TEMP (k : Nat) : Nat := winBase k + 0x8
def WIN_PSTAT (p : Nat) : Nat := winBase (p / 4) + 0x40 * (p % 4) + 0x100
def WIN_PPEER (p : Nat) : Nat := winBase (p / 4) + 0x40 * (p % 4) + 0x104
def WIN_PLANES (p : Nat) : Nat := winBase (p / 4) + 0x40 * (p % 4) + 0x108
def WIN_PSPARE (p : Nat) : Nat := winBase (p / 4) + 0x40 * (p % 4) + 0x10C
def WIN_PCTRL (p : Nat) : Nat := winBase (p / 4) + 0x40 * (p % 4) + 0x110
def WIN_PCWCORR (p : Nat) : Nat := winBase (p / 4) + 0x40 * (p % 4) + 0x114
def WIN_PCWUNC (p : Nat) : Nat := winBase (p / 4) + 0x40 * (p % 4) + 0x118
def WIN_PREPLAY (p : Nat) : Nat := winBase (p / 4) + 0x40 * (p % 4) + 0x11C
def WIN_PSWAP (p : Nat) : Nat := winBase (p / 4) + 0x40 * (p % 4) + 0x120
def WIN_PSHUT (p : Nat) : Nat := winBase (p / 4) + 0x40 * (p % 4) + 0x124
def WIN_PTXFLIT (p : Nat) : Nat := winBase (p / 4) + 0x40 * (p % 4) + 0x128
def WIN_PRXFLIT (p : Nat) : Nat := winBase (p / 4) + 0x40 * (p % 4) + 0x12C
def WIN_PLANEERR (p : Nat) : Nat := winBase (p / 4) + 0x40 * (p % 4) + 0x130
def XE_STAT (b : Nat) : Nat := bayBase b + 0x2000
def XE_RTBASE_LO (b : Nat) : Nat := bayBase b + 0x2004
def XE_RTBASE_HI (b : Nat) : Nat := bayBase b + 0x2008
def XE_RTFLUSH (b : Nat) : Nat := bayBase b + 0x200C
def XE_RTMO (b : Nat) : Nat := bayBase b + 0x2010
def XE_TXMSG (b : Nat) : Nat := bayBase b + 0x2014
def XE_RXMSG (b : Nat) : Nat := bayBase b + 0x2018
def XE_FWD (b : Nat) : Nat := bayBase b + 0x201C
def XE_TIMEOUT (b : Nat) : Nat := bayBase b + 0x2020
def XE_LATE (b : Nat) : Nat := bayBase b + 0x2024
def XE_NOROUTE (b : Nat) : Nat := bayBase b + 0x2028
def XE_FAILOVER (b : Nat) : Nat := bayBase b + 0x202C
def XE_LOST (b : Nat) : Nat := bayBase b + 0x2030
def FLX_PSTAT (f : Nat) : Nat := flxBase f + 0x0
def FLX_PPEER (f : Nat) : Nat := flxBase f + 0x4
def FLX_PLANES (f : Nat) : Nat := flxBase f + 0x8
def FLX_PSPARE (f : Nat) : Nat := flxBase f + 0xC
def FLX_PCTRL (f : Nat) : Nat := flxBase f + 0x10
def FLX_PCWCORR (f : Nat) : Nat := flxBase f + 0x14
def FLX_PCWUNC (f : Nat) : Nat := flxBase f + 0x18
def FLX_PREPLAY (f : Nat) : Nat := flxBase f + 0x1C
def FLX_PSWAP (f : Nat) : Nat := flxBase f + 0x20
def FLX_PSHUT (f : Nat) : Nat := flxBase f + 0x24
def FLX_EARLY (f : Nat) : Nat := flxBase f + 0x28
def FLX_LINK : Nat := 0x3000
def FLX_HTMO : Nat := 0x3004
def FLX_SNP : Nat := 0x3008
def FLX_LOSTLN : Nat := 0x300C
def FLX_LATE : Nat := 0x3010
def FLX_MSISENT : Nat := 0x3014
def FLX_MSIADDR_LO (v : Nat) : Nat := 0x4000 + 16 * v
def FLX_MSIADDR_HI (v : Nat) : Nat := 0x4004 + 16 * v
def FLX_MSIDATA (v : Nat) : Nat := 0x4008 + 16 * v
def FLX_MSICTL (v : Nat) : Nat := 0x400C + 16 * v
def CVU_STAT (b : Nat) : Nat := bayBase b + 0x7000
def CVU_JOBS (b : Nat) : Nat := bayBase b + 0x7004
def CVU_BYTES_LO (b : Nat) : Nat := bayBase b + 0x7008
def CVU_BYTES_HI (b : Nat) : Nat := bayBase b + 0x700C
def CVU_MISMATCH (b : Nat) : Nat := bayBase b + 0x7010
def CVU_RESTART (b : Nat) : Nat := bayBase b + 0x7014
def CVU_FAULT (b : Nat) : Nat := bayBase b + 0x7018
def CTL_BOOTSTAT : Nat := 0x200
def CTL_BOOTERR : Nat := 0x204
def CTL_IMGVER : Nat := 0x208
def CTL_READYT_LO : Nat := 0x20C
def CTL_READYT_HI : Nat := 0x210
def CTL_RESTART : Nat := 0x214
def CTL_COMMIT : Nat := 0x218
def CTL_COMMITST : Nat := 0x21C
def CTL_COMMITERR : Nat := 0x220
def SEC_STAT : Nat := 0x5000
def SEC_DEVID0 : Nat := 0x5004
def SEC_DEVID1 : Nat := 0x5008
def SEC_DEVID2 : Nat := 0x500C
def SEC_DEVID3 : Nat := 0x5010
def SEC_FLOOR : Nat := 0x5014
def SEC_NONCE_LO : Nat := 0x5018
def SEC_NONCE_HI : Nat := 0x501C
def SEC_CMD : Nat := 0x5020
def SEC_ARGADDR_LO : Nat := 0x5024
def SEC_ARGADDR_HI : Nat := 0x5028
def SEC_TOKDATA : Nat := 0x502C
def SEC_RESULT : Nat := 0x5030
def SEC_SVCEND_LO : Nat := 0x5034
def SEC_SVCEND_HI : Nat := 0x5038
def SEC_FPADDR : Nat := 0x5040
def SEC_FPDATA : Nat := 0x5044
def SEC_FPCMD : Nat := 0x5048
def SEC_FPSTAT : Nat := 0x504C
def DBG_STAT : Nat := 0x6000
def DBG_REQ : Nat := 0x6004
def DBG_TRCCTL : Nat := 0x6008
def DBG_HALT : Nat := 0x600C
def DBG_HALTED0 : Nat := 0x6010
def DBG_HALTED1 : Nat := 0x6014
def DBG_HALTED2 : Nat := 0x6018
def DBG_HALTED3 : Nat := 0x601C
def DBG_MADDR_LO : Nat := 0x6020
def DBG_MADDR_HI : Nat := 0x6024
def DBG_MDATA : Nat := 0x6028
def DBG_FADDR : Nat := 0x602C
def DBG_FDATA : Nat := 0x6030
def DBG_TRCSEL : Nat := 0x6034
def DBG_TRCDATA : Nat := 0x6038
def PWR_STAT : Nat := 0x7000
def PWR_REQ : Nat := 0x7004
def PWR_P1CLK : Nat := 0x7008
def PWR_TJ0 : Nat := 0x700C
def PWR_TJ1 : Nat := 0x7010
def PWR_TJ2 : Nat := 0x7014
def PWR_TJ3 : Nat := 0x7018
def LOG_STAT : Nat := 0x8000
def LOG_SEQ : Nat := 0x8004
def LOG_CTRL : Nat := 0x8008
def LOG_SEL : Nat := 0x800C
def LOG_DATA : Nat := 0x8010
def LOG_DOMSEL : Nat := 0x8014
def LOG_DOMSTAT : Nat := 0x8018
def LOG_ESCAL : Nat := 0x801C
def CTL_UPDADDR_LO : Nat := 0x300
def CTL_UPDADDR_HI : Nat := 0x304
def CTL_UPDCMD : Nat := 0x308
def CTL_UPDSTAT : Nat := 0x30C
def CTL_PANESVC : Nat := 0x310
def CTL_PARTID : Nat := 0x0
def CTL_CHIPID : Nat := 0x4
def CTL_CAPS : Nat := 0x8
def CTL_DEVSTAT : Nat := 0xC
def CTL_TIME_LO : Nat := 0x10
def CTL_TIME_HI : Nat := 0x14
def CTL_IRQPEND0 : Nat := 0x18
def CTL_IRQPEND1 : Nat := 0x1C
def CTL_IRQMASK0 : Nat := 0x20
def CTL_IRQMASK1 : Nat := 0x24
def CTL_IRQTEST : Nat := 0x28
def CTL_ACCERR : Nat := 0x2C
def CTL_ACCADDR : Nat := 0x30
def CTL_ACCCNT : Nat := 0x34
def CTL_COMMITSEQ : Nat := 0x38
def SUP_STAT : Nat := 0x1000
def SUP_VIN : Nat := 0x1004
def SUP_PIN : Nat := 0x1008
def SUP_VAUX : Nat := 0x100C
def SUP_TEMP : Nat := 0x1010
def SUP_STRAP : Nat := 0x1014
def SUP_EVENTS : Nat := 0x1018

end Reg

/-- Registers of one bay block. -/
def bayRows : List RegRow := [
  ⟨0x0, .rw, 0xFFFFF000, 0x0⟩, ⟨0x4, .rw, 0xFFFFFFFF, 0x0⟩, ⟨0x8, .rw, 0xFFFFF000, 0x0⟩, ⟨0xC, .rw, 0xFFFFFFFF, 0x0⟩,
  ⟨0x10, .wo, 0x0, 0x0⟩, ⟨0x14, .ro, 0x0, 0x0⟩, ⟨0x18, .w1c, 0x0, 0x0⟩, ⟨0x20, .rws, 0x3F3F3F, 0x101020⟩,
  ⟨0x30, .rw, 0x1FFF01FF, 0x0⟩, ⟨0x34, .rws, 0xFFFF, 0x0⟩, ⟨0x40, .ro, 0x0, 0x0⟩]

/-- Registers of one pane block. -/
def paneRows : List RegRow := [
  ⟨0x0, .ro, 0x0, 0x0⟩, ⟨0x4, .ro, 0x0, 0x0⟩, ⟨0x8, .ro, 0x0, 0x0⟩, ⟨0xC, .ro, 0x0, 0x0⟩,
  ⟨0x10, .ro, 0x0, 0x0⟩, ⟨0x14, .ro, 0x0, 0x0⟩, ⟨0x18, .rws, 0x3, 0x1⟩, ⟨0x1C, .rw, 0xFF3F, 0x0⟩,
  ⟨0x20, .ro, 0x0, 0x0⟩, ⟨0x24, .ro, 0x0, 0x0⟩, ⟨0x100, .ro, 0x0, 0x0⟩, ⟨0x104, .ro, 0x0, 0x0⟩,
  ⟨0x108, .ro, 0x0, 0x0⟩, ⟨0x10C, .ro, 0x0, 0x0⟩, ⟨0x110, .ro, 0x0, 0x0⟩, ⟨0x114, .ro, 0x0, 0x0⟩,
  ⟨0x118, .ro, 0x0, 0x0⟩, ⟨0x11C, .ro, 0x0, 0x0⟩, ⟨0x120, .ro, 0x0, 0x0⟩, ⟨0x124, .ro, 0x0, 0x0⟩,
  ⟨0x200, .rw, 0x7F, 0x0⟩, ⟨0x204, .ro, 0x0, 0x0⟩, ⟨0x210, .ro, 0x0, 0x0⟩, ⟨0x214, .ro, 0x0, 0x0⟩,
  ⟨0x218, .ro, 0x0, 0x0⟩, ⟨0x21C, .ro, 0x0, 0x0⟩, ⟨0x220, .ro, 0x0, 0x0⟩, ⟨0x224, .ro, 0x0, 0x0⟩,
  ⟨0x228, .ro, 0x0, 0x0⟩, ⟨0x22C, .ro, 0x0, 0x0⟩, ⟨0x230, .ro, 0x0, 0x0⟩, ⟨0x234, .ro, 0x0, 0x0⟩,
  ⟨0x238, .ro, 0x0, 0x0⟩, ⟨0x23C, .ro, 0x0, 0x0⟩]

/-- Registers of one nge block. -/
def ngeRows : List RegRow := [
  ⟨0x0, .ro, 0x0, 0x0⟩, ⟨0x4, .ro, 0x0, 0x0⟩, ⟨0x8, .ro, 0x0, 0x0⟩, ⟨0xC, .ro, 0x0, 0x0⟩,
  ⟨0x10, .ro, 0x0, 0x0⟩, ⟨0x14, .ro, 0x0, 0x0⟩, ⟨0x18, .ro, 0x0, 0x0⟩, ⟨0x1C, .ro, 0x0, 0x0⟩,
  ⟨0x20, .ro, 0x0, 0x0⟩, ⟨0x24, .ro, 0x0, 0x0⟩, ⟨0x28, .ro, 0x0, 0x0⟩, ⟨0x2C, .ro, 0x0, 0x0⟩,
  ⟨0x30, .ro, 0x0, 0x0⟩]

/-- Registers of one vec block. -/
def vecRows : List RegRow := [
  ⟨0x0, .ro, 0x0, 0x0⟩, ⟨0x4, .ro, 0x0, 0x0⟩, ⟨0x8, .ro, 0x0, 0x0⟩, ⟨0xC, .ro, 0x0, 0x0⟩,
  ⟨0x10, .ro, 0x0, 0x0⟩, ⟨0x14, .ro, 0x0, 0x0⟩, ⟨0x18, .ro, 0x0, 0x0⟩, ⟨0x1C, .ro, 0x0, 0x0⟩,
  ⟨0x20, .ro, 0x0, 0x0⟩, ⟨0x24, .ro, 0x0, 0x0⟩, ⟨0x28, .ro, 0x0, 0x0⟩]

/-- Registers of one te block. -/
def teRows : List RegRow := [
  ⟨0x0, .rw, 0xFFFFF000, 0x0⟩, ⟨0x4, .rw, 0xFFFFFFFF, 0x0⟩, ⟨0x8, .ro, 0x0, 0x0⟩, ⟨0xC, .ro, 0x0, 0x0⟩,
  ⟨0x10, .ro, 0x0, 0x0⟩, ⟨0x14, .ro, 0x0, 0x0⟩, ⟨0x18, .ro, 0x0, 0x0⟩, ⟨0x1C, .ro, 0x0, 0x0⟩,
  ⟨0x20, .ro, 0x0, 0x0⟩, ⟨0x24, .ro, 0x0, 0x0⟩, ⟨0x28, .ro, 0x0, 0x0⟩, ⟨0x2C, .ro, 0x0, 0x0⟩,
  ⟨0x30, .ro, 0x0, 0x0⟩, ⟨0x34, .ro, 0x0, 0x0⟩, ⟨0x38, .ro, 0x0, 0x0⟩, ⟨0x3C, .ro, 0x0, 0x0⟩,
  ⟨0x40, .ro, 0x0, 0x0⟩, ⟨0x44, .ro, 0x0, 0x0⟩, ⟨0x48, .ro, 0x0, 0x0⟩, ⟨0x4C, .ro, 0x0, 0x0⟩,
  ⟨0x50, .ro, 0x0, 0x0⟩, ⟨0x54, .ro, 0x0, 0x0⟩, ⟨0x58, .ro, 0x0, 0x0⟩, ⟨0x5C, .ro, 0x0, 0x0⟩,
  ⟨0x60, .ro, 0x0, 0x0⟩, ⟨0x64, .wo, 0x0, 0x0⟩]

/-- Registers of one se block. -/
def seRows : List RegRow := [
  ⟨0x0, .ro, 0x0, 0x0⟩, ⟨0x4, .ro, 0x0, 0x0⟩, ⟨0x8, .ro, 0x0, 0x0⟩, ⟨0xC, .ro, 0x0, 0x0⟩,
  ⟨0x10, .ro, 0x0, 0x0⟩, ⟨0x14, .ro, 0x0, 0x0⟩, ⟨0x18, .ro, 0x0, 0x0⟩, ⟨0x1C, .ro, 0x0, 0x0⟩,
  ⟨0x20, .ro, 0x0, 0x0⟩, ⟨0x24, .ro, 0x0, 0x0⟩, ⟨0x28, .ro, 0x0, 0x0⟩, ⟨0x2C, .ro, 0x0, 0x0⟩,
  ⟨0x30, .ro, 0x0, 0x0⟩, ⟨0x34, .rw, 0xFF, 0x0⟩, ⟨0x38, .ro, 0x0, 0x0⟩]

/-- Registers of one mem block. -/
def memRows : List RegRow := [
  ⟨0x0, .ro, 0x0, 0x2040430E⟩, ⟨0x4, .ro, 0x0, 0x0⟩, ⟨0x8, .rws, 0x3, 0x2⟩, ⟨0xC, .ro, 0x0, 0x0⟩,
  ⟨0x10, .ro, 0x0, 0x0⟩, ⟨0x14, .ro, 0x0, 0x0⟩, ⟨0x18, .ro, 0x0, 0x0⟩, ⟨0x1C, .ro, 0x0, 0x0⟩,
  ⟨0x20, .rw, 0xFFFFF000, 0x0⟩, ⟨0x24, .rw, 0xFFFFFFFF, 0x0⟩, ⟨0x28, .ro, 0x0, 0x0⟩, ⟨0x2C, .rw, 0xFF, 0x0⟩,
  ⟨0x30, .wo, 0x0, 0x0⟩, ⟨0x34, .ro, 0x0, 0x0⟩, ⟨0x38, .rw, 0x1F3F, 0x0⟩, ⟨0x3C, .ro, 0x0, 0x0⟩,
  ⟨0x40, .ro, 0x0, 0x0⟩, ⟨0x44, .ro, 0x0, 0x0⟩, ⟨0x48, .wo, 0x0, 0x0⟩, ⟨0x4C, .ro, 0x0, 0x0⟩]

/-- Registers of one xlt block. -/
def xltRows : List RegRow := [
  ⟨0x0, .ro, 0x0, 0x0⟩, ⟨0x4, .rw, 0xFFFFF000, 0x0⟩, ⟨0x8, .rw, 0xFFFFFFFF, 0x0⟩, ⟨0xC, .rws, 0x1, 0x0⟩,
  ⟨0x10, .ro, 0x0, 0x0⟩, ⟨0x14, .ro, 0x0, 0x0⟩, ⟨0x18, .ro, 0x0, 0x0⟩, ⟨0x1C, .ro, 0x0, 0x0⟩,
  ⟨0x20, .ro, 0x0, 0x0⟩, ⟨0x24, .wo, 0x0, 0x0⟩, ⟨0x28, .rws, 0xFFFFFFFF, 0x0⟩]

/-- Registers of one xltg block. -/
def xltgRows : List RegRow := [
  ⟨0x0, .ro, 0x0, 0x0⟩, ⟨0x4, .rw, 0xFFFFF000, 0x0⟩, ⟨0x8, .rw, 0xFFFFFFFF, 0x0⟩, ⟨0xC, .rw, 0xFFFFF000, 0x0⟩,
  ⟨0x10, .rw, 0xFFFFFFFF, 0x0⟩, ⟨0x14, .ro, 0x0, 0x0⟩, ⟨0x18, .rw, 0x1FF, 0x0⟩, ⟨0x1C, .wo, 0x0, 0x0⟩,
  ⟨0x20, .rw, 0xFFFFF000, 0x0⟩, ⟨0x24, .rw, 0xFFFFFFFF, 0x0⟩, ⟨0x28, .ro, 0x0, 0x0⟩, ⟨0x2C, .rw, 0x3FF, 0x0⟩,
  ⟨0x30, .ro, 0x0, 0x0⟩, ⟨0x34, .ro, 0x0, 0x0⟩, ⟨0x38, .ro, 0x0, 0x0⟩, ⟨0x3C, .ro, 0x0, 0x0⟩,
  ⟨0x40, .ro, 0x0, 0x0⟩]

/-- Registers of one dsp block. -/
def dspRows : List RegRow := [
  ⟨0x0, .ro, 0x0, 0x400⟩, ⟨0x4, .rw, 0xFFFFF000, 0x0⟩, ⟨0x8, .rw, 0xFFFFFFFF, 0x0⟩, ⟨0xC, .rw, 0xFFFFFF, 0x0⟩,
  ⟨0x10, .rws, 0xFFFFFF, 0x7D0⟩, ⟨0x14, .rws, 0xFFFF, 0x14⟩, ⟨0x18, .rw, 0xFFFFF000, 0x0⟩, ⟨0x1C, .rw, 0xFFFFFFFF, 0x0⟩,
  ⟨0x20, .ro, 0x0, 0x0⟩, ⟨0x24, .rw, 0xFF, 0x0⟩, ⟨0x28, .wo, 0x0, 0x0⟩, ⟨0x2C, .ro, 0x0, 0x0⟩,
  ⟨0x30, .ro, 0x0, 0x0⟩, ⟨0x34, .ro, 0x0, 0x0⟩, ⟨0x38, .ro, 0x0, 0x0⟩, ⟨0x3C, .ro, 0x0, 0x0⟩,
  ⟨0x40, .ro, 0x0, 0x0⟩, ⟨0x44, .ro, 0x0, 0x0⟩, ⟨0x48, .ro, 0x0, 0x0⟩]

/-- Registers of one syn block. -/
def synRows : List RegRow := [
  ⟨0x0, .rw, 0xFFF, 0x0⟩, ⟨0x4, .wo, 0x0, 0x0⟩, ⟨0x8, .rw, 0xFFFFFFFF, 0x0⟩, ⟨0xC, .rw, 0xFFFFFFFF, 0x0⟩,
  ⟨0x10, .rw, 0xFFFF, 0x0⟩, ⟨0x14, .ro, 0x0, 0x0⟩, ⟨0x18, .ro, 0x0, 0x0⟩, ⟨0x1C, .ro, 0x0, 0x0⟩,
  ⟨0x20, .ro, 0x0, 0x0⟩, ⟨0x24, .ro, 0x0, 0x0⟩, ⟨0x28, .ro, 0x0, 0x0⟩, ⟨0x2C, .ro, 0x0, 0x0⟩,
  ⟨0x30, .ro, 0x0, 0x0⟩, ⟨0x34, .rw, 0x3F, 0x0⟩, ⟨0x38, .ro, 0x0, 0x0⟩, ⟨0x3C, .ro, 0x0, 0x0⟩,
  ⟨0x40, .ro, 0x0, 0x0⟩, ⟨0x44, .ro, 0x0, 0x0⟩, ⟨0x48, .ro, 0x0, 0x0⟩]

/-- Registers of one win block. -/
def winRows : List RegRow := [
  ⟨0x0, .ro, 0x0, 0x0⟩, ⟨0x4, .rws, 0xFFFF, 0x5DC⟩, ⟨0x8, .ro, 0x0, 0x0⟩]

/-- Registers of one winport block. -/
def winportRows : List RegRow := [
  ⟨0x100, .ro, 0x0, 0x0⟩, ⟨0x104, .ro, 0x0, 0x0⟩, ⟨0x108, .ro, 0x0, 0x0⟩, ⟨0x10C, .ro, 0x0, 0x0⟩,
  ⟨0x110, .wo, 0x0, 0x0⟩, ⟨0x114, .ro, 0x0, 0x0⟩, ⟨0x118, .ro, 0x0, 0x0⟩, ⟨0x11C, .ro, 0x0, 0x0⟩,
  ⟨0x120, .ro, 0x0, 0x0⟩, ⟨0x124, .ro, 0x0, 0x0⟩, ⟨0x128, .ro, 0x0, 0x0⟩, ⟨0x12C, .ro, 0x0, 0x0⟩,
  ⟨0x130, .ro, 0x0, 0x0⟩]

/-- Registers of one xe block. -/
def xeRows : List RegRow := [
  ⟨0x0, .ro, 0x0, 0x0⟩, ⟨0x4, .rw, 0xFFFFF000, 0x0⟩, ⟨0x8, .rw, 0xFFFFFFFF, 0x0⟩, ⟨0xC, .wo, 0x0, 0x0⟩,
  ⟨0x10, .rws, 0xFFFF, 0x64⟩, ⟨0x14, .ro, 0x0, 0x0⟩, ⟨0x18, .ro, 0x0, 0x0⟩, ⟨0x1C, .ro, 0x0, 0x0⟩,
  ⟨0x20, .ro, 0x0, 0x0⟩, ⟨0x24, .ro, 0x0, 0x0⟩, ⟨0x28, .ro, 0x0, 0x0⟩, ⟨0x2C, .ro, 0x0, 0x0⟩,
  ⟨0x30, .ro, 0x0, 0x0⟩]

/-- Registers of one flx block. -/
def flxRows : List RegRow := [
  ⟨0x0, .ro, 0x0, 0x0⟩, ⟨0x4, .ro, 0x0, 0x0⟩, ⟨0x8, .ro, 0x0, 0x0⟩, ⟨0xC, .ro, 0x0, 0x0⟩,
  ⟨0x10, .wo, 0x0, 0x0⟩, ⟨0x14, .ro, 0x0, 0x0⟩, ⟨0x18, .ro, 0x0, 0x0⟩, ⟨0x1C, .ro, 0x0, 0x0⟩,
  ⟨0x20, .ro, 0x0, 0x0⟩, ⟨0x24, .ro, 0x0, 0x0⟩, ⟨0x28, .ro, 0x0, 0x0⟩]

/-- Registers of one flxg block. -/
def flxgRows : List RegRow := [
  ⟨0x0, .ro, 0x0, 0x0⟩, ⟨0x4, .rws, 0xFFFF, 0x64⟩, ⟨0x8, .ro, 0x0, 0x0⟩, ⟨0xC, .ro, 0x0, 0x0⟩,
  ⟨0x10, .ro, 0x0, 0x0⟩, ⟨0x14, .ro, 0x0, 0x0⟩]

/-- Registers of one flxvec block. -/
def flxvecRows : List RegRow := [
  ⟨0x1000, .rw, 0xFFFFFFFC, 0x0⟩, ⟨0x1004, .rw, 0xFFFFFFFF, 0x0⟩, ⟨0x1008, .rw, 0xFFFFFFFF, 0x0⟩, ⟨0x100C, .rw, 0x1, 0x1⟩]

/-- Registers of one cvu block. -/
def cvuRows : List RegRow := [
  ⟨0x0, .ro, 0x0, 0x0⟩, ⟨0x4, .ro, 0x0, 0x0⟩, ⟨0x8, .ro, 0x0, 0x0⟩, ⟨0xC, .ro, 0x0, 0x0⟩,
  ⟨0x10, .ro, 0x0, 0x0⟩, ⟨0x14, .ro, 0x0, 0x0⟩, ⟨0x18, .ro, 0x0, 0x0⟩]

/-- Registers of one ctl block. -/
def ctlRows : List RegRow := [
  ⟨0x200, .ro, 0x0, 0x0⟩, ⟨0x204, .ro, 0x0, 0x0⟩, ⟨0x208, .ro, 0x0, 0x0⟩, ⟨0x20C, .ro, 0x0, 0x0⟩,
  ⟨0x210, .ro, 0x0, 0x0⟩, ⟨0x214, .wo, 0x0, 0x0⟩, ⟨0x218, .wo, 0x0, 0x0⟩, ⟨0x21C, .ro, 0x0, 0x0⟩,
  ⟨0x220, .ro, 0x0, 0x0⟩, ⟨0x300, .rw, 0xFFFFF000, 0x0⟩, ⟨0x304, .rw, 0xFFFFF, 0x0⟩, ⟨0x308, .wo, 0x0, 0x0⟩,
  ⟨0x30C, .ro, 0x0, 0x0⟩, ⟨0x310, .wo, 0x0, 0x0⟩, ⟨0x0, .ro, 0x0, 0x101BF8⟩, ⟨0x4, .ro, 0x0, 0x0⟩,
  ⟨0x8, .ro, 0x0, 0x14101080⟩, ⟨0xC, .ro, 0x0, 0x8⟩, ⟨0x10, .ro, 0x0, 0x0⟩, ⟨0x14, .ro, 0x0, 0x0⟩,
  ⟨0x18, .ro, 0x0, 0x0⟩, ⟨0x1C, .ro, 0x0, 0x0⟩, ⟨0x20, .ro, 0x0, 0xFFFFFFFF⟩, ⟨0x24, .ro, 0x0, 0x7FFFF⟩,
  ⟨0x28, .wo, 0x0, 0x0⟩, ⟨0x2C, .ro, 0x0, 0x0⟩, ⟨0x30, .ro, 0x0, 0x0⟩, ⟨0x34, .ro, 0x0, 0x0⟩,
  ⟨0x38, .ro, 0x0, 0x0⟩]

/-- Registers of one sec block. -/
def secRows : List RegRow := [
  ⟨0x0, .ro, 0x0, 0x0⟩, ⟨0x4, .ro, 0x0, 0x0⟩, ⟨0x8, .ro, 0x0, 0x0⟩, ⟨0xC, .ro, 0x0, 0x0⟩,
  ⟨0x10, .ro, 0x0, 0x0⟩, ⟨0x14, .ro, 0x0, 0x0⟩, ⟨0x18, .ro, 0x0, 0x0⟩, ⟨0x1C, .ro, 0x0, 0x0⟩,
  ⟨0x20, .wo, 0x0, 0x0⟩, ⟨0x24, .rw, 0xFFFFFFC0, 0x0⟩, ⟨0x28, .rw, 0xFFFFF, 0x0⟩, ⟨0x2C, .wo, 0x0, 0x0⟩,
  ⟨0x30, .ro, 0x0, 0x0⟩, ⟨0x34, .ro, 0x0, 0x0⟩, ⟨0x38, .ro, 0x0, 0x0⟩, ⟨0x40, .rw, 0x7FFFFFF, 0x0⟩,
  ⟨0x44, .rw, 0xFFFFFFFF, 0x0⟩, ⟨0x48, .wo, 0x0, 0x0⟩, ⟨0x4C, .ro, 0x0, 0x0⟩]

/-- Registers of one dbg block. -/
def dbgRows : List RegRow := [
  ⟨0x0, .ro, 0x0, 0x0⟩, ⟨0x4, .wo, 0x0, 0x0⟩, ⟨0x8, .rws, 0x3, 0x2⟩, ⟨0xC, .wo, 0x0, 0x0⟩,
  ⟨0x10, .ro, 0x0, 0x0⟩, ⟨0x14, .ro, 0x0, 0x0⟩, ⟨0x18, .ro, 0x0, 0x0⟩, ⟨0x1C, .ro, 0x0, 0x0⟩,
  ⟨0x20, .rw, 0xFFFFFFFC, 0x0⟩, ⟨0x24, .rw, 0xFFFFF, 0x0⟩, ⟨0x28, .rw, 0xFFFFFFFF, 0x0⟩, ⟨0x2C, .rw, 0xFFFFFFFF, 0x0⟩,
  ⟨0x30, .wo, 0x0, 0x0⟩, ⟨0x34, .rw, 0xFFFF, 0x0⟩, ⟨0x38, .ro, 0x0, 0x0⟩]

/-- Registers of one pwr block. -/
def pwrRows : List RegRow := [
  ⟨0x0, .ro, 0x0, 0x4⟩, ⟨0x4, .wo, 0x0, 0x0⟩, ⟨0x8, .rws, 0x7, 0x2⟩, ⟨0xC, .ro, 0x0, 0x0⟩,
  ⟨0x10, .ro, 0x0, 0x0⟩, ⟨0x14, .ro, 0x0, 0x0⟩, ⟨0x18, .ro, 0x0, 0x0⟩]

/-- Registers of one log block. -/
def logRows : List RegRow := [
  ⟨0x0, .ro, 0x0, 0x0⟩, ⟨0x4, .ro, 0x0, 0x0⟩, ⟨0x8, .rws, 0xFF, 0xFE⟩, ⟨0xC, .rw, 0xFFFF, 0x0⟩,
  ⟨0x10, .ro, 0x0, 0x0⟩, ⟨0x14, .rw, 0xFF0F, 0x0⟩, ⟨0x18, .ro, 0x0, 0x0⟩, ⟨0x1C, .ro, 0x0, 0x0⟩]

/-- Registers of one sup block. -/
def supRows : List RegRow := [
  ⟨0x0, .ro, 0x0, 0x7⟩, ⟨0x4, .ro, 0x0, 0x0⟩, ⟨0x8, .ro, 0x0, 0x0⟩, ⟨0xC, .ro, 0x0, 0x0⟩,
  ⟨0x10, .ro, 0x0, 0x0⟩, ⟨0x14, .ro, 0x0, 0x0⟩, ⟨0x18, .w1c, 0x0, 0x0⟩]

/-- The block instance of a window address: its rows, its base and, for a repeated row, the row's own offset. -/
def regRows (a : Nat) : List RegRow × Nat :=
  let pg := a / 0x1000
  if a < 0x3000 then
    (if pg = 0 then ctlRows else if pg = 1 then supRows else xltgRows, a % 0x1000)
  else if a < 0x5000 then
    let o := a - 0x3000
    if o < 0x1000 then (flxgRows, o)
    else if o < 0x1000 + 16 * 51 then (flxvecRows, 0x1000 + o % 16) else ([], 0)
  else if a < 0x9000 then
    (if pg = 5 then secRows else if pg = 6 then dbgRows else if pg = 7 then pwrRows else logRows, a % 0x1000)
  else if a < 0x00800000 then ([], 0)
  else if a < 0x00808000 then
    let o := a % 0x1000
    if o < 0x100 then (winRows, o)
    else if o < 0x200 then (winportRows, 0x100 + o % 0x40) else ([], 0)
  else if a < 0x00900000 then ([], 0)
  else if a < 0x00902000 then (flxRows, a % 0x1000)
  else if a < 0x01000000 then ([], 0)
  else if a < 0x02000000 then
    let o := a % 0x100000
    let q := o / 0x1000
    if o < 0x8000 then
      ((if q = 0 then bayRows else if q = 1 then teRows else if q = 2 then xeRows else if q = 3 then memRows
        else if q = 4 then xltRows else if q = 5 then dspRows else if q = 6 then synRows else cvuRows), o % 0x1000)
    else if 0x10000 ≤ o ∧ o < 0xA0000 then
      let q := o % 0x10000 / 0x1000
      ((if q = 0 then paneRows else if q = 1 then vecRows else if q = 2 then ngeRows
        else if q = 3 then seRows else []), o % 0x1000)
    else ([], 0)
  else ([], 0)

/-- The register at a window address outside the alias range; none: unmapped (R542). -/
def regRow (a : Nat) : Option RegRow :=
  let (rs, o) := regRows a
  rs.find? (fun r => r.off == o)

/-- The Reset value of the register at a window address (R14). Log entry 11, DESIGN CHOICE. -/
def regReset (a : Nat) : Word :=
  match regRow a with
  | some r => BitVec.ofNat 32 r.reset
  | none => 0

end Sys2Proof.Machine
end

