-- ==== Sys2Proof/Machine/State.lean ====
section
/-! DEFINITION. The state of the OLK-7160 block as plain data, and `State.reset`. Registers hold their value in force in
`regs`, keyed by their address in the management window (R542); RWS registers also have a staged copy in `staged` (R11).
Everything else a chapter gives the machine is structured below. Sparse tables list only what differs from the value an
unlisted key reads as. Numbers are `Nat`; the widths are those of the manual's layouts. -/

namespace Sys2Proof.Machine

/-- Why the model stops. -/
inductive Fault where
  /-- Raised by `exec` when an operand names a bay, pane instance, port, channel, lintel, bank or die that the package
  does not have (Table 1-1). Safe: no command of the hardware can name one (log entry 4, DESIGN CHOICE). -/
  | noSuchInstance
deriving DecidableEq, Repr

/-- Why the model has no meaning for a command. -/
inductive Refusal where
  /-- Raised by `exec` for a command that has no meaning yet. Safe: it stops. -/
  | notModelled (mnemonic : String)
deriving DecidableEq, Repr

/-- Traffic shares of a context, in 64ths (Table 2-1). -/
structure Shares where
  memRd : Nat := 0
  memWr : Nat := 0
  lnkRd : Nat := 0
  lnkWr : Nat := 0
  lnkRm : Nat := 0
deriving DecidableEq, Repr

/-- A wait recorded in a sequencer block (R381): object, kind (0 wait, 1 take), threshold, expiry, status
(0 pending, 1 met, 2 served, 3 broken, 4 expired, 5 refused access, 6 refused as Free); and the TAG of its command. -/
structure WaitRec where
  obj : Nat
  kind : Nat
  thr : Nat
  expiry : Option Nat
  status : Nat
  tag : Nat
deriving DecidableEq, Repr

/-- A block of a stream in progress (R259): its number in the stream, its descriptor and its number there, the 64-byte words
whose bytes have not landed, the words asked for so far, whether its writes have begun, the words that an earlier block
wrote for it (R268), and those it has still to write. -/
structure SBlk where
  no : Nat
  desc : Nat
  q : Nat
  need : List Nat
  asked : List Nat := []
  writing : Bool := false
  wdone : List Nat := []
  /-- words still to write: address, target (0 local, 1 another device, 2 the companion), physical address, mask, bytes -/
  todo : List (Nat × Nat × Nat × Nat × List Byte) := []
deriving DecidableEq, Repr

/-- One SE stream (chapter "Streams, prefetch and buffering"). -/
structure Stream where
  /-- Table 8-5 -/
  status : Nat := 0
  /-- 0 load, 1 store, 2 copy -/
  kind : Nat := 0
  nbuf : Nat := 0
  syncen : Bool := false
  sync : Nat := 0
  bufaddr : Nat := 0
  bufstride : Nat := 0
  dlist : Nat := 0
  ndesc : Nat := 0
  /-- TAG of its SOPEN -/
  tag : Nat := 0
  /-- the demand block: its descriptor, its number there, and the counts of CURB and CUR1 to CUR4 -/
  didx : Nat := 0
  q : Nat := 0
  curb : Nat := 0
  cur : List Nat := [0, 0, 0, 0]
  /-- blocks delivered; blocks released or posted -/
  deliv : Nat := 0
  done : Nat := 0
  /-- run-dry time, whether the first descriptor has set it, whether the stream has slipped at it -/
  dry : Nat := 0
  drySet : Bool := false
  slipped : Bool := false
  /-- descriptors held, next one to fetch, first one of the first burst -/
  descs : List (Nat × List Byte) := []
  nextFetch : Nat := 0
  burst0 : Nat := 0
  blocks : List SBlk := []
  /-- words read for a descriptor that the next one of its burst may share: descriptor, address, bytes -/
  keep : List (Nat × Nat × List Byte) := []
  /-- cancelled, with a block whose writes have begun still to be delivered -/
  cancel : Bool := false
deriving DecidableEq, Repr

/-- A sequencer block (Table 2-9): what a pane's sequencer holds of its running task, and what a switch saves. -/
structure SeqBlk where
  /-- address of the next command and end of the list -/
  pc : Nat := 0
  listEnd : Nat := 0
  ended : Bool := false
  /-- engine codes of issued commands not yet complete, oldest first (R50) -/
  inflight : List Nat := []
  /-- issued but unstarted commands: engine code and the command's bytes, oldest first -/
  unstarted : List (Nat × Nat) := []
  waits : List WaitRec := []
  /-- vertices, positions, segments, bags or records that an issued but unstarted command has already written, by engine
  code (R173, R211, R235) -/
  progress : Tbl Nat := []
  /-- task counters (R114, R145 and the engines' own), keyed by register offset in the pane's 64 KiB -/
  counters : Tbl Word := []
  streams : Tbl Stream := []
deriving DecidableEq, Repr

/-- States of Table 11-1. A task that is Done or removed leaves the list. -/
inductive TState where
  | held | ready | running | waiting | parked | faulted
deriving DecidableEq, Repr

/-- A task-fault record not yet in the ring (Table 11-3). -/
structure TfRec where
  ctx : Nat
  code : Nat
  engine : Nat
  queue : Nat
  pane : Nat
  ran : Bool
  index : Nat
  tag : Nat
  addr : Nat
  time : Nat
  /-- the task whose ready-list entry the record frees, if it holds one -/
  task : Option Nat
deriving DecidableEq, Repr

/-- A fetched task (R360): its entry of Table 2-3 and where it stands. -/
structure Task where
  id : Nat
  bay : Nat
  queue : Nat
  index : Nat
  ctx : Nat
  dclass : Nat
  prio : Nat
  lpane : Nat
  anypane : Bool
  slotset : Nat
  listaddr : Nat
  listlen : Nat
  depctr : Nat
  donesync : Nat
  doneen : Bool
  doneadd : Nat
  spbase : Nat
  spcount : Nat
  accmask : Nat
  st : TState
  /-- ready time: first entry into Ready -/
  readyAt : Option Nat
  /-- pane number on which the task first ran (R364) -/
  ranOn : Option Nat
  /-- sequencer block of a task that is switched out -/
  saved : Option SeqBlk
  /-- a resolution reached the task before its switch-out completed (Table 10-11) -/
  wake : Bool
  shares : Shares
  /-- engine and TAG of the command whose page fault parked it -/
  pf : Nat × Nat := (0, 0)
deriving DecidableEq, Repr

/-- Flags and state of one accumulator tile (Table 4-3). -/
structure Tile where
  sat : Bool := false
  canc : Bool := false
  pred : Bool := false
  lbound : Bool := false
  special : Bool := false
  inprog : Bool := false
  kind : Nat := 0
  depth : Nat := 0
  /-- a start in an overlapping tile ended its reduction: its values are free until its next start (R118) -/
  ended : Bool := false
deriving DecidableEq, Repr

/-- The result a MATMUL holds in the cells until its result write (R95): the accumulator bytes, the flags and the bytes of
its partial-sum area. -/
structure MatPending where
  acct : Nat
  long : Bool
  tag : Nat
  pred : Bool
  makeup : Bool
  acc : List (Nat × Byte)
  sp : List (Nat × Byte)
  flags : Tile
  /-- it starts a reduction -/
  start : Bool
deriving DecidableEq, Repr

/-- A fault of one access or command: code, address reported; the vertex, record or stage it struck and whether it
struck while a hub was combined, for the engines' own fault registers (R182, R184, R216); and of a slot violation the kind of the
resource and the slot index that PANE_FAULT shows (R80). -/
structure Flt where
  code : Nat
  addr : Nat := 0
  pos : Nat := 0
  hub : Bool := false
  kind : Nat := 0
  slot : Nat := 0
deriving DecidableEq, Repr

/-- A neighbour row that an NGE unit combines: neighbour, weight bits, edge position. -/
structure NgeRow where
  u : Nat
  w : Nat
  edge : Nat
deriving DecidableEq, Repr

/-- A unit of an NGE command in flight: a vertex, a hub segment or a sequence position (R152, R167, R176). -/
structure NgeUnit where
  /-- number of the unit in the original command, and its vertex, segment and degree -/
  no : Nat
  vertex : Nat
  seg : Nat
  deg : Nat
  rows : List NgeRow
  /-- rows requested so far -/
  asked : Nat
  /-- rows here, in the order they arrived: number of the row and its bytes -/
  got : List (Nat × List Byte)
  /-- output already formed (a combined hub): element bits, winner indices, failing elements, saturations -/
  res : Option (List Nat × List Nat × Nat × Nat)
deriving DecidableEq, Repr

/-- A neighbour row being read: pieces of 32 bytes still to issue, reads outstanding (number and piece), pieces here, and
the rows of units that wait for it (R150, R172). -/
structure NgeFetch where
  u : Nat
  next : Nat
  pend : List (Nat × Nat)
  parts : Tbl (List Byte)
  wants : List (Nat × Nat)
deriving DecidableEq, Repr

/-- A running GATHER, SEGGATHER or SEQSTAGE (chapter "Neighbour gather and aggregation"). -/
structure NgeJob where
  /-- the command's bytes, its opcode, its class -/
  cmd : Nat
  op : Nat
  cls : Nat
  /-- next unit to begin, one past the last, units written -/
  next : Nat
  last : Nat
  done : Nat
  /-- the graph descriptor's bytes -/
  desc : List Byte
  /-- a SEGGATHER's segments (vertex, segment, global number), or where a GATHER stands in its hub list -/
  segs : List (Nat × Nat × Nat)
  hub : Nat
  units : List NgeUnit
  fetches : List NgeFetch
  /-- gather filter: neighbour + 1 held by each entry -/
  filt : Tbl Nat
  seq : Nat
deriving DecidableEq, Repr

/-- A TABULATE that has line updates outstanding (R210): its TAG. -/
structure VecJob where
  tag : Nat
deriving DecidableEq, Repr

/-- A context switch in progress on a pane (Table 2-8): step 2 drain, 4 save, 5 restore, 6 slot set; what becomes of the
outgoing task; the incoming task; whether it is an interrupt (R366). -/
structure Switch where
  step : Nat
  outTask : Option Nat
  outState : TState
  inTask : Option Nat
  interrupt : Bool
  /-- pages still to move in the step: context, virtual address, what is moved (0 sequencer block, 1 accumulator image, 2
  scratchpad image, 3 slot set) and its offset there -/
  todo : List (Nat × Nat × Nat × Nat) := []
  /-- the page on its way, and whether the step's pages have been laid out -/
  page : Option (Nat × Nat × Nat × Nat) := none
  laid : Bool := false
  /-- bytes of the sequencer block or slot set read so far (R65) -/
  got : List Byte := []
deriving DecidableEq, Repr

/-- One pane instance. -/
structure Pane where
  /-- 0 Run, 1 Start-up, 2 Test, 3 Recovery -/
  mode : Nat := 1
  /-- pane number held; none for a spare or a replaced instance -/
  number : Option Nat
  /-- number out of service (R533) -/
  out : Bool := false
  /-- taken out of dispatch by a replacement or a self-test -/
  offDispatch : Bool := false
  task : Option Nat := none
  ctx : Nat := 0
  dclass : Nat := 0
  stopped : Bool := false
  shares : Shares := {}
  /-- PTROOT of the context record as the task started, and SAVEBASE of each context whose tasks have run here, as its last one
  started (R39) -/
  root : Nat := 0
  bases : Tbl Nat := []
  started : Nat := 0
  blockedAt : Option Nat := none
  seq : SeqBlk := {}
  sw : Option Switch := none
  sp : Tbl Byte := []
  spErr : Tbl Nat := []
  acc : Tbl Byte := []
  accErr : Tbl Nat := []
  tiles : Tbl Tile := []
  longTiles : Tbl Tile := []
  /-- owner context of resident scratchpad regions and tiles; 0xFFFF none (R69) -/
  regOwn : Tbl Nat := []
  tileOwn : Tbl Nat := []
  /-- flags of tiles in a save area: key context * 256 + tile, long tile L at 128 + L (log entry 17, DESIGN CHOICE) -/
  savedFlags : Tbl Tile := []
  /-- the slot set held: context and address; entries keyed table * 256 + slot (R57) -/
  slotSet : Option (Nat × Nat) := none
  slots : Tbl Nat := []
  slotPos : Tbl Nat := []
  mat : Option MatPending := none
  nge : Option NgeJob := none
  vec : Option VecJob := none
  halted : Bool := false
  stepping : Bool := false
  /-- contexts whose next task on the pane number faults with 0xE1 (R519, R532) -/
  poison : List Nat := []
  /-- an engine stalls at the translation unit (R345) -/
  stalled : Bool := false
deriving DecidableEq, Repr

/-- The pane instance as reset leaves it: Start-up mode, instances 0-7 of a bay numbered (R16, R81). -/
def Pane.reset (i : Nat) : Pane := { number := if i % 9 < 8 then some (i / 9 * 8 + i % 9) else none }

/-- A row on its way from a table engine to a row's owner and back (R229, R230): the requester's bay, chip, TAG and slot, the
row, the step, whether it is a prefetch request; in a response the code of a refusal (0 none), its address, whether the row
is absent, the owner that answered, its stamp, and the header and data. -/
structure RowMsg where
  bay : Nat
  chip : Nat
  tag : Nat
  slot : Nat
  table : Nat
  row : Nat
  step : Nat
  prefetch : Bool
  /-- local index of the issuing pane, when known -/
  lpane : Nat
  /-- context of the requester (Table 12-9) -/
  ctx : Nat := 0
  code : Nat := 0
  addr : Nat := 0
  absent : Bool := false
  owner : Nat := 0
  stamp : Nat := 0
  data : List Byte := []
  /-- answered whatever the owner's step: a prefetch, a refresh or a replica's filling (R230, R233, R243, R245) -/
  now : Bool := false
  /-- opcode of the command that asks -/
  op : Nat := 1
deriving DecidableEq, Repr

/-- A gradient contribution on its way to its owner, or held there (R237): the sender's bay, chip and TAG; none once nobody
waits for its acknowledgement. -/
structure Contrib where
  bay : Nat
  chip : Nat
  tag : Option Nat
  lpane : Nat
  cls : Nat
  table : Nat
  gfmt : Nat
  step : Nat
  row : Nat
  pos : Nat
  weight : Nat
  data : List Byte
  /-- context of the sender (Table 12-9) -/
  ctx : Nat := 0
deriving DecidableEq, Repr

/-- Structures that a bay's own units read for themselves (Table 10-1, R322): a queue descriptor for a doorbell, what a fetch
reads, an owner-table line, a route-table entry, what a walk of a page reads, a table descriptor or structure for the table
engine's own request, the migration pool and mirror, a security, update or Intrude access, and the landing of a chain record in a save area.
-/
inductive Use where
  | doorbell
  | fetch
  | owner (line : Nat)
  | route (chip : Nat)
  | walk (ctx va : Nat)
  | pool
  | leaf
  | undo
  | service
  | update
  | intrude
  | land (chrec : Bool)
deriving DecidableEq, Repr

/-- Who reads a structure in memory, line by line: the command of an engine of a pane instance, the start of a task there, the
switch of a pane, a unit of a bay, a request that a bay's table engine serves as an owner, or the control die, whose system
accesses cross no lintel (R577). -/
inductive Who where
  | cmd (i eng : Nat)
  | start (i t : Nat)
  | sw (i : Nat)
  | bay (b : Nat) (u : Use)
  | te (b n : Nat)
  | ctl (u : Use)
deriving DecidableEq, Repr

/-- A 64-byte line that an operation lacks, or the translation of its page when `probe` names the kind of use (true: a
write). System accesses carry a physical address. -/
structure Need where
  w : Who
  ctx : Nat
  va : Nat
  sys : Bool := false
  probe : Option Bool := none
deriving DecidableEq, Repr

/-- What a bay sends to another bay of the device, or to a rim die, over a lintel: a row request or its answer, a contribution,
a table-service message, an acknowledgement of a contribution (TAG and code), a chain record with the task that sent it, a
message for a virtual channel of the exchange on its way out, and a message that has come in by a port and channel. -/
inductive Parcel where
  | rowReq (r : RowMsg)
  | rowRsp (r : RowMsg)
  | con (c : Contrib)
  | ack (tag code : Nat)
  | svc (m : List Byte)
  | chain (t : Nat) (m : List Byte)
  | xout (vc : Nat) (m : List Byte)
  | xin (p vc : Nat) (m : List Byte)
deriving DecidableEq, Repr

/-- Who an access answers to. -/
inductive Purpose where
  /-- nobody waits -/
  | none
  /-- narrow read of an NGE job: pane instance, read number -/
  | nge (i k : Nat)
  /-- a 64-byte word of a stream: pane instance, stream, block (2^40 and more: a descriptor), virtual address -/
  | se (i st blk off : Nat)
  /-- tabulation line update of a pane's TABULATE -/
  | line (i : Nat)
  /-- a request from another device: its message -/
  | remote (m : List Byte)
  /-- a companion access: Follux die, its message -/
  | host (f : Nat) (m : List Byte)
  /-- a line of a structure that `w` reads -/
  | fetch (w : Who)
  /-- the translation of a page that `w` waits for; true: for a write -/
  | probe (w : Who) (wr : Bool)
  /-- a write that a command of task `t` on pane instance `i` posted: the task faults when it fails -/
  | put (i t : Nat)
  /-- a line of the context switch of pane instance `i` (Table 2-8, steps 4 to 6): its place in the pane's switch -/
  | sw (i k : Nat)
  /-- a record of a ring on its way to memory: 0 task faults, 1 retirements of a bay, 2 notices -/
  | ring (k b : Nat)
  /-- part of the page that the running migration reads or writes: byte offset in the page -/
  | mig (off : Nat)
  /-- what a bay sends to another or to a rim die -/
  | parcel (p : Parcel)
deriving DecidableEq, Repr

/-- What an access does at the memory. -/
inductive AccOp where
  | read
  /-- write the data bytes -/
  | write
  /-- write the 32-bit words of a mask in a 64-byte line -/
  | writeM (mask : Nat)
  /-- eight 64-bit lanes added under a mask (OP 0 of Table 12-11) -/
  | add (mask : Nat)
  /-- one long element added (OP 1) -/
  | addLong
  /-- no access to memory: bytes carried between dies -/
  | msg
deriving DecidableEq, Repr

/-- Where an access is on its way (R576, R18): translation, leaving the requester's bay, entering the memory's bay, the
channel, the response leaving and entering, or waiting for another device or the companion. -/
inductive Stage where
  | xlate | reqOut | reqIn (lintel : Nat) | chan | rspOut | rspIn (lintel : Nat) | away | got
deriving DecidableEq, Repr

/-- An access on its way to or from memory. Its slots belong to pane number `owner` when `isPane`, else to bay `owner`
(R56). -/
structure Access where
  id : Nat := 0
  isPane : Bool := false
  owner : Nat
  eng : Nat
  /-- bay of the requester -/
  bay : Nat
  ctx : Nat := 0
  /-- a system access (R322) -/
  sys : Bool := false
  /-- dropped without a fault when it fails (run-ahead, prefetch: R272) -/
  ahead : Bool := false
  op : AccOp := .read
  va : Nat := 0
  pa : Nat := 0
  len : Nat := 64
  data : List Byte := []
  /-- transfer class on a lintel port: 0 read, 1 write, 2 remote -/
  cls : Nat := 0
  stage : Stage := .xlate
  purpose : Purpose := .none
  /-- fault to report with the response -/
  flt : Option Flt := none
  /-- page fault that its translation met: cause, level, companion page -/
  pg : Option (Nat × Nat × Nat) := none
  /-- failed transfers so far (R519) -/
  fails : Nat := 0
  /-- the target is another device's memory, or companion memory -/
  dev : Bool := false
  host : Bool := false
  /-- accesses of one request share a group; of a write that a command posted: its vertex, its
  opcode times 2^40, and one more than its CLASS as a message times 2^48 when it has one -/
  grp : Nat := 0
  /-- bay to which a parcel goes -/
  dst : Nat := 0
  /-- the lintel of the rim die by which it leaves or comes, once known (R576) -/
  rim : Option Nat := none
  /-- transfers of 64 bytes already carried over the port at which it stands -/
  sent : Nat := 0
  /-- owner its page had when the controller's line of the owner cache was dropped after the access was accepted (Table 10-11) -/
  oldOwner : Option Nat := none
deriving DecidableEq, Repr

/-- A TLB entry: a run of 2^run pages of level `lvl` (R331). -/
structure TlbEnt where
  ctx : Nat
  lvl : Nat
  run : Nat
  /-- first page number of the run, in units of the level's page -/
  vpn : Nat
  leaf : Nat
deriving DecidableEq, Repr

/-- A walk-cache entry: context, level, virtual prefix, the non-leaf entry (R328). -/
structure WcEnt where
  ctx : Nat
  lvl : Nat
  pfx : Nat
  entry : Nat
deriving DecidableEq, Repr

/-- A walk of one page of one context (R328), at level `lvl` of table `tbl`. -/
structure Walk where
  ctx : Nat
  va : Nat
  wr : Bool
  lvl : Nat
  tbl : Nat
  /-- an invalidation of its page arrived: it completes without filling and starts again (R334) -/
  stale : Bool
  /-- companion walk: its tag and when it was sent -/
  host : Option (Nat × Nat)
  /-- it waits for PTROOT of the context's record (R328) -/
  root : Bool := false
deriving DecidableEq, Repr

/-- An invalidation received and not yet acknowledged (R333): its TAG, its port, the accesses it waits for. -/
structure Inv where
  tag : Nat
  port : Nat
  waits : List Nat
  /-- bytes whose lines of the owner cache are dropped with the acknowledgement: first and number -/
  own : Option (Nat × Nat) := none
deriving DecidableEq, Repr

/-- The bay's translation unit. -/
structure BayXlt where
  tlb : List TlbEnt := []
  wc : List WcEnt := []
  walks : List Walk := []
  invs : List Inv := []
  /-- owner-cache lines: line number (32 pages each) and its 64 bytes -/
  oc : Tbl (List Byte) := []
  tagSeq : Nat := 0
deriving DecidableEq, Repr

/-- A waiter record of a SYN block (R382): kind 0 wait, 1 take, 2 dispatch take; with the TAG of its command. -/
structure Waiter where
  obj : Nat
  kind : Nat
  task : Nat
  ctx : Nat
  thr : Nat
  expiry : Option Nat
  parked : Bool
  tag : Nat := 0
deriving DecidableEq, Repr

/-- A sync object (R373). -/
structure SynObj where
  val : Nat := 0
  owner : Nat := 0
  /-- 0 Free, 1 Live, 2 Broken -/
  st : Nat := 0
  anyctx : Bool := false
  sat : Bool := false
  /-- last signaller: pane, chip, context, time -/
  last : Option (Nat × Nat × Nat × Nat) := none
deriving DecidableEq, Repr

/-- A signal on its way to its object's home (R373): its source, the task that issued it when it is of this device,
whether it completes a sequencer SIGNAL, the accesses it guards, and the TAG of its command. -/
structure Sig where
  obj : Nat
  amount : Nat
  pane : Nat
  chip : Nat
  ctx : Nat
  task : Option Nat
  completes : Bool
  guards : List Nat
  tag : Nat := 0
deriving DecidableEq, Repr

/-- A row that a table command has here: its id, whether it is absent, the owner that answered (chip * 16 + bay), stamp,
header and data. -/
structure TeGot where
  id : Nat
  absent : Bool
  owner : Nat
  stamp : Nat
  data : List Byte
deriving DecidableEq, Repr

/-- A running table command (R229, R237, R243, R245, R246, R248). -/
structure TeJob where
  /-- pane instance, command, opcode, task, context, class -/
  pane : Nat
  cmd : Nat
  op : Nat
  task : Nat
  ctx : Nat
  cls : Nat
  /-- row of each id: table * 2^40 + row -/
  keys : List Nat := []
  /-- offsets of the bags; ids of the rows of each occurrence, none: a default row; weights -/
  offs : List Nat := []
  occ : List (List Nat) := []
  wts : List Nat := []
  /-- ids not yet requested; requests outstanding by TAG; rows here, in arrival order -/
  ask : List Nat := []
  sent : List (Nat × List Nat) := []
  got : List TeGot := []
  /-- bags or listed rows done -/
  done : Nat := 0
  /-- contributions not yet sent -/
  cons : List Contrib := []
  /-- rows of a TMIGRATE that have begun to move; a TSTEP: 1 when its table is trained -/
  begun : Nat := 0
  /-- ids of rows that the staging area is to hold (R233) -/
  stg : List Nat := []
deriving DecidableEq, Repr

/-- A replica in the hot set (R232, R245): table, row, owner (chip * 16 + bay), stamp, header and data; an empty one waits for
the bay's next refresh. -/
structure HotLine where
  table : Nat
  row : Nat
  owner : Nat
  stamp : Nat
  data : List Byte
deriving DecidableEq, Repr

/-- A row being copied to a new owner (Table 7-14): the row, the target (chip * 16 + bay) and its guest entry there, 2^32 while it
is asked for, 2^33 when the target is the row's home; the issuer of
the TMIGRATE (chip, bay) and its TAG, whether the row was written meanwhile. -/
structure TeCopy where
  table : Nat
  row : Nat
  target : Nat
  entry : Nat
  chip : Nat
  bay : Nat
  tag : Nat
  dirty : Bool
  /-- context of the TMIGRATE -/
  ctx : Nat := 0
  /-- the row stands whole in its guest record at the target, or is on its way to the target's own -/
  landed : Bool := false
  /-- it is copied again once the apply that runs has ended (Table 7-14) -/
  again : Bool := false
deriving DecidableEq, Repr

/-- A TMIGRATE whose begun rows have not all flipped (R246): TAG, rows left, sync object, pane and context that issued it. -/
structure TeMove where
  tag : Nat
  left : Nat
  obj : Nat
  pane : Nat
  ctx : Nat
  closed : Bool
  /-- the task that issued it -/
  task : Nat := 0
deriving DecidableEq, Repr

/-- The bay's table engine. -/
structure Te where
  jobs : List TeJob := []
  hot : List HotLine := []
  /-- staged rows (R233): area (context * 2^32 + pane number * 2^24 + address) and its rows: key, stamp, header and data -/
  staged : List (Nat × List (Nat × Nat × List Byte)) := []
  reqIn : List RowMsg := []
  rspIn : List RowMsg := []
  conIn : List Contrib := []
  /-- table-service messages of this device not yet served, oldest first -/
  svcIn : List (List Byte) := []
  /-- accepted contributions of steps not yet applied -/
  grads : List Contrib := []
  copies : List TeCopy := []
  moves : List TeMove := []
  /-- guest entries kept for rows on their way here: table, row, entry -/
  resv : List (Nat × Nat × Nat) := []
  /-- steps whose contributions are incomplete after a fault: table and step -/
  incomplete : List (Nat × Nat) := []
  tagSeq : Nat := 0
deriving DecidableEq, Repr

/-- A request outstanding over the exchange or to the companion (R418, R444). -/
structure XReq where
  tag : Nat
  host : Bool
  chip : Nat
  mtype : Nat
  sent : Nat
  access : Nat
  port : Nat
deriving DecidableEq, Repr

/-- A flow of the exchange (R411): destination, source, virtual channel, port, and whether the XE holds its messages while the port
changes. -/
structure Flow where
  dchip : Nat
  schip : Nat
  sbay : Nat
  vc : Nat
  port : Nat
  held : Bool
deriving DecidableEq, Repr

/-- The bay's exchange engine. -/
structure Xe where
  reqs : List XReq := []
  routes : Tbl Nat := []
  flows : List Flow := []
  /-- messages delivered to the bay and not yet served, oldest first -/
  xin : List (List Byte) := []
  tagSeq : Nat := 0
  /-- chain records of this device that have come to this bay: the task that sent each, and its message bytes -/
  chain : List (Nat × List Byte) := []
  /-- requests of the bay's table engine that found no route, for it to answer (R410) -/
  unrouted : List (List Byte) := []
deriving DecidableEq, Repr

/-- A retirement record (Table 9-7): type, channel, page, time. -/
structure RetRec where
  typ : Nat
  ch : Nat
  page : Nat
  time : Nat
deriving DecidableEq, Repr

/-- A row-remap entry (Table 9-5). -/
structure Remap where
  ch : Nat
  pc : Nat
  bank : Nat
  row : Nat
  spare : Nat
  fails : Nat
  bad : Bool
deriving DecidableEq, Repr

/-- A shutter of a memory channel: channel, cause (0 retrain, 1 lane repair, 2 remap copy, 3 self-test), start time. -/
structure Shutter where
  ch : Nat
  cause : Nat
  start : Nat
deriving DecidableEq, Repr

/-- A line in the update buffer (R209): the update that read it, in whose engine's slots it is written, the updates merged
into it, the line as read, and the line as it is to be written once the additions are done. -/
structure Upd where
  acc : Access
  more : List Access := []
  old : List Byte
  new : Option (List Byte) := none
deriving DecidableEq, Repr

/-- The bay's memory controller. -/
structure MemCtl where
  ready : Bool := false
  /-- the stack's domain is being reset (Table 17-4) -/
  resetting : Bool := false
  hot : Bool := false
  throttle : Bool := false
  hold : Bool := false
  shut : Option Shutter := none
  shutQ : List (Nat × Nat) := []
  trainFails : Tbl Nat := []
  trainTemp : Tbl Nat := []
  remaps : List Remap := []
  /-- rows in Retiring: channel, row key -/
  retiring : List (Nat × Nat) := []
  refused : List Nat := []
  rtfull : Bool := false
  /-- records the driver has not acknowledged, by ring index, and records not yet written, oldest first -/
  ring : Tbl (Option RetRec) := []
  held : List RetRec := []
  rqStuck : Bool := false
  /-- removal under way: channel, whether the channel is lost, whether copying -/
  evac : Option (Nat × Bool × Bool) := none
  removed : Option Nat := none
  lost : List Nat := []
  /-- lines of 64 bytes copied out of a failed channel, in the order of its bands, and whether the next one has been read and
  waits for its place (R311) -/
  evacPos : Nat := 0
  evacHeld : Bool := false
  /-- a row whose remap copy waits for its shutter or runs: channel, row, spare, FAILS -/
  remapDue : Option (Nat × Nat × Nat × Nat) := none
  /-- next location of the scrub in each channel, in lines of 64 bytes -/
  scrubPos : Tbl Nat := []
  /-- tabulation line updates in the update buffer (R209) -/
  upd : List Upd := []
  /-- scrub reads at the last slot; highest temperature seen -/
  clkLimit : Nat := 7
  lastStep : Nat := 0
deriving DecidableEq, Repr

/-- One line of the companion directory (R434). -/
structure DirLine where
  line : Nat
  owned : Bool
deriving DecidableEq, Repr

/-- A snoop outstanding: line address, when sent, the companion read that waits for room or for the line. -/
structure Snoop where
  line : Nat
  sent : Nat
  tag : Nat
deriving DecidableEq, Repr

/-- One bay. -/
structure Bay where
  /-- array clock: index of the value in force and the limits that ask for it (R316) -/
  clk : Nat := 0
  clkPwr : Nat := 0
  clkJct : Nat := 7
  jctHot : Bool := false
  jctStep : Nat := 0
  /-- last accepted tail of each queue, and the queue last served (R359) -/
  tails : Tbl (Option Nat) := []
  lastQ : Nat := 255
  owedCredit : Bool := false
  /-- task-fault records not yet written, oldest first (R371) -/
  tfHeld : List TfRec := []
  tfStuck : Bool := false
  waiters : List Waiter := []
  stalledWaits : List Waiter := []
  /-- slot-table entries in force that differ from the image's, and staged ones: key kind * 2^18 + instance * 2^13 + slot -/
  slotIn : Tbl (Option Nat) := []
  slotStaged : Tbl (Option Nat) := []
  /-- entries committed and not yet in force: those of a table take effect at its next frame boundary (R58) -/
  slotDue : Tbl (Option Nat) := []
  framePos : Tbl Nat := []
  stepCtr : Tbl Nat := []
  /-- bay-engine command slots: local pane index granted now, by engine code -/
  grant : Tbl (Option Nat) := []
  /-- doorbells that wait for a snoop of their queue descriptor's line, oldest first -/
  dbWait : List Nat := []
  xlt : BayXlt := {}
  te : Te := {}
  xe : Xe := {}
  mem : MemCtl := {}
  dir : List DirLine := []
  snoops : List Snoop := []
  trace : List (List Nat) := []
  traceStopped : Bool := false
deriving DecidableEq, Repr

/-- A data flit kept for replay (R403): sequence number, virtual channel, payload and FIRST, messages that end in it, and
replays that carried it. -/
structure RFlit where
  seq : Nat
  vc : Nat
  payload : List Byte
  first : Nat
  ends : Nat
  resends : Nat
  /-- messages that start in it -/
  begins : Nat := 0
deriving DecidableEq, Repr

/-- One optical port (chapter "Optical exchange"). -/
structure Port where
  /-- 0 Off, 1 Dark, 2 Tune, 3 Train1, 4 Train2, 5 Align, 6 Lock, 7 Init, 8 Up, 9 Shut (Table 12-17) -/
  st : Nat := 0
  laser : Bool := false
  laserHot : Bool := false
  /-- lanes with light, lanes in clock lock, lanes the peer receives, lanes marked bad -/
  light : Nat := 0
  good : Nat := 0
  peerGood : Nat := 0
  bad : Nat := 0
  /-- physical lane of each logical lane, received and sent, and the spares -/
  lanes : List Nat := []
  txLanes : List Nat := []
  spares : List Nat := []
  /-- peer chip and port recorded in training -/
  peer : Option (Nat × Nat) := none
  /-- lanes on which TS3 was seen -/
  aligned : Nat := 0
  /-- times without light or lock since the port was last Up, and whether that was logged -/
  attempts : Nat := 0
  darkLogged : Bool := false
  /-- codewords received since link-up, and clean ones in a row -/
  rxCw : Nat := 0
  clean : Nat := 0
  /-- swap that this side named: logical lane, spare, codeword, whether the lane has moved -/
  rxSwap : Option (Nat × Nat × Nat × Bool) := none
  /-- swap that the peer named: logical lane, spare, codeword -/
  txSwap : Option (Nat × Nat × Nat) := none
  sinceSwap : Nat := 0
  /-- physical lanes that wait for a swap of their own -/
  laneWait : List Nat := []
  peerHold : Bool := false
  /-- corrected symbols by physical lane in the window that began at `laneWin` -/
  laneErr : Tbl Nat := []
  laneWin : Nat := 0
  initTx : Bool := false
  initRx : Bool := false
  /-- next SEQ to send, next SEQ expected -/
  txSeq : Nat := 0
  rxSeq : Nat := 0
  nakDue : Bool := false
  nakArmed : Bool := true
  /-- data flits not acknowledged, oldest first, and the SEQs still to resend -/
  replay : List RFlit := []
  resend : List Nat := []
  /-- data flits sent and freed by the peer, and freed by this side, by channel -/
  vcSent : List Nat := [0, 0, 0, 0]
  vcFreed : List Nat := [0, 0, 0, 0]
  rxFreed : List Nat := [0, 0, 0, 0]
  /-- data flits of each channel accepted since link-up; those passed on toward the lintels are in `rxFreed` (R405) -/
  rxGot : List Nat := [0, 0, 0, 0]
  cvc : Nat := 0
  vcTurn : Nat := 0
  /-- messages waiting to be sent: virtual channel, bytes already sent, bytes -/
  txq : List (Nat × Nat × List Byte) := []
  /-- messages sent and not acknowledged whole: virtual channel, count since link-up, bytes; and messages sent by channel -/
  sent : List (Nat × Nat × List Byte) := []
  sentCnt : List Nat := [0, 0, 0, 0]
  /-- bytes of a message not yet whole, by channel; messages delivered whole since link-up -/
  rxBuf : List (List Byte) := [[], [], [], []]
  delivered : List Nat := [0, 0, 0, 0]
  /-- messages of the port that failover resends, and FAILOVER messages that arrived by it -/
  lost : List (Nat × Nat × List Byte) := []
  failIn : List (List Byte) := []
  /-- drain before a shutter: cause (row of Table 12-10) and start -/
  drain : Option (Nat × Nat) := none
  /-- flits sent since link-up, and the last flit put on the line -/
  txFlits : Nat := 0
  txFlit : Nat := 0
deriving DecidableEq, Repr

/-- A fault-queue entry (Table 10-7). -/
structure FqEnt where
  /-- 1 pending, 2 migrating -/
  st : Nat
  cause : Nat
  level : Nat
  write : Bool
  ctx : Nat
  seq : Nat
  va : Nat
  hpa : Nat
  panes : List Nat
  bays : List Nat
  nfault : Nat
  time : Nat
  newpa : Nat
  /-- tasks that wait on the entry -/
  tasks : List Nat
deriving DecidableEq, Repr

/-- The migration in progress (Table 10-9): fault-queue entry, the step that ends next, the page chosen. -/
structure Mig where
  entry : Nat
  step : Nat
  newpa : Nat
deriving DecidableEq, Repr

/-- A notice on its way to its ring (R346): its bytes, and the fault-queue entry that is freed once it is written, with the
code that its waiting tasks then fault with, if they do. -/
structure Notice where
  bytes : List Byte
  frees : Option (Nat × Option Nat) := none
deriving DecidableEq, Repr

/-- The control die's global translation state. -/
structure GXlt where
  fq : Tbl (Option FqEnt) := []
  seq : Nat := 0
  mig : Option Mig := none
  /-- faults that stall for want of an entry or of notice space: the bay, pane instance and cause data -/
  stalls : List (List Nat) := []
  /-- notices not yet written, oldest first (R346, R578) -/
  noticeHeld : List Notice := []
  noticeStuck : Bool := false
  /-- resolved pages: context and page, to count faults repeated after a retry (R348) -/
  retried : List (Nat × Nat) := []
deriving DecidableEq, Repr

/-- A log entry (Table 17-5). -/
structure LogEnt where
  time : Nat
  seq : Nat
  event : Nat
  cls : Nat
  verdict : Nat
  dkind : Nat
  inst : Nat
  addr : Nat
  detail0 : Nat
  detail1 : Nat
deriving DecidableEq, Repr

/-- A self-test target (Table 17-3). -/
inductive Target where
  | dramRow (b ch row : Nat)
  | dramLane (b ch : Nat)
  | spBank (i bank : Nat)
  | pane (i : Nat)
  | optLane (p lane : Nat)
  | wire (lintel group : Nat)
  /-- a fault with no self-test of its own -/
  | other (dkind inst : Nat)
deriving DecidableEq, Repr

/-- A recovery: its target, the errors joined to it, whether its self-test runs (R522, R523). -/
structure Recovery where
  target : Target
  addr : Nat
  joined : Nat
  /-- 0 waiting, 1 testing, 2 after the verdict (repair, remap or replacement) -/
  phase : Nat
  /-- SEQ of the log entry in which joined errors are counted -/
  seq : Nat
  /-- purpose: 0 an error, 1 requested by MEM_SVC or CTL_PANESVC, 2 the spare's test of a replacement, 3 after a reset -/
  why : Nat
  start : Nat
deriving DecidableEq, Repr

/-- A fault domain (R517, R523), keyed dkind * 256 + instance. -/
structure Dom where
  cur : Option Recovery := none
  queue : List Recovery := []
  resets : Nat := 0
  resetting : Bool := false
  /-- a reset is due for this cause (DETAIL1 of event 0x10); 0 none -/
  due : Nat := 0
deriving DecidableEq, Repr

/-- A pane replacement in progress (Table 17-9). -/
structure Replace where
  bay : Nat
  number : Nat
  old : Nat
  step : Nat
deriving DecidableEq, Repr

/-- Log, self-test, recovery, replacement and live-service state (chapter "Errors, self-test, the log and live service"). -/
structure Rel where
  log : Tbl (Option LogEnt) := []
  logSeq : Nat := 0
  doms : Tbl Dom := []
  repl : List Replace := []
  /-- spare wires left of each lintel wire group, keyed lintel * 256 + group; 2 at first -/
  wires : Tbl Nat := []
  /-- links that failed for good: lintel and wire group (R534) -/
  failedLinks : List (Nat × Nat) := []
  /-- update: state of Table 17-8, result, ports done, whether the port's shutter has been started, the image -/
  upd : Nat := 0
  updRes : Nat := 0
  updPort : Nat := 0
  updBegun : Bool := false
  updImg : List Byte := []
deriving DecidableEq, Repr

/-- A region of the memory map (R473, R289): base, size, kind (0 device-wide, 1 bay-local, 2 stack-local), stack. -/
structure Region where
  base : Nat
  size : Nat
  kind : Nat
  stack : Nat
deriving DecidableEq, Repr

/-- Boot state (chapter "Power-up, configuration and the ready flag"). -/
structure Boot where
  /-- 0-5 the states of Table 15-6 by their numbers, 6 Ready, 14 Recovery, 15 Failed -/
  phase : Nat := 0
  ready : Bool := false
  /-- what PHASE shows in Ready, a number the manual does not give (log entry 31, DESIGN CHOICE) -/
  readyCode : Nat := 0
  /-- a recovery boot; one requested by RECOVER_N or CTL_RESTART -/
  recovery : Bool := false
  forced : Bool := false
  /-- step 1 of this boot powers the PUF array (R491) -/
  puf : Bool := true
  /-- bring-up holds after step 3 of Table 15-5 (R506, P4) -/
  hold : Bool := false
  /-- active slot, slot under verification or booted, and whether it is the second tried -/
  active : Nat := 0
  slot : Nat := 0
  second : Bool := false
  lastErr : Nat := 0
  /-- VERSION, MINVER and ENPORTS of the booted image -/
  ver : Nat := 0
  minver : Nat := 0
  enports : Nat := 0
  /-- versions of the running control, window-die and Follux-die firmware -/
  fw : List Nat := [0, 0, 0]
  /-- service record in force: the local index replaced in each bay, 255 none -/
  service : List Nat := []
  /-- dies whose lasers failed to lock: 0-7 window dies, 8-9 Follux dies -/
  laserFault : List Nat := []
deriving DecidableEq, Repr

/-- Security state (R491 to R499, R510). -/
structure Sec where
  /-- 0 Open, 1 Sealed, 2 Service -/
  st : Nat := 0
  /-- the key store of the always-on domain (R491) -/
  seed : Option (List Byte) := none
  noid : Bool := false
  devid : List Byte := []
  /-- PUBKEY and IMGHASH of the booted image -/
  imgKey : List Byte := []
  imgHash : List Byte := []
  floor : Nat := 0
  nonce : Nat := 0
  nonceOk : Bool := false
  /-- bytes appended through SEC_TOKDATA -/
  token : List Byte := []
  /-- session: path and level of the token, end of Service -/
  sessPath : Nat := 0
  sessLevel : Nat := 0
  sessEnd : Nat := 0
  /-- running SEC_CMD command and the path that wrote it -/
  run : Option (Nat × Nat) := none
  result : Nat := 0
  /-- flash service: page buffer, running operation (1 erase, 2 program; address; bytes), status bits -/
  page : List Byte := []
  flash : Option (Nat × Nat × List Byte) := none
  fpErr : Bool := false
  fpRefused : Bool := false
  /-- Intrude granted, and firmware updated live, since boot -/
  intruded : Bool := false
  updated : Bool := false
deriving DecidableEq, Repr

/-- Debug state (R500 to R504): the level and the path that holds it (1 SMBus, 2 Follux, 3 test port; 0 none), the result
of the last request, and the status pins that EXTEST drives. -/
structure Dbg where
  level : Nat := 0
  path : Nat := 0
  lastRes : Nat := 0
  extest : Option Nat := none
deriving DecidableEq, Repr

/-- Power state (R505 to R508). -/
structure Pwr where
  st : Nat := 4
  target : Nat := 0
  moving : Bool := false
  heldReq : Option Nat := none
  refused : Bool := false
deriving DecidableEq, Repr

/-- Supply die, pins and reference clocks (chapter "Package, power and thermal"). -/
structure Sup where
  /-- reference clock in use (0 or 1), and those that show no edges -/
  refUsed : Nat := 0
  ref0Lost : Bool := false
  ref1Lost : Bool := false
  vinOk : Bool := true
  vauxOk : Bool := true
  vioOk : Bool := true
  /-- THERMTRIP_N is low from a thermal trip until the power-up of R563 -/
  tripped : Bool := false
  /-- straps as sampled -/
  chip : Nat := 0
  smba : Nat := 0
  recoverN : Nat := 1
  /-- what the always-on domain keeps through a restart (R466): remaps, refused pages and channel state, by bay -/
  keep : List (Nat × MemCtl) := []
deriving DecidableEq, Repr

/-- A write held behind a pending commit (R486): register, value, the path that waits for its answer (0: a row that names
none) and, on Follux, the die and the message. -/
structure HeldWrite where
  addr : Nat
  value : Nat
  path : Nat := 0
  msg : Option (Nat × List Byte) := none
deriving DecidableEq, Repr

/-- Management paths (R544): 1 SMBus, 2 Follux, 3 test port. -/
structure Mgmt where
  /-- high half of device time latched for each path -/
  timeHi : Tbl Word := []
  /-- reason and data last answered on each path -/
  last : Tbl (Nat × Word) := []
  /-- what the last read delivered -/
  lastRead : Word := 0
  /-- targets of pending commits, and the writes held behind them, oldest first (R486) -/
  commits : List Nat := []
  held : List HeldWrite := []
  /-- accesses held during a handover: path, address, value, whether it writes, oldest first (R530) -/
  waiting : List (Nat × Nat × Nat × Bool) := []
  /-- forced values: what the register read as when it was forced, and the value (R503) -/
  forced : Tbl (Word × Word) := []
deriving DecidableEq, Repr

/-- The state of the block. -/
structure State where
  /-- the commands that wait, first in first out (the model's own; log entry 1, DESIGN CHOICE) -/
  pending : List Instr
  /-- device time in ns (R8) -/
  devTime : Nat
  regs : Tbl Word
  staged : Tbl Word
  /-- the bytes of the sixteen stacks by local physical address; an unlisted byte reads 0 (log entry 9, DESIGN CHOICE) -/
  dram : List Host.Cell
  /-- flipped stored bits of a 32-bit word (bits 0-31 data, 32-38 check bits), by word address (R297) -/
  dramErr : Tbl Nat
  /-- APAR bits of a beat that disagree with its address, by beat address (R301) -/
  dramMis : Tbl Nat
  /-- the configuration flash (R467); an unlisted byte reads 0xFF (log entry 10, PRESUMED) -/
  flash : List Host.Cell
  regions : List Region
  /-- slot-table section of the booted image (R474) -/
  slotDef : List Host.Cell
  panes : Tbl Pane
  bays : Tbl Bay
  ports : Tbl Port
  /-- messages from the companion not yet served, by Follux die: die and message, oldest first -/
  fin : List (Nat × List Byte)
  syn : Tbl SynObj
  sigs : List Sig
  tasks : List Task
  taskSeq : Nat
  accs : List Access
  accSeq : Nat
  /-- the MODEL's own counter of free values drawn (log entry 7, DESIGN CHOICE) -/
  nonce : Nat
  /-- context reset in progress and resets held behind it (R372) -/
  ctxReset : Option Nat
  /-- contexts reset and not used since: their tables refuse every request (R230) -/
  ctxDead : List Nat
  ctxResetQ : List Nat
  gx : GXlt
  rel : Rel
  boot : Boot
  sec : Sec
  dbg : Dbg
  pwr : Pwr
  sup : Sup
  mgmt : Mgmt
deriving DecidableEq, Repr

/-- Right after power-up reset: device time 0, the control die in its boot ROM, power state P4, security state Open, every
register at its Reset value, memory with nothing listed (R8, R14, R465, Table 15-5; log entries 9 and 11, DESIGN CHOICE, and 10, PRESUMED, for what the spec
leaves to the device). -/
def State.reset : State where
  pending := []
  devTime := 0
  regs := []
  staged := []
  dram := []
  dramErr := []
  dramMis := []
  flash := []
  regions := []
  slotDef := []
  panes := []
  bays := []
  ports := []
  fin := []
  syn := []
  sigs := []
  tasks := []
  taskSeq := 0
  accs := []
  accSeq := 0
  nonce := 0
  ctxReset := none
  ctxDead := []
  ctxResetQ := []
  gx := {}
  rel := {}
  boot := {}
  sec := {}
  dbg := {}
  pwr := {}
  sup := {}
  mgmt := {}

end Sys2Proof.Machine
end

