-- ==== Sys2Proof/Machine/Ops.lean ====
section
/-! DEFINITION. Named operations that every chapter shares: the parts of the state, registers, the log (R526 to R528),
interrupts (R442), messages to the companion (R432, R433), recoveries (R520, R523) and free values. -/

namespace Sys2Proof.Machine

open Sys2Proof

/-! ### Parts of the state -/

/-- Pane instance `i`. -/
def State.pane (s : State) (i : Nat) : Pane := tget (Pane.reset i) s.panes i
/-- Replace pane instance `i`. -/
def State.setPane (s : State) (i : Nat) (p : Pane) : State := { s with panes := tset (Pane.reset i) s.panes i p }
/-- Change pane instance `i`. -/
def State.modPane (s : State) (i : Nat) (f : Pane → Pane) : State := s.setPane i (f (s.pane i))
/-- Bay `b`. -/
def State.bay (s : State) (b : Nat) : Bay := tget {} s.bays b
/-- Replace bay `b`. -/
def State.setBay (s : State) (b : Nat) (x : Bay) : State := { s with bays := tset {} s.bays b x }
/-- Change bay `b`. -/
def State.modBay (s : State) (b : Nat) (f : Bay → Bay) : State := s.setBay b (f (s.bay b))
/-- Port `p`: 0-31 for P0-P31, 32 and 33 for F0 and F1. -/
def State.port (s : State) (p : Nat) : Port := tget {} s.ports p
/-- Replace port `p`. -/
def State.setPort (s : State) (p : Nat) (x : Port) : State := { s with ports := tset {} s.ports p x }
/-- Change port `p`. -/
def State.modPort (s : State) (p : Nat) (f : Port → Port) : State := s.setPort p (f (s.port p))
/-- Sync object `o`. -/
def State.obj (s : State) (o : Nat) : SynObj := tget {} s.syn o
/-- Replace sync object `o`. -/
def State.setObj (s : State) (o : Nat) (x : SynObj) : State := { s with syn := tset {} s.syn o x }
/-- Change the table engine of a bay. -/
def State.modTe (s : State) (b : Nat) (f : Te → Te) : State := s.modBay b (fun x => { x with te := f x.te })
/-- Change the exchange engine of a bay. -/
def State.modXe (s : State) (b : Nat) (f : Xe → Xe) : State := s.modBay b (fun x => { x with xe := f x.xe })
/-- Change the memory controller of a bay. -/
def State.modMem (s : State) (b : Nat) (f : MemCtl → MemCtl) : State := s.modBay b (fun x => { x with mem := f x.mem })
/-- Change the translation unit of a bay. -/
def State.modXlt (s : State) (b : Nat) (f : BayXlt → BayXlt) : State := s.modBay b (fun x => { x with xlt := f x.xlt })
/-- Task `t` of the ready lists. -/
def State.taskOf (s : State) (t : Nat) : Option Task := s.tasks.find? (fun x => x.id == t)
/-- Change task `t`. -/
def State.modTask (s : State) (t : Nat) (f : Task → Task) : State :=
  { s with tasks := s.tasks.map (fun x => if x.id = t then f x else x) }
/-- Remove task `t`: its ready-list entry is free again (R359). -/
def State.dropTask (s : State) (t : Nat) : State := { s with tasks := s.tasks.filter (fun x => x.id != t) }

/-- The bay of a pane instance. -/
def bayOf (i : Nat) : Nat := i / 9
/-- Instances of a bay. -/
def panesOf (b : Nat) : List Nat := (List.range 9).map (fun l => b * 9 + l)
/-- The instance that holds pane number `n` (R16, R543). -/
def State.instOf (s : State) (n : Nat) : Option Nat := (panesOf (n / 8)).find? (fun i => (s.pane i).number == some n)
/-- The device's own chip ID (R540). -/
def State.chip (s : State) : Nat := s.sup.chip

/-- Device time as the blocks of bay `b` read it: their die's copy differs from the control die's by at most 2 ns, and the sample lags
by at most three cycles (R8, R35). Log entry 112, DESIGN CHOICE. -/
def State.bayTime (s : State) (b : Nat) : Nat := s.devTime + Config.dieSkew b % 3 - Config.dieSkew 16 % 3 - Config.sampleLag b % 4

/-! ### Registers -/

/-- The stored value of the register at a window address. -/
def State.reg (s : State) (a : Nat) : Word := tget (regReset a) s.regs a
/-- The stored value as a number. -/
def State.regN (s : State) (a : Nat) : Nat := (s.reg a).toNat
/-- Set the stored value of a register. -/
def State.setReg (s : State) (a : Nat) (v : Nat) : State :=
  { s with regs := tset (regReset a) s.regs a (BitVec.ofNat 32 v) }
/-- Add to a counter register that saturates at 0xFFFF_FFFF. -/
def State.incReg (s : State) (a : Nat) (n : Nat := 1) : State := s.setReg a (satAdd 32 (s.regN a) n)
/-- Set bits [hi:lo] of a register. -/
def State.setField (s : State) (a hi lo v : Nat) : State := s.setReg a (setBits (s.regN a) hi lo v)
/-- A 64-bit value held in a LO and a HI register. -/
def State.reg64 (s : State) (lo hi : Nat) : Nat := s.regN lo + 2 ^ 32 * s.regN hi
/-- Set a 64-bit value held in a LO and a HI register. -/
def State.setReg64 (s : State) (lo hi v : Nat) : State := (s.setReg lo (v % 2 ^ 32)).setReg hi (v / 2 ^ 32)
/-- Add to a 64-bit counter in a LO and a HI register; it saturates. -/
def State.incReg64 (s : State) (lo hi n : Nat) : State := s.setReg64 lo hi (satAdd 64 (s.reg64 lo hi) n)

/-! ### Free values -/

/-- Draw the next free byte (log entry 7, DESIGN CHOICE). -/
def State.freeBytes (s : State) (n : Nat) : List Byte × State :=
  ((List.range n).map (fun k => Config.freeByte (s.nonce + k)), { s with nonce := s.nonce + n })
/-- Draw a choice among `k` (log entry 14, DESIGN CHOICE). -/
def State.pick (s : State) (k : Nat) : Nat × State := (Config.pick s.nonce k % (max k 1), { s with nonce := s.nonce + 1 })

/-! ### Messages -/

/-- Fields of a message header (Table 12-9). -/
def mType (m : List Byte) : Nat := field m 0 1
def mBlen (m : List Byte) : Nat := bits (field m 0 4) 20 8
def mClass (m : List Byte) : Nat := bits (field m 0 4) 22 21
def mHops (m : List Byte) : Nat := bits (field m 0 4) 25 23
def mDchip (m : List Byte) : Nat := bits (field m 4 4) 11 0
def mDbay (m : List Byte) : Nat := bits (field m 4 4) 15 12
def mSchip (m : List Byte) : Nat := bits (field m 4 4) 27 16
def mSbay (m : List Byte) : Nat := bits (field m 4 4) 31 28
def mCtx (m : List Byte) : Nat := field m 8 2
def mTag (m : List Byte) : Nat := field m 10 2
def mSpane (m : List Byte) : Nat := bits (field m 12 4) 6 0
def mSeng (m : List Byte) : Nat := bits (field m 12 4) 10 7
def mStatus (m : List Byte) : Nat := bits (field m 12 4) 14 11
/-- The body of a message. -/
def mBody (m : List Byte) : List Byte := m.drop 16

/-- A message: the header of Table 12-9 and its body. -/
def mkMsg (mtype cls dchip dbay schip sbay ctx tag spane seng status : Nat) (body : List Byte) : List Byte :=
  leBytes 4 (mtype + body.length * 2 ^ 8 + cls * 2 ^ 21)
    ++ leBytes 4 (dchip + dbay * 2 ^ 12 + schip * 2 ^ 16 + sbay * 2 ^ 28)
    ++ leBytes 2 ctx ++ leBytes 2 tag ++ leBytes 4 (spane + seng * 2 ^ 7 + status * 2 ^ 11) ++ body

/-- Is a port Up (Table 12-3)? -/
def State.portUp (s : State) (p : Nat) : Bool := (s.port p).st == 8

/-- The Follux port that bay `b`'s own traffic uses, if the link is up (R432, R445). -/
def State.hostPort (s : State) (b : Nat) : Option Nat :=
  if s.portUp 32 && s.portUp 33 then some (if b < 8 then 32 else 33)
  else if s.portUp 32 then some 32 else if s.portUp 33 then some 33 else none

/-- Queue a message on virtual channel `vc` of port `p`. -/
def State.queueTx (s : State) (p vc : Nat) (m : List Byte) : State :=
  s.modPort p (fun x => { x with txq := x.txq ++ [(vc, 0, m)] })

/-- The lintel to which the die of a port attaches (R21, R576). -/
def portLintel (p : Nat) : Nat := if p < 32 then p / 8 else if p = 32 then 0 else 2

/-- Add an access. -/
def pushAcc (s : State) (a : Access) : State := { s with accs := s.accs ++ [{ a with id := s.accSeq }], accSeq := s.accSeq + 1 }

/-- What bay `b` sends over a lintel for its XE: `op` says nothing to a memory, the remote class is that of messages (R61, R62). Log entry 46, DEDUCED. -/
def parcelOut (b : Nat) (p : Parcel) (len : Nat) : Access :=
  { isPane := false, owner := b, eng := 6, bay := b, op := .msg, len, cls := 2, stage := .reqOut, purpose := .parcel p }

/-- Send a message of bay `b` to the companion on its flow's port, over the lintel of that port's die (R576); with the link down
it is not sent. -/
def State.sendHost (s : State) (b vc : Nat) (m : List Byte) : State :=
  match s.hostPort b with
  | some p => pushAcc s { parcelOut b (.xout vc m) m.length with host := true, dst := p, rim := some (portLintel p) }
  | none => s

/-- A message from bay `b` to the companion (R433: both chips the device's own, class none). -/
def State.hostMsg (s : State) (b mtype ctx tag status : Nat) (body : List Byte) : List Byte :=
  mkMsg mtype 3 s.chip b s.chip b ctx tag 0x7F 8 status body

/-! ### Interrupts (R441, R442) -/

/-- Send the MSI of a pending unmasked vector and clear PEND. The source bay's flow carries it; the control die's is of
bay B0. While the link is down the vector stays pending (R445). Log entry 107, DEDUCED. -/
def sendMsi (s : State) (v : Nat) : State :=
  let ctl := s.regN (Reg.FLX_MSICTL v)
  let b := if v < 48 then v % 16 else 0
  if ctl % 4 = 2 ∧ (s.hostPort b).isSome then
    let body := leBytes 8 (s.reg64 (Reg.FLX_MSIADDR_LO v) (Reg.FLX_MSIADDR_HI v)) ++ leBytes 4 (s.regN (Reg.FLX_MSIDATA v))
      ++ leBytes 4 v
    ((s.sendHost b 0 (s.hostMsg b 0x31 0 0 0 body)).setReg (Reg.FLX_MSICTL v) 0).incReg Reg.FLX_MSISENT
  else s

/-- Raise vector `v`: PEND is set, and the MSI is sent while MASK = 0. Vectors above 50 are never raised. Log entry 107, DEDUCED. -/
def raiseIrq (s : State) (v : Nat) : State :=
  if v ≤ 50 then
    let ctl := s.regN (Reg.FLX_MSICTL v)
    sendMsi (s.setReg (Reg.FLX_MSICTL v) (ctl % 2 + 2)) v
  else s

/-! ### The log (R526 to R528) -/

/-- The class of an event (Table 17-6). -/
def evClass (ev : Nat) : Nat :=
  if ev = 1 ∨ ev = 3 then 1 else if ev = 2 ∨ ev = 4 then 2
  else if ev = 5 ∨ ev = 6 ∨ ev = 7 ∨ ev = 0x16 ∨ ev = 0x17 then 3
  else if ev = 8 ∨ ev = 9 ∨ ev = 0xF ∨ ev = 0x11 ∨ ev = 0x12 then 0
  else if ev = 0x10 then 5 else if ev = 0x13 then 7
  else if ev = 0x14 ∨ ev = 0x15 ∨ ev = 0x18 then 6 else 4

/-- Write a log entry at SEQ mod 8,192 and raise vector 49 when its class is enabled. SEQ counts from 1. -/
def logEvt (s : State) (ev verdict dkind inst addr detail0 detail1 : Nat) : State :=
  let q := s.rel.logSeq + 1
  let e : LogEnt := { time := s.devTime, seq := q, event := ev, cls := evClass ev, verdict, dkind, inst, addr,
                      detail0, detail1 }
  let s := { s with rel := { s.rel with logSeq := q, log := tset none s.rel.log (q % 8192) (some e) } }
  if bit (s.regN Reg.LOG_CTRL) (evClass ev) then raiseIrq s 49 else s

/-- A log entry with no verdict. -/
def logE (s : State) (ev dkind inst addr : Nat) (detail0 : Nat := 0) (detail1 : Nat := 0) : State :=
  logEvt s ev 0 dkind inst addr detail0 detail1

/-! ### Recoveries (R520, R523) -/

/-- Fault domain of a self-test target: its key dkind * 256 + instance (Table 17-1). -/
def Target.dom : Target → Nat
  | .dramRow b _ _ => 3 * 256 + b
  | .dramLane b _ => 3 * 256 + b
  | .spBank i _ => 256 + i
  | .pane i => 256 + i
  | .optLane p _ => 5 * 256 + p
  | .wire l _ => 4 * 256 + l
  | .other k i => k * 256 + i

/-- A target as the ADDR of a log entry: what the target names, in its own small numbering. Log entry 103, DESIGN CHOICE. -/
def Target.addr : Target → Nat
  | .dramRow _ ch row => ch + row * 2 ^ 8
  | .dramLane _ ch => ch
  | .spBank _ bank => bank
  | .pane i => i
  | .optLane p lane => lane + p * 2 ^ 8
  | .wire l g => l + g * 2 ^ 8
  | .other _ i => i

/-- Domain `k`. -/
def State.dom (s : State) (k : Nat) : Dom := tget {} s.rel.doms k
/-- Replace domain `k`. -/
def State.setDom (s : State) (k : Nat) (d : Dom) : State :=
  { s with rel := { s.rel with doms := tset {} s.rel.doms k d } }

/-- The domains that contain domain `k` (Table 17-1). -/
def domParents (k : Nat) : List Nat :=
  let d := k / 256
  let i := k % 256
  if d = 1 then [2 * 256 + i / 9, 8 * 256]
  else if d = 5 then [(if i < 32 then 6 * 256 + i / 4 else 7 * 256 + (i - 32)), 8 * 256]
  else if d = 8 then [] else [8 * 256]

/-- An error joins a waiting or running self-test (R522): it is counted in the log entry of the error that started it. -/
def countJoin (s : State) (r : Recovery) : State :=
  match tget none s.rel.log (r.seq % 8192) with
  | some e =>
    if e.seq = r.seq ∧ (e.event = 1 ∨ e.event = 3) then
      { s with rel := { s.rel with log := tset none s.rel.log (r.seq % 8192) (some { e with detail1 := r.joined + 1 }) } }
    else s
  | none => s

/-- A fault strikes a target: it joins a recovery of the same target (R522), starts one when the domain runs none, is
queued with event 0x0F behind another, or makes a domain reset due: a ninth queued fault (cause 1), or an uncorrectable
error or loss on the resource under recovery (cause 2), which it is from the start of its self-test. While the domain or one that contains it is being reset the fault
is absorbed. Log entry 88, DEDUCED. Log entry 90, DESIGN CHOICE. Log entry 99, DEDUCED. -/
def strike (s : State) (t : Target) (addr why : Nat) (hard : Bool) : State :=
  let k := t.dom
  let d := s.dom k
  if d.resetting || d.due != 0 || (domParents k).any (fun p => (s.dom p).resetting || (s.dom p).due != 0) then s
  else
    let fresh : Recovery := { target := t, addr, joined := 0, phase := 0, seq := s.rel.logSeq, why, start := s.devTime }
    match d.cur with
    | none => s.setDom k { d with cur := some fresh }
    | some r =>
      if r.target = t then
        if hard then (if 1 ≤ r.phase then s.setDom k { d with due := 2 } else s)
        else if r.phase ≤ 1 then countJoin (s.setDom k { d with cur := some { r with joined := r.joined + 1 } }) r
        else s
      else if d.queue.any (fun q => q.target == t) then
        let s := (d.queue.filter (fun q => q.target == t)).foldl countJoin s
        s.setDom k { d with queue := d.queue.map (fun q => if q.target = t then { q with joined := q.joined + 1 } else q) }
      else if 8 ≤ d.queue.length then s.setDom k { d with due := 1 }
      else
        let s := s.setDom k { d with queue := d.queue ++ [fresh] }
        logE s 0x0F (k / 256) (k % 256) t.addr 0 (d.queue.length + 1)

/-- The current recovery of a domain ends and the oldest queued fault of it becomes current (R523). -/
def endRecovery (s : State) (k : Nat) : State :=
  let d := s.dom k
  match d.queue with
  | [] => s.setDom k { d with cur := none }
  | r :: q => s.setDom k { d with cur := some { r with start := s.devTime }, queue := q }

/-! ### Which registers answer s (R484, R505, R548) -/

/-- Have the bays, their memory controllers and the lintels left reset (step 4 of Table 15-5)? -/
def State.baysOn (s : State) : Bool :=
  s.boot.phase == 2 && !s.boot.hold || decide (3 ≤ s.boot.phase ∧ s.boot.phase ≤ 6) || s.boot.phase == 15
/-- Have the window dies and the Follux dies left reset (step 8)? -/
def State.rimOn (s : State) : Bool := decide (3 ≤ s.boot.phase ∧ s.boot.phase ≤ 6)

/-- The pane instance in whose 64 KiB a window address lies. -/
def paneAt (a : Nat) : Option Nat :=
  if 0x01000000 ≤ a ∧ a < 0x02000000 ∧ 0x10000 ≤ a % 0x100000 ∧ a % 0x100000 < 0xA0000 then
    some ((a - 0x01000000) / 0x100000 * 9 + (a % 0x100000 - 0x10000) / 0x10000)
  else none

/-- Is the die or domain that holds a register in reset (R548)? -/
def inReset (s : State) (a : Nat) : Bool :=
  let off := fun (d i : Nat) => (s.dom (d * 256 + i)).resetting
  if a < 0x9000 then false
  else if a < 0x00900000 then !s.rimOn || off 6 ((a - 0x00800000) / 0x1000)
  else if a < 0x01000000 then !s.rimOn || off 7 ((a - 0x00900000) / 0x1000)
  else
    let b := (a - 0x01000000) / 0x100000
    !s.baysOn || off 2 b || (a % 0x100000 / 0x1000 == 3 && off 3 b) || (match paneAt a with | some i => off 1 i | none => false)

/-- Is the register one of a pane that P2 or P3 gates (R548)? -/
def gatedReg (s : State) (a : Nat) : Bool := decide (2 ≤ s.pwr.st ∧ s.pwr.st ≤ 3) && (paneAt a).isSome

/-- May the block's own registers be reached at all before READY (R484): the control die's in P4 (R506); in a recovery boot
the SEC and DBG blocks, and every one of the control die's at Intrude (R477, Table 16-9; log entry 32, DEDUCED)? -/
def earlyOpen (s : State) (a : Nat) : Bool :=
  decide (a < 0x9000) &&
    (s.boot.hold && s.boot.phase == 2 || s.boot.recovery && (decide (0x5000 ≤ a ∧ a < 0x7000) || s.dbg.level == 2))

/-- Is a write to a register of a row of the table served (R484, R505, R530, R548)? During a handover it waits. Log entry 77, DEDUCED. -/
def regOpen (s : State) (a : Nat) : Bool :=
  s.pwr.st != 5 && s.rel.upd != 3 && (s.boot.ready || earlyOpen s a) && !inReset s a && !gatedReg s a

/-- The effect of a write when its register answers, else nothing. Log entry 77, DEDUCED. -/
def whenOpen (s : State) (a : Nat) (t : State) : State := if regOpen s a then t else s

/-- Does a bay attachment of a lintel, or the lintel, carry nothing: its wire group is under test, it has failed, or a mesh
link of the lintel has (R521, R534)? Wire group of bay b's attachment: 2b outward, 2b + 1 inward; 32 and above are mesh
links. Log entry 103, DESIGN CHOICE. -/
def linkSkipped (s : State) (lintel g : Nat) : Bool :=
  (s.dom (4 * 256 + lintel)).resetting
    || s.rel.failedLinks.any (fun x => x.1 == lintel && (x.2 == g || decide (32 ≤ x.2)))
    || (match (s.dom (4 * 256 + lintel)).cur with | some r => r.target == .wire lintel g && r.phase == 1 | none => false)

/-- Is a scratchpad bank held out by its self-test (R521)? -/
def bankTested (s : State) (i bank : Nat) : Bool :=
  match (s.dom (256 + i)).cur with | some r => r.target == .spBank i bank && r.phase == 1 | none => false

/-- May panes run and dispatchers decide: P0 or P1, with no transition to P2 running (R505, Table 16-6)? -/
def State.running (s : State) : Bool :=
  decide (s.pwr.st ≤ 1) && !(s.pwr.moving && s.pwr.st == 1 && decide (2 ≤ s.pwr.target ∧ s.pwr.target ≤ 3))

/-- `DETAIL0` of a log entry: a code and a context ID. -/
def detail (code ctx : Nat) : Nat := code + ctx * 2 ^ 8

/-- Lower a bay's array clock target: the lowest of the power state's request, the junction's and the stack's limits
(R316). Log entry 75, DEDUCED. -/
def clkTarget (x : Bay) : Nat := min x.clkPwr (min x.clkJct x.mem.clkLimit)

end Sys2Proof.Machine
end

