-- ==== Sys2Proof/Machine/Memory.lean ====
section
/-! DEFINITION. The memory side of every access: the address map (R289, R290), the check code (R296, R297), the checks a
controller makes (R311 to R313, R337, R338, R578) and reads and writes of local memory. -/

namespace Sys2Proof.Machine

open Sys2Proof

/-- Why an operation stops before its effect: a fault of the task; a page fault (context, cause, level, address, companion page,
write); lines or translations that it lacks and that are read first (R55); a line the companion holds, which its controller
snoops first (R434); a wait for something else. In every case but the first the step is presented again (log entry 6, DESIGN
CHOICE). -/
inductive Stop where
  | flt (f : Flt)
  | page (ctx cause lvl va hpa : Nat) (wr : Bool)
  | need (ns : List Need)
  | snoop (b line : Nat)
  | wait
deriving DecidableEq, Repr

/-- An operation over the state that may stop; what it did before it stopped stays in the state. Log entry 6, DESIGN CHOICE. -/
abbrev Mc := ExceptT Stop (StateM State)

/-- Stop with a fault code. -/
def fault {α : Type} (code : Nat) (addr : Nat := 0) : Mc α := throw (.flt { code, addr })
/-- Stop with a fault code when a rule is broken. -/
def failIf (p : Bool) (code : Nat) (addr : Nat := 0) : Mc Unit := if p then fault code addr else pure ()
/-- Run an operation. -/
def runMc {α : Type} (m : Mc α) (s : State) : Except Stop α × State := m.run.run s

/-! ### The address map (R289, R290, R291) -/

/-- C: the capacity of a channel in bytes (R287). -/
def chanBytes : Nat := 17166 * 64 * 2048

/-- The region that holds a local address. -/
def regionOf (s : State) (pa : Nat) : Option Region := s.regions.find? (fun r => r.base ≤ pa && pa < r.base + r.size)

/-- Per-channel extent of a region in stack `st`; 0 when the region does not use the stack (Table 9-1). -/
def extentIn (r : Region) (st : Nat) : Nat :=
  if r.kind = 2 then (if r.stack = st then r.size / 32 else 0) else r.size / 512

/-- Channel base of a region in a stack: extents of the earlier regions, in region order. -/
def chBase (st : Nat) (base : Nat) : List Region → Nat
  | [] => 0
  | r :: rs => if r.base = base then 0 else extentIn r st + chBase st base rs

/-- Where a local physical address lies: stack, channel, channel offset (R290). -/
def mapAddr (s : State) (pa : Nat) : Option (Nat × Nat × Nat) :=
  match regionOf s pa with
  | none => none
  | some r =>
    let off := pa - r.base
    let pn := off / 4096
    let k := off / 512 % 8
    let (st, q, j) :=
      if r.kind = 0 then (Nat.xor (pn % 16) (pn / 64 % 16), Nat.xor (pn / 16 % 4) (pn / 1024 % 4), pn / 64)
      else if r.kind = 1 then
        let part := off / (r.size / 16)
        let pp := pn - part * (r.size / 65536)
        (part, Nat.xor (pp % 4) (pp / 4 % 4), pp / 4)
      else (r.stack, Nat.xor (pn % 4) (pn / 4 % 4), pn / 4)
    some (st, 8 * q + k, chBase st r.base s.regions + 512 * j + off % 512)

/-- The row of a channel offset: its 2 KiB run and its pseudo-channel (R291), as run * 2 + pseudo-channel. -/
def rowOf (off : Nat) : Nat := off / 2048 * 2 + off / 32 % 2

/-- C / 32: the bytes of a band (R287). -/
def bandBytes : Nat := chanBytes / 32

/-- The channels of a stack but one, ascending. -/
def survivors (ch : Nat) : List Nat := (List.range 32).filter (· != ch)

/-- The new place of an offset of a removed channel: band b lies in band 31 of the b-th survivor (R311). -/
def movedTo (ch off : Nat) : Nat × Nat :=
  let band := off / bandBytes
  ((survivors ch).getD band 0, off + (31 - band) * bandBytes)

/-- Has a granule of 512 bytes left the failed channel: the channel is removed, or can be read and the evacuation copy has
passed the granule (R311)? -/
def hasMoved (m : MemCtl) (ch off : Nat) : Bool :=
  m.removed == some ch || match m.evac with
    | some (c, lost, copying) => c == ch && !lost && copying && decide (off / 512 < m.evacPos / 8)
    | none => false

/-- Is a granule being copied: a request for it waits (R311)? -/
def beingCopied (m : MemCtl) (ch off : Nat) : Bool :=
  match m.evac with
  | some (c, lost, copying) => c == ch && !lost && copying && off / 512 == m.evacPos / 8 && (m.evacPos % 8 != 0 || m.evacHeld)
  | none => false

/-- Where a local address is served, which for a removed channel's bands is in the survivors (R311): stack, channel, offset. -/
def servedAt (s : State) (pa : Nat) : Option (Nat × Nat × Nat) :=
  match mapAddr s pa with
  | none => none
  | some (st, ch, off) =>
    if hasMoved (s.bay st).mem ch off then some (st, movedTo ch off) else some (st, ch, off)

/-- The local address whose home is a channel offset of a stack (the inverse of R290). -/
def homeAt (s : State) (st ch off : Nat) : Option Nat :=
  match s.regions.find? (fun r => chBase st r.base s.regions ≤ off && off < chBase st r.base s.regions + extentIn r st) with
  | none => none
  | some r =>
    let o := off - chBase st r.base s.regions
    let j := o / 512
    let q := ch / 8
    let pn :=
      if r.kind = 0 then j * 64 + Nat.xor q (j / 16 % 4) * 16 + Nat.xor st (j % 16)
      else if r.kind = 1 then st * (r.size / 65536) + j * 4 + Nat.xor q (j % 4)
      else j * 4 + Nat.xor q (j % 4)
    some (r.base + pn * 4096 + ch % 8 * 512 + o % 512)

/-- The local address that a channel offset of a stack holds: in a survivor's band 31 that of the removed channel (R311). -/
def addrAt (s : State) (st ch off : Nat) : Option Nat :=
  match (s.bay st).mem.removed with
  | some r =>
    if ch = r then none
    else if 31 * bandBytes ≤ off then
      let band := ((survivors r).idxOf? ch).getD 31
      homeAt s st r (off - (31 - band) * bandBytes)
    else homeAt s st ch off
  | none => homeAt s st ch off

/-! ### The check code (R297) -/

/-- Position p(i) of data bit i: the (i + 1)th integer from 3 upward that is not a power of two. -/
def codePos : List Nat :=
  [3, 5, 6, 7, 9, 10, 11, 12, 13, 14, 15, 17, 18, 19, 20, 21, 22, 23, 24, 25, 26, 27, 28, 29, 30, 31, 33, 34, 35, 36, 37, 38]

/-- Syndrome of a pattern of flipped stored bits: data bits 0-31, then check bits c0-c6. -/
def syndrome (flips : Nat) : Nat :=
  let d := (codePos.zipIdx).foldl (fun a x => if bit flips x.2 then Nat.xor a x.1 else a) 0
  Nat.xor d (flips / 2 ^ 32 % 64)

/-- What reading a word with these flipped bits delivers: none when uncorrectable, else the flips left in the data and
whether an error was corrected. -/
def eccRead (flips : Nat) : Option (Nat × Bool) :=
  let sy := syndrome flips
  let z := popcount 39 flips % 2
  let d := flips % 2 ^ 32
  if z = 0 then (if sy = 0 then some (d, false) else none)
  else if sy = 0 ∨ sy = 1 ∨ sy = 2 ∨ sy = 4 ∨ sy = 8 ∨ sy = 16 ∨ sy = 32 then some (d, true)
  else if 38 < sy then none
  else match codePos.idxOf? sy with
    | some i => some (Nat.xor d (2 ^ i), true)
    | none => none

/-! ### Reads and writes of the stored bytes -/

/-- Raw bytes of a byte table. Log entry 9, DESIGN CHOICE. -/
def rawRead (t : Tbl Byte) (d : Byte) (a n : Nat) : List Byte := (List.range n).map (fun k => tget d t (a + k))
/-- Write bytes into a byte table. -/
def rawWrite (t : Tbl Byte) (d : Byte) (a : Nat) (bs : List Byte) : Tbl Byte :=
  tsetAll d t (bs.mapIdx (fun k b => (a + k, b)))

/-- Word addresses that a range of bytes touches. -/
def wordsIn (a n : Nat) : List Nat :=
  if n = 0 then [] else (List.range ((a + n - 1) / 4 - a / 4 + 1)).map (fun k => (a / 4 + k) * 4)

/-- The delivered bytes of a protected store: errors corrected, undetected flips applied. -/
def eccBytes (t : Tbl Byte) (errs : Tbl Nat) (a n : Nat) : List Byte :=
  (List.range n).map (fun k =>
    let x := a + k
    let v := tget 0 t x
    let f := tget 0 errs (x / 4 * 4)
    if f = 0 then v else match eccRead f with
      | some (d, _) => v ^^^ BitVec.ofNat 8 (d / 2 ^ (8 * (x % 4)))
      | none => v)

/-- Words of a protected store rewritten through the code: a word that reads is stored as read, with valid check bits; an
uncorrectable one stays as it is (R300). Log entry 89, DEDUCED. -/
def healWords (t : Tbl Byte) (errs : Tbl Nat) (ws : List Nat) : Tbl Byte × Tbl Nat :=
  ws.foldl (fun (x : Tbl Byte × Tbl Nat) w =>
    if (eccRead (tget 0 x.2 w)).isSome then (rawWrite x.1 0 w (eccBytes x.1 x.2 w 4), tdel x.2 w) else x) (t, errs)

/-- A stored-bit table with the words that a write covers cleared (R298). -/
def eccClear (errs : Tbl Nat) (a n : Nat) : Tbl Nat := (wordsIn a n).foldl tdel errs

/-- Stored-bit flips that a disturbance makes: word address and mask, each added to what the word already has. Log entry 15, DESIGN CHOICE. -/
def eccUpset (errs : Tbl Nat) (us : List (Nat × Nat)) : Tbl Nat :=
  us.foldl (fun t u => tset 0 t (u.1 / 4 * 4) (Nat.xor (tget 0 t (u.1 / 4 * 4)) (u.2 % 2 ^ 39))) errs

/-- Flips of the APAR bits of beats: bits 39 and 40 of a disturbance's mask, APAR0 and APAR1 of the beat that holds the word
(Table 9-3). Log entry 15, DESIGN CHOICE. -/
def aparUpset (mis : Tbl Nat) (us : List (Nat × Nat)) : Tbl Nat :=
  us.foldl (fun t u => tset 0 t (u.1 / 8 * 8) (Nat.xor (tget 0 t (u.1 / 8 * 8)) (u.2 / 2 ^ 39 % 4))) mis

/-- The bay whose stack holds a local address (0 when no region does). -/
def bayOfPa (s : State) (pa : Nat) : Nat := match mapAddr s pa with | some (b, _, _) => b | none => 0

/-- Does an offset lie at or above a lowered ceiling (R311, R312)? -/
def aboveCeiling (m : MemCtl) (off : Nat) : Bool :=
  decide (31 * bandBytes ≤ off) && (m.removed.isSome || match m.evac with | some (_, _, c) => c | none => false)

/-- Is a local address in no region, or at or above a lowered ceiling: a system access there is not made (R578)? -/
def outOfMap (s : State) (pa : Nat) : Bool :=
  match mapAddr s pa with
  | none => true
  | some (b, _, off) => aboveCeiling (s.bay b).mem off

/-- The first reason that keeps a controller from serving a local address: no region, or at or above the ceiling that a removal
during bring-up lowered without vacating a page (R481), 0x83; a refused or vacated page 0x82 (R306, R311, R312); a lost channel
0x84, at home or where its granule has moved (R313, R314, R318). In P3 every access to local memory is refused with 0xB2
(R505); while its stack's domain is being reset it faults with 0xE0 (R524). Log entry 48, DEDUCED. Log entry 138, DEDUCED. -/
def paRefusal (s : State) (pa : Nat) : Option Nat :=
  if 3 ≤ s.pwr.st ∧ s.boot.ready then some 0xB2
  else match mapAddr s pa, servedAt s pa with
  | some (b, ch, off), some (_, c, _) =>
    let m := (s.bay b).mem
    if m.resetting then some 0xE0
    else if aboveCeiling m off && m.removed.isSome && m.evacPos == 0 then some 0x83
    else if m.refused.contains (pa / 4096) || aboveCeiling m off then some 0x82
    else if m.lost.contains c || m.lost.contains ch && m.removed != some ch then some 0x84
    else none
  | _, _ => some 0x83

/-- The companion directory's entry of a line. -/
def dirLine (s : State) (b line : Nat) : Option DirLine := (s.bay b).dir.find? (fun d => d.line == line)

/-- Lines that a range touches. -/
def linesIn (a n : Nat) : List Nat :=
  if n = 0 then [] else (List.range ((a + n - 1) / 64 - a / 64 + 1)).map (fun k => (a / 64 + k) * 64)

/-- Count, log and test what a read of local memory met (R299 to R301): the state after, and the fault if the access
fails. Misdirected beats decide first, then uncorrectable words, lowest address first. `hard`: an uncorrectable word of the row under
recovery makes its domain's reset due (R523), which the copy of a row being remapped does not (Table 9-12). Log entry 106, DEDUCED. -/
def readErrors (s : State) (pa n ctx chip : Nat) (hard : Bool := true) : State × Option Flt :=
  if s.dramErr.isEmpty && s.dramMis.isEmpty then (s, none)
  else
    let ws := wordsIn pa n
    let mis := ws.filter (fun w => tget 0 s.dramMis (w / 8 * 8) != 0)
    let bad := ws.filter (fun w => !mis.contains w && (eccRead (tget 0 s.dramErr w)).isNone)
    let cor := ws.filter (fun w => !mis.contains w && (match eccRead (tget 0 s.dramErr w) with | some (_, c) => c | none => false))
    let tgt := fun w => match servedAt s w with
      | some (b, ch, off) => Target.dramRow b ch (rowOf off)
      | none => Target.other 8 0
    let s := cor.foldl (fun s w =>
      let s := s.incReg (Reg.MEM_CECNT (bayOfPa s w))
      let joins := match (s.dom (tgt w).dom).cur with | some r => decide (r.target = tgt w ∧ r.phase ≤ 1) | none => false
      let s := if joins then s else logE s 0x01 3 (bayOfPa s w) w (detail 0 ctx)
      strike s (tgt w) w 0 false) s
    let fails := mis ++ bad
    match fails with
    | [] => (s, none)
    | w0 :: _ =>
      let code := if mis.isEmpty then 0x80 else 0x81
      let a := if mis.isEmpty then w0 else w0 / 8 * 8
      let b := bayOfPa s w0
      let ch := match servedAt s w0 with | some (_, c, _) => c | none => 0
      let s := s.incReg (Reg.MEM_UECNT b) fails.length
      let s := (s.setReg (Reg.MEM_UEADDR_LO b) (a % 2 ^ 32)).setReg (Reg.MEM_UEADDR_HI b) (a / 2 ^ 32 % 2 ^ 20 + ch * 2 ^ 20)
      let s := logE s 0x02 3 b a (detail code ctx) chip
      let rows := (fails.map tgt).eraseDups
      (rows.foldl (fun s t => strike s t a 0 hard) s, some { code, addr := a })

/-- Read bytes of local memory at the controller, in the slot that serves them: refusals, the companion
directory (R434: an Owned line is snooped first), then the check code. -/
def memRead (pa n ctx : Nat) (chip : Nat := 0) : Mc (List Byte) := do
  let s ← get
  match ((linesIn pa n).filterMap (fun l => (paRefusal s l).map (fun c => (c, if l < pa then pa else l)))).head? with
  | some (c, a) => fault c a
  | none =>
    match (linesIn pa n).find? (fun l => match dirLine s (bayOfPa s l) l with | some d => d.owned | none => false) with
    | some l => throw (.snoop (bayOfPa s l) l)
    | none =>
      let (s', f) := readErrors s pa n ctx chip
      set s'
      match f with
      | some f => throw (.flt f)
      | none => pure (eccBytes s'.dram s'.dramErr pa n)

/-- Store bytes in local memory with valid check bits: errors of the words written go; a beat's APAR is written when both
its words are (R292, R296, R298). Log entry 106, DEDUCED. -/
def storeBytes (s : State) (pa : Nat) (bs : List Byte) : State :=
  let ws := wordsIn pa bs.length
  let beats := (ws.filter (fun w => w % 8 = 0 && ws.contains (w + 4)))
  { s with dram := rawWrite s.dram 0 pa bs, dramErr := eccClear s.dramErr pa bs.length,
           dramMis := beats.foldl tdel s.dramMis }

/-- Write bytes of local memory at the controller, in the slot that serves them: refusals, the companion directory (a Shared or Owned line is snooped
first), then the store. -/
def memWrite (pa : Nat) (bs : List Byte) : Mc Unit := do
  let s ← get
  match ((linesIn pa bs.length).filterMap (fun l => (paRefusal s l).map (fun c => (c, if l < pa then pa else l)))).head? with
  | some (c, a) => fault c a
  | none =>
    match (linesIn pa bs.length).find? (fun l => (dirLine s (bayOfPa s l) l).isSome) with
    | some l => throw (.snoop (bayOfPa s l) l)
    | none => set (storeBytes s pa bs)

/-- The local part of a physical address. -/
def localPa (pa : Nat) : Nat := pa % 2 ^ 52

/-! ### Lines that an operation reads first (R55, R62, R577)

An operation that reads structures in memory is presented until the lines it needs have come: each is an access of its own,
carried in the slots of the engine that makes it (log entry 6, DESIGN CHOICE). -/

/-- Who the access of a need answers to. -/
def Need.purpose (n : Need) : Purpose :=
  match n.probe with
  | none => .fetch n.w
  | some wr => .probe n.w wr

/-- Does an access answer a need? -/
def Need.answeredBy (n : Need) (a : Access) : Bool :=
  a.purpose == n.purpose && a.ctx == n.ctx && a.va == n.va && a.sys == n.sys

/-- What came for a need. -/
def State.came (s : State) (n : Need) : Option Access := s.accs.find? (fun a => a.stage == .got && n.answeredBy a)

/-- How an access that came stops the operation that needed it, if it does. -/
def Access.stop (a : Access) (wr : Bool) : Option Stop :=
  match a.pg, a.flt with
  | some (cause, lvl, hpa), _ => some (.page a.ctx cause lvl a.va hpa wr)
  | none, some f => some (.flt f)
  | none, none => none

/-- The bytes of a range, line by line in address order: lines that have not come are asked for. Log entry 6, DESIGN CHOICE. -/
def readLines (w : Who) (ctx : Nat) (sys : Bool) (a n : Nat) : Mc (List Byte) := do
  let s ← get
  let ns : List Need := (linesIn a n).map (fun l => { w, ctx, va := l, sys })
  match ns.filter (fun x => (s.came x).isNone) with
  | m :: ms => throw (.need (m :: ms))
  | [] =>
    let as := ns.filterMap s.came
    match as.findSome? (fun x => x.stop false) with
    | some e => throw e
    | none => pure (((as.flatMap (·.data)).drop (a % 64)).take n)

/-- A system read by physical address (Table 10-1). -/
def sysRead (w : Who) (pa n : Nat) : Mc (List Byte) := readLines w 0 true (localPa pa) n

/-- A read by virtual address for a context (R321). Log entry 6, DESIGN CHOICE. -/
def vaRead (w : Who) (ctx va n : Nat) : Mc (List Byte) := readLines w ctx false va n

/-- What `w` has read is used up. -/
def dropNeeds (s : State) (w : Who) : State :=
  { s with accs := s.accs.filter (fun a => !(a.purpose == .fetch w || a.purpose == .probe w false || a.purpose == .probe w true)) }

/-- Whose slots the accesses of `w` use: a pane number, or a bay; the engine; the bay that issues them (R56, R62, R577). System
accesses of a bay's units use its walker's slots. -/
def Who.slots (s : State) (w : Who) (sys : Bool) (pa : Nat) : Bool × Nat × Nat × Nat :=
  match w with
  | .cmd i eng => if sys then (false, i / 9, 8, i / 9)
    else if eng < 5 then (true, (s.pane i).number.getD 0, eng, i / 9) else (false, i / 9, eng, i / 9)
  | .start i _ => (false, i / 9, 8, i / 9)
  | .sw i => (true, (s.pane i).number.getD 0, 4, i / 9)
  | .bay b (.land _) => (false, b, if sys then 8 else 6, b)
  | .bay b _ => (false, b, 8, b)
  | .te b _ => (false, b, if sys then 8 else 5, b)
  | .ctl _ => (false, bayOfPa s pa, 8, bayOfPa s pa)

/-- An access of `w`. -/
def Who.access (s : State) (w : Who) (ctx : Nat) (sys : Bool) (op : AccOp) (va pa len : Nat) (data : List Byte) (purpose : Purpose) :
    Access :=
  let (isPane, owner, eng, home) := w.slots s sys pa
  { isPane, owner, eng, bay := home, ctx, sys, op, va, pa, len, data, cls := if op = .read then 0 else 1, purpose
    stage := if !sys then .xlate else if bayOfPa s pa = home then .chan else .reqOut }

/-- A system access outside the map, or at or above a lowered ceiling, is not made and is logged (R578). -/
def notMade (s : State) (bay pa : Nat) : State := logE s 0x18 2 bay pa (detail 0x83 0)

/-- Ask for a line, or a translation, unless it is asked for already. A translation that came and is gone again is asked for
anew. -/
def postNeed (s : State) (n : Need) : State :=
  match s.accs.find? n.answeredBy with
  | some a =>
    if n.probe.isSome ∧ a.stage = .got then
      { s with accs := s.accs.map (fun x => if x.id = a.id then { x with stage := .xlate, flt := none, pg := none } else x) }
    else s
  | none =>
    let a := n.w.access s n.ctx n.sys .read n.va (if n.sys then n.va else 0) (if n.probe.isSome then 0 else 64) [] n.purpose
    if n.sys && outOfMap s n.va then
      pushAcc (notMade s a.bay n.va) { a with stage := .got, flt := some { code := 0x83, addr := n.va } }
    else pushAcc s a

/-- Ask for what an operation lacks. Log entry 6, DESIGN CHOICE. -/
def postNeeds (s : State) (ns : List Need) : State := ns.foldl postNeed s

/-- Post a system write by physical address, line by line; outside the map nothing is written (R578). `put` is who hears of its
end. Log entry 113, DESIGN CHOICE. -/
def sysPost (s : State) (w : Who) (pa : Nat) (bs : List Byte) (put : Purpose := .none) : State :=
  let pa := localPa pa
  (linesIn pa bs.length).foldl (fun s l =>
    let lo := max l pa
    let n := min (l + 64) (pa + bs.length) - lo
    let a := w.access s 0 true .write lo lo n ((bs.drop (lo - pa)).take n) put
    if outOfMap s lo then notMade s a.bay lo else pushAcc s a) s

/-- Run an operation of a unit: what it lacks is asked for and it is presented again; when it ends, what it read is used up. A
fault or a page fault is handed on. -/
def runUnit (s : State) (w : Who) (m : Mc Unit) (onStop : Stop → State → State) : State :=
  match runMc m s with
  | (.ok _, s') => dropNeeds s' w
  | (.error (.need ns), _) => postNeeds s ns
  | (.error .wait, _) => s
  | (.error e, s') => onStop e (dropNeeds s' w)

/-! ### Context checks (R337 to R339) -/

/-- The owner of a local page, read through the controller's owner cache; a missing line is read in the walker's slots of the
bay, and one that fails is not cached (R339). Log entry 14, DESIGN CHOICE. -/
def ownerOf (page : Nat) : Mc Nat := do
  let s ← get
  let b := bayOfPa s (page * 4096)
  if !(bit (s.regN (Reg.XLT_OTCTRL b)) 0) then pure 0
  else if s.regN (Reg.XLT_OTLIMIT b) ≤ page then pure 0xFFFF
  else
    let line := page / 32
    match tget [] (s.bay b).xlt.oc line with
    | [] =>
      let w : Who := .bay b (.owner line)
      let a := localPa (s.reg64 (Reg.XLT_OTBASE_LO b) (Reg.XLT_OTBASE_HI b) + 64 * line)
      match (s.came { w, ctx := 0, va := a, sys := true }).bind (·.flt) with
      | some f => do
        set (dropNeeds s w)
        throw (.flt f)
      | none => pure ()
      let bs ← sysRead w a 64
      modify (fun s =>
        let s := dropNeeds s w
        let oc := (s.bay b).xlt.oc
        let (k, s) := s.pick oc.length
        let oc := if oc.length < 1024 then oc else tdel oc ((oc.map (·.1)).getD k 0)
        s.modXlt b (fun x => { x with oc := tset [] oc line bs }))
      pure (field bs (2 * (page % 32)) 2)
    | bs => pure (field bs (2 * (page % 32)) 2)

/-- The controller admits an access only for the page's owner, the old one of an access accepted before a kind-3 acknowledgement (Table 10-11);
a failure is counted and logged (R338). Log entry 139, DEDUCED. -/
def checkOwner (ctx pa : Nat) (old : Option Nat := none) : Mc Unit := do
  let o ← match old with
    | some o => pure o
    | none => ownerOf (pa / 4096)
  if o = ctx ∧ o ≠ 0xFFFF then pure ()
  else
    modify (fun s => logE (s.incReg (Reg.XLT_CTXFAIL (bayOfPa s pa))) 0x15 3 (bayOfPa s pa) pa (detail 0x93 ctx) 0x93)
    fault 0x93 pa

/-- A context's read at local memory. -/
def ctxRead (ctx pa n : Nat) (chip : Nat := 0) (old : Option Nat := none) : Mc (List Byte) := do
  let s ← get
  match paRefusal s pa with
  | some c => fault c pa
  | none =>
    checkOwner ctx pa old
    memRead pa n ctx chip

/-- A context's write at local memory. -/
def ctxWrite (ctx pa : Nat) (bs : List Byte) (old : Option Nat := none) : Mc Unit := do
  let s ← get
  match paRefusal s pa with
  | some c => fault c pa
  | none =>
    checkOwner ctx pa old
    memWrite pa bs

/-- Runs of 32-bit words in a mask of sixteen: first word and count. -/
def maskRuns (mask : Nat) : List (Nat × Nat) :=
  (List.range 16).foldl (fun (rs : List (Nat × Nat)) k =>
    if !bit mask k then rs
    else if k ≠ 0 ∧ bit mask (k - 1) then rs.dropLast ++ (rs.getLast?.map (fun r => (r.1, r.2 + 1))).toList
    else rs ++ [(k, 1)]) []

/-- A context's write of the words of a mask in a 64-byte line: one owner check, then the store. -/
def ctxWriteM (ctx pa mask : Nat) (bs : List Byte) (old : Option Nat := none) : Mc Unit := do
  let s ← get
  match paRefusal s pa with
  | some c => fault c pa
  | none =>
    checkOwner ctx pa old
    for (o, n) in maskRuns mask do memWrite (pa + 4 * o) ((bs.drop (4 * o)).take (4 * n))

/-- Send a snoop of a line unless one is outstanding, and count it (R434). -/
def sendSnoop (s : State) (b line : Nat) : State :=
  if (s.bay b).snoops.any (fun x => x.line == line) then s
  else
    let tag := (s.bay b).xe.tagSeq
    let s := s.modXe b (fun x => { x with tagSeq := (x.tagSeq + 1) % 65536 })
    let s := s.modBay b (fun x => { x with snoops := x.snoops ++ [{ line, sent := s.devTime, tag }] })
    (s.incReg Reg.FLX_SNP).sendHost b 2 (s.hostMsg b 0x27 0 tag 0 (leBytes 8 line))

end Sys2Proof.Machine
end

