-- ==== Sys2Proof/Machine/Xlat.lean ====
section
/-! DEFINITION. Translation: page-table entries (R323 to R327), the TLB and the walk cache (R328, R331), writes by virtual
address, and the data side of the fault queue (R343 to R346). -/

namespace Sys2Proof.Machine

open Sys2Proof

/-- Size of a page mapped at a level, as a power of two. -/
def lvlShift (lvl : Nat) : Nat := 39 - 9 * lvl

/-- Fields of a valid entry (Table 10-2). -/
def eV (e : Nat) : Bool := bit e 0
def eW (e : Nat) : Bool := bit e 1
def eL (e : Nat) : Bool := bit e 2
def eDev (e : Nat) : Bool := bit e 3
def eHost (e : Nat) : Bool := bit e 4
def eRun (e : Nat) : Nat := bits e 7 5
def ePa (e : Nat) : Nat := bits e 51 12 * 4096
def eChip (e : Nat) : Nat := bits e 63 52
/-- WALK of an invalid entry (Table 10-3). -/
def eWalk (e : Nat) : Nat := bits e 2 1

/-- Is an entry met at a level malformed (R325)? -/
def malformed (lvl e : Nat) : Bool :=
  if eV e then
    bit e 8 || (lvl == 0 && eL e) || (eHost e && eChip e != 0) || ((lvl == 3 || eL e) && eRun e == 7)
  else bits e 11 4 != 0 || bits e 63 52 != 0 || eWalk e == 3 || (eWalk e == 2 && lvl != 3)

/-- Is a valid entry a leaf at its level? -/
def isLeaf (lvl e : Nat) : Bool := lvl == 3 || (lvl != 0 && eL e)

/-- Where a translation leads: local memory, another device, or companion memory. -/
inductive Tgt where
  | loc (pa : Nat)
  | dev (pa : Nat)
  | host (pa : Nat)
deriving DecidableEq, Repr

/-- The target of a leaf for an address. Log entry 27, DEDUCED. -/
def leafTgt (s : State) (lvl leaf va : Nat) : Tgt :=
  let sz := 2 ^ lvlShift lvl
  let pa := ePa leaf / sz * sz + va % sz
  if eHost leaf then .host pa else if eChip leaf = s.chip then .loc pa else .dev (pa + eChip leaf * 2 ^ 52)

/-- Check an access of a context against a leaf and give its target (R331): DEV = 0 first, then a write with W = 0. -/
def useLeaf (ctx lvl leaf va : Nat) (wr : Bool) : Mc Tgt := do
  let s ← get
  if !eDev leaf then throw (.page ctx 4 lvl va 0 wr)
  else if wr && !eW leaf then throw (.page ctx 3 lvl va 0 wr)
  else pure (leafTgt s lvl leaf va)

/-- Does a TLB entry cover an address of a context? -/
def tlbCovers (t : TlbEnt) (ctx va : Nat) : Bool :=
  t.ctx == ctx && t.vpn ≤ va / 2 ^ lvlShift t.lvl && va / 2 ^ lvlShift t.lvl < t.vpn + 2 ^ t.run

/-- The leaf of one page of a run: PA ascends by one page per entry (R327). -/
def runLeaf (t : TlbEnt) (va : Nat) : Nat := t.leaf + (va / 2 ^ lvlShift t.lvl - t.vpn) * 2 ^ lvlShift t.lvl

/-- Put a leaf into the bay's TLB as the run it belongs to; a full TLB replaces an entry of the device's choice (R331). Log entry 14, DESIGN CHOICE. -/
def tlbFill (s : State) (b ctx lvl va leaf : Nat) : State :=
  let r := if eHost leaf then 0 else eRun leaf
  let vp := va / 2 ^ lvlShift lvl
  let first := vp / 2 ^ r * 2 ^ r
  let e : TlbEnt := { ctx, lvl, run := r, vpn := first, leaf := leaf - (vp - first) * 2 ^ lvlShift lvl }
  let tlb := (s.bay b).xlt.tlb.filter (fun t => !tlbCovers t ctx va)
  let (k, s) := s.pick tlb.length
  let tlb := if tlb.length < 4096 then tlb else tlb.eraseIdx k
  s.modXlt b (fun x => { x with tlb := e :: tlb })

/-- Put a non-leaf entry into the walk cache (R328). Log entry 14, DESIGN CHOICE. -/
def wcFill (s : State) (b ctx lvl va entry : Nat) : State :=
  let p := va / 2 ^ lvlShift lvl
  let wc := (s.bay b).xlt.wc.filter (fun w => !(w.ctx == ctx && w.lvl == lvl && w.pfx == p))
  let (k, s) := s.pick wc.length
  let wc := if wc.length < 512 then wc else wc.eraseIdx k
  s.modXlt b (fun x => { x with wc := { ctx, lvl, pfx := p, entry } :: wc })

/-- A context record (Table 2-1) in the bay's context table. -/
def ctxRecordAt (s : State) (b ctx : Nat) : Nat := localPa (s.reg64 (Reg.BAY_CTXBASE_LO b) (Reg.BAY_CTXBASE_HI b) + 128 * ctx)

/-- PTROOT of a context whose task runs in the bay, as its record held it when the task started (R39). -/
def rootOf (s : State) (b ctx : Nat) : Option Nat :=
  ((List.range 9).map (b * 9 + ·)).findSome? (fun i =>
    if (s.pane i).task.isSome ∧ (s.pane i).ctx = ctx then some (s.pane i).root else none)

/-- A new walk of a page (R328): it starts below the deepest entry that the walk cache supplies, else at the root, which a
context with no task in the bay has in its record. -/
def walkStart (s : State) (b ctx va : Nat) (wr : Bool) : Walk :=
  let page := va / 4096 * 4096
  let hit := fun lvl => (s.bay b).xlt.wc.find? (fun w => w.ctx == ctx && w.lvl == lvl && w.pfx == va / 2 ^ lvlShift lvl)
  match [2, 1, 0].filterMap (fun l => (hit l).map (fun w => (l + 1, ePa w.entry))), rootOf s b ctx with
  | (lvl, tbl) :: _, _ => { ctx, va := page, wr, lvl, tbl, stale := false, host := none }
  | [], some r => { ctx, va := page, wr, lvl := 0, tbl := localPa r, stale := false, host := none }
  | [], none => { ctx, va := page, wr, lvl := 0, tbl := 0, stale := false, host := none, root := true }

/-- Address of the word that a walk reads next: PTROOT of the context record, or the entry of its table. -/
def walkAddr (s : State) (b : Nat) (w : Walk) : Nat :=
  if w.root then ctxRecordAt s b w.ctx + 16 else localPa w.tbl + 8 * (w.va / 2 ^ lvlShift w.lvl % 512)

/-- The line that holds it, read in the bay's walker slots (R328). -/
def walkNeed (s : State) (b : Nat) (w : Walk) : Need :=
  { w := .bay b (.walk w.ctx w.va), ctx := 0, va := walkAddr s b w / 64 * 64, sys := true }

/-- What the entry that a walk has read leads to (R328): the next level's table, a leaf, a page fault (cause and companion page),
a walk by the companion, or a malformed entry. -/
inductive WalkEnd where
  | table (tbl : Nat)
  | leaf (e : Nat)
  | page (cause hpa : Nat)
  | ask
  | bad
deriving DecidableEq, Repr

/-- The end of one line read of a walk. -/
def walkEntry (lvl e : Nat) : WalkEnd :=
  if malformed lvl e then .bad
  else if !eV e then (if eWalk e = 0 then .page 1 0 else if eWalk e = 1 then .ask else .page 5 (ePa e))
  else if isLeaf lvl e then .leaf e
  else .table (ePa e)

/-- Translate an address of a context for `w` in a bay (R321, R331): by the TLB; with no entry the page is walked first, and
what its walk ended in stops the operation. Log entry 27, DEDUCED. -/
def xlate (w : Who) (b ctx va : Nat) (wr : Bool) : Mc Tgt := do
  if 2 ^ 48 ≤ va then fault 0x90 va
  else
    let s ← get
    match (s.bay b).xlt.tlb.find? (fun t => tlbCovers t ctx va) with
    | some t =>
      set (s.incReg (Reg.XLT_HIT b))
      useLeaf ctx t.lvl (runLeaf t va) va wr
    | none =>
      let n : Need := { w, ctx, va := va / 4096 * 4096, probe := some wr }
      match (s.came n).bind (·.stop wr) with
      | some e => throw e
      | none => throw (.need [n])

/-- Pieces of an address range that lie in one 4 KiB page each; `fuel` bounds their number. -/
def pieces : Nat → Nat → Nat → List (Nat × Nat)
  | 0, _, _ => []
  | fuel + 1, a, n =>
    if n = 0 then []
    else
      let k := min n (4096 - a % 4096)
      (a, k) :: pieces fuel (a + k) (n - k)

/-- Requests of at most 1,024 bytes that cover a range of `n` bytes. -/
def chunks : Nat → Nat → Nat → List (Nat × Nat)
  | 0, _, _ => []
  | fuel + 1, a, n => if n = 0 then [] else (a, min n 1024) :: chunks fuel (a + min n 1024) (n - min n 1024)

/-- Where an access goes once translated: its controller, a lintel port of its bay, or out of the device, in the remote class
to another device (R61). -/
def routeAcc (s : State) (a : Access) (t : Tgt) : Access :=
  match t with
  | .loc pa => { a with pa, stage := if bayOfPa s pa = a.bay then .chan else .reqOut }
  | .dev pa => { a with pa, stage := .reqOut, cls := 2, dev := true }
  | .host pa => { a with pa, stage := .reqOut, host := true }

/-- Post the writes of bytes that lie in one page, once translated: 64-byte lines of local memory, requests of at most 1,024
bytes to another memory (R415). `put` is who hears of their end. Log entry 113, DESIGN CHOICE. -/
def postWrite (s : State) (w : Who) (ctx va : Nat) (t : Tgt) (bs : List Byte) (put : Purpose) : State :=
  let far := match t with | .loc _ => false | _ => true
  let parts := if far then chunks (bs.length / 1024 + 1) va bs.length
    else (linesIn va bs.length).map (fun l => (max l va, min (l + 64) (va + bs.length) - max l va))
  parts.foldl (fun s (c : Nat × Nat) =>
    let d := (bs.drop (c.1 - va)).take c.2
    let tg : Tgt := match t with
      | .loc p => .loc (p + (c.1 - va))
      | .dev p => .dev (p + (c.1 - va))
      | .host p => .host (p + (c.1 - va))
    pushAcc s (routeAcc s (w.access s ctx false .write c.1 0 c.2 d put) tg)) s

/-- Write bytes by virtual address for a context in bay `b`. Every page is translated before the first byte is posted. Log entry 113, DESIGN CHOICE. -/
def vaWrite (w : Who) (b ctx va : Nat) (bs : List Byte) (put : Purpose) : Mc Unit := do
  let ts ← (pieces (bs.length / 4096 + 2) va bs.length).mapM (fun (a, k) => do
    let t ← xlate w b ctx a true
    pure (a, k, t))
  modify (fun s => ts.foldl (fun s (p : Nat × Nat × Tgt) =>
    postWrite s w ctx p.1 p.2.2 ((bs.drop (p.1 - va)).take p.2.1) put) s)

/-! ### The fault queue's data (R343 to R346, R356) -/

/-- The fault-queue entries in use. -/
def fqUsed (s : State) : Nat := (s.gx.fq.filter (fun e => e.2.isSome)).length

/-- The 64-byte image of a fault-queue entry (Table 10-7). -/
def fqImage (e : FqEnt) : List Byte :=
  let mask := fun (l : List Nat) => l.foldl (fun a k => if bit a k then a else a + 2 ^ k) 0
  leBytes 2 (e.st + e.cause * 4 + e.level * 64 + b2n e.write * 256) ++ leBytes 2 e.ctx ++ leBytes 4 e.seq ++ leBytes 8 e.va
    ++ leBytes 8 e.hpa ++ leBytes 16 (mask e.panes) ++ leBytes 2 (mask e.bays) ++ leBytes 2 0 ++ leBytes 4 e.nfault
    ++ leBytes 8 e.time ++ leBytes 8 e.newpa

/-- Replace fault-queue entry `k` and write the change through to its image at XLT_FQBASE. -/
def setFq (s : State) (k : Nat) (e : Option FqEnt) : State :=
  let s := { s with gx := { s.gx with fq := tset none s.gx.fq k e } }
  let s := if s.regN Reg.XLT_FQHW < fqUsed s then s.setReg Reg.XLT_FQHW (fqUsed s) else s
  let base := s.reg64 Reg.XLT_FQBASE_LO Reg.XLT_FQBASE_HI
  sysPost s (.ctl .leaf) (base + 64 * k) (match e with | some e => fqImage e | none => leBytes 64 0)

/-- Is there no room for one more notice, those not yet written counted (R346, R578)? Log entry 124, DESIGN CHOICE. -/
def noticeFull (s : State) : Bool :=
  decide (511 ≤ (s.regN Reg.XLT_FNHEAD + 512 - s.regN Reg.XLT_FNTAIL % 512) % 512 + s.gx.noticeHeld.length) || s.gx.noticeStuck

/-- The bytes of a notice (R346). -/
def noticeBytes (s : State) (entry typ : Nat) (e : FqEnt) : List Byte :=
  leBytes 1 entry ++ leBytes 1 typ ++ leBytes 2 e.ctx ++ leBytes 4 e.seq ++ leBytes 8 e.va
    ++ leBytes 8 (if typ = 1 then 0 else e.newpa) ++ leBytes 8 s.devTime

/-- Post a notice of an entry; `frees` says what becomes of the entry once the notice is written. -/
def postNotice (s : State) (entry typ : Nat) (e : FqEnt) (frees : Option (Option Nat) := none) : State :=
  { s with gx := { s.gx with noticeHeld := s.gx.noticeHeld ++
      [{ bytes := noticeBytes s entry typ e, frees := frees.map (fun c => (entry, c)) }] } }

/-- Is a record of a ring on its way to memory? -/
def ringBusy (s : State) (k b : Nat) : Bool := s.accs.any (fun a => a.purpose == .ring k b)

/-- Send the oldest record of a ring to its place in memory, unless one is on its way or the ring is full; outside the map the
ring counts as full until its base is written again (R578). -/
def ringSend (s : State) (k b : Nat) (full : Bool) (w : Who) (a : Nat) (rec : Option (List Byte)) (stick : State → State) : State :=
  match rec with
  | none => s
  | some bs =>
    if full || ringBusy s k b then s
    else if (linesIn (localPa a) bs.length).any (outOfMap s) then stick (notMade s b (localPa a))
    else sysPost s w a bs (.ring k b)

/-- Send the oldest notice (R346). -/
def sendNotice (s : State) : State :=
  ringSend s 2 0 ((s.regN Reg.XLT_FNHEAD + 1) % 512 == s.regN Reg.XLT_FNTAIL || s.gx.noticeStuck) (.ctl .leaf)
    (s.reg64 Reg.XLT_FNBASE_LO Reg.XLT_FNBASE_HI + 32 * s.regN Reg.XLT_FNHEAD) (s.gx.noticeHeld.head?.map (·.bytes))
    (fun s => { s with gx := { s.gx with noticeStuck := true } })

/-- What stands for a bay among the waiters that a retry woke, whose task ids are smaller. -/
def bayWaiter (b ctx : Nat) : Nat := 2 ^ 40 + ctx * 16 + b

/-- A page fault joins the entry of its context and page, or takes a free one with notice space; none: it stalls
(R344, R345). `pane` and `bay` are the waiter bits it sets, `task` the task that waits. -/
def fqEnter (s : State) (ctx cause lvl va hpa : Nat) (wr : Bool) (pane bay task : Option Nat) : Option State :=
  let page := va / 4096 * 4096
  let addTo := fun (o : Option Nat) (l : List Nat) => match o with
    | some n => if l.contains n then l else l ++ [n]
    | none => l
  let who := match task, bay with
    | some t, _ => some t
    | none, some b => some (bayWaiter b ctx)
    | none, none => none
  let s := match who with
    | some t => if s.gx.retried.contains (t, page) then
        { s.incReg Reg.XLT_REFAULT with gx := { s.gx with retried := s.gx.retried.erase (t, page) } } else s
    | none => s
  match s.gx.fq.find? (fun e => match e.2 with | some x => x.ctx == ctx && x.va == page | none => false) with
  | some (k, some x) =>
    some (setFq s k (some { x with panes := addTo pane x.panes, bays := addTo bay x.bays, tasks := addTo task x.tasks,
                                   write := x.write || wr, nfault := satAdd 32 x.nfault 1 }))
  | _ =>
    match (List.range 256).find? (fun k => (tget none s.gx.fq k).isNone) with
    | none => none
    | some k =>
      if noticeFull s then none
      else
        let q := (s.gx.seq + 1) % 2 ^ 32
        let e : FqEnt := { st := 1, cause, level := lvl, write := wr, ctx, seq := q, va := page,
                           hpa := (if cause = 5 then hpa else 0), panes := addTo pane [], bays := addTo bay [], nfault := 1,
                           time := s.devTime, newpa := 0, tasks := addTo task [] }
        let s := { s with gx := { s.gx with seq := q } }
        some (postNotice (setFq s k (some e)) k 1 e)

end Sys2Proof.Machine
end

