-- ==== Sys2Proof/Machine/Sched.lean ====
section
/-! DEFINITION. Tasks and panes: task faults (R371), freeing a ready-list entry (R44, R359), context switches (Table 2-8),
the dispatch decision (R364 to R366) and domain resets (Table 17-4). Every chapter's faults and completions go through
these operations. -/

namespace Sys2Proof.Machine

open Sys2Proof

/-! ### Ready-list entries -/

/-- Free ready-list entries of a bay (R359). -/
def freeEntries (s : State) (b : Nat) : Nat := 1024 - (s.tasks.filter (fun t => t.bay == b)).length

/-- Free the entry of a task; a bay that owed a credit return raises its interrupt once (R44). -/
def freeEntry (s : State) (t : Nat) : State :=
  match s.taskOf t with
  | none => s
  | some x =>
    let s := s.dropTask t
    if (s.bay x.bay).owedCredit then
      raiseIrq (s.modBay x.bay (fun y => { y with owedCredit := false })) (32 + x.bay)
    else s

/-- The bytes of a task-fault record (Table 11-3). -/
def tfBytes (r : TfRec) : List Byte :=
  leBytes 2 r.ctx ++ leBytes 1 r.code ++ leBytes 1 r.engine ++ leBytes 1 r.queue ++ leBytes 1 (r.pane + b2n r.ran * 128)
    ++ leBytes 2 r.index ++ leBytes 4 r.tag ++ leBytes 4 0 ++ leBytes 8 r.addr ++ leBytes 8 r.time

/-- Is a bay's task-fault ring full (R371, R578)? -/
def tfFull (s : State) (b : Nat) : Bool :=
  (s.regN (Reg.DSP_TFHEAD b) + 1) % 256 == s.regN (Reg.DSP_TFTAIL b) || (s.bay b).tfStuck

/-- A task-fault record is held, in order, until it is written; so is the task's entry (R371). -/
def tfPost (s : State) (b : Nat) (r : TfRec) : State := s.modBay b (fun x => { x with tfHeld := x.tfHeld ++ [r] })

/-- Send the oldest task-fault record of a bay to the ring at DSP_TFHEAD (R371). -/
def sendTf (s : State) (b : Nat) : State :=
  ringSend s 0 b (tfFull s b) (.bay b .fetch)
    (s.reg64 (Reg.DSP_TFBASE_LO b) (Reg.DSP_TFBASE_HI b) + 32 * s.regN (Reg.DSP_TFHEAD b)) ((s.bay b).tfHeld.head?.map tfBytes)
    (fun s => s.modBay b (fun x => { x with tfStuck := true }))

/-- The record that was on its way is in the ring: DSP_TFHEAD advances, the dispatch interrupt is raised and the task's entry is
freed. -/
def tfWritten (s : State) (b : Nat) : State :=
  match (s.bay b).tfHeld with
  | [] => s
  | r :: rs =>
    let s := s.modBay b (fun x => { x with tfHeld := rs })
    let s := raiseIrq (s.setReg (Reg.DSP_TFHEAD b) ((s.regN (Reg.DSP_TFHEAD b) + 1) % 256)) (16 + b)
    match r.task with
    | some t => freeEntry s t
    | none => s

/-! ### Stopping a pane -/

/-- Does an access serve the running task of pane instance `i`? -/
def accOfPane (i : Nat) (a : Access) : Bool :=
  match a.purpose with
  | .nge j _ => j == i
  | .se j _ _ _ => j == i
  | .line j => j == i
  | .fetch (.cmd j _) => j == i
  | .probe (.cmd j _) _ => j == i
  | _ => false

/-- The accesses of a pane answer to nobody any more: its reads are dropped, its writes still land. -/
def orphanAccs (s : State) (i : Nat) : State :=
  { s with accs := (s.accs.filter (fun a => !(accOfPane i a && a.op == .read))).map
             (fun a => if accOfPane i a then { a with purpose := .none } else a) }

/-- The lines that engine `eng` of a pane has read for its command are used up. -/
def dropFetched (s : State) (i eng : Nat) : State := dropNeeds s (.cmd i eng)

/-- What the pane's engines held of its task goes: jobs, commands in the bay engines' queues, streams, accesses. -/
def clearEngines (s : State) (i : Nat) : State :=
  let s := orphanAccs s i
  let b := bayOf i
  let s := s.modTe b (fun x => { x with jobs := x.jobs.filter (fun j => j.pane != i) })
  s.modPane i (fun p => { p with seq := { streams := p.seq.streams }, mat := none, nge := none, vec := none, blockedAt := none, stalled := false })

/-- Is a stream open: running, draining or stopped (Table 8-5)? -/
def openStream (x : Stream) : Bool := x.status == 1 || x.status == 2 || x.status == 5

/-- A pane gives up its task. When the task has faulted its open streams end with status Failed — task fault (R276). The shares
of its last start stay for the writes that it still has on their way. Log entry 45, DESIGN CHOICE. -/
def idlePane (s : State) (i : Nat) (stopped : Bool) : State :=
  (clearEngines s i).modPane i (fun p => { p with
    task := none, ctx := 0, dclass := 0, stopped, halted := false, stepping := false
    seq := { p.seq with streams := if stopped then p.seq.streams.map (fun (e : Nat × Stream) =>
      (e.1, if openStream e.2 then { e.2 with status := 8, blocks := [], descs := [], keep := [] } else e.2)) else p.seq.streams } })

/-- Is a sync object's record one of task `t`? Waits of a task leave their objects (R378, R372). -/
def dropWaits (s : State) (t : Nat) : State :=
  (List.range 16).foldl (fun s b =>
    if (s.bay b).waiters.any (fun w => w.task == t) || (s.bay b).stalledWaits.any (fun w => w.task == t) then
      s.modBay b (fun x => { x with waiters := x.waiters.filter (fun w => w.task != t),
                                    stalledWaits := x.stalledWaits.filter (fun w => w.task != t) })
    else s) s

/-- A task's fault-queue waits leave their entries. -/
def dropFqWaits (s : State) (t : Nat) : State :=
  { s with gx := { s.gx with
      fq := s.gx.fq.map (fun e => (e.1, e.2.map (fun x => { x with tasks := x.tasks.filter (· != t) })))
      stalls := s.gx.stalls.filter (fun l => l.headD 0 != t + 1) } }

/-- Where a fault struck: engine code and opcode, slot resource kind and slot index of PANE_FAULT, TAG, address, and for
the engines' own registers the vertex or stage and whether a hub was being combined. -/
structure FSrc where
  eng : Nat := 0
  op : Nat := 0
  pos : Nat := 0
  hub : Bool := false
  kind : Nat := 0
  slot : Nat := 0
  tag : Nat := 0
  addr : Nat := 0
deriving DecidableEq, Repr

/-- TE_FAULT holds the last fault of Table 7-18 in the bay, found at the requester or as an owner (R255). -/
def teFault (s : State) (b code op lpane table row : Nat) (owner : Bool) : State :=
  ((s.setReg (Reg.TE_FAULT b) (code + op % 2 ^ 8 * 2 ^ 8 + lpane % 8 * 2 ^ 16 + table % 2 ^ 12 * 2 ^ 19 + b2n owner * 2 ^ 31)).setReg
    (Reg.TE_FROW_LO b) (row % 2 ^ 32)).setReg (Reg.TE_FROW_HI b) (row / 2 ^ 32 % 256)

/-- The engines' own fault registers: NGE_FAULT holds any fault of an NGE command (R184), VEC_FAULT those of Table 6-10
(R216), all of which are raised before a record or row is processed, SE_FAULT those of Table 8-8 (R284; the stream in
bits 3 to 0 of `pos`, bit 4 for a descriptor), TE_FAULT those of Table 7-18 that the requester itself meets,
CVU_FAULT those of Table 14-5 (R464). -/
def engineFault (s : State) (i code : Nat) (f : FSrc) : State :=
  if f.eng = 3 then
    ((s.setReg (Reg.NGE_FAULT i) (code + f.op * 2 ^ 8 + b2n f.hub * 2 ^ 16)).setReg (Reg.NGE_FVTX_LO i) (f.pos % 2 ^ 32)).setReg
      (Reg.NGE_FVTX_HI i) (f.pos / 2 ^ 32 % 256)
  else if f.eng = 4 ∧ 0x70 ≤ code ∧ code ≤ 0x75 then
    ((s.setReg (Reg.SE_FAULT i) (code + f.pos % 32 * 2 ^ 8 + f.op % 2 ^ 8 * 2 ^ 16)).setReg (Reg.SE_FADDR_LO i) (f.addr % 2 ^ 32)).setReg
      (Reg.SE_FADDR_HI i) (f.addr / 2 ^ 32 % 2 ^ 32)
  else if f.eng = 7 ∧ 0xD0 ≤ code ∧ code ≤ 0xD2 then
    s.setReg (Reg.CVU_FAULT (bayOf i)) (code + (s.pane i).number.getD 0 % 8 * 2 ^ 8)
  else if f.eng = 5 ∧ 0x60 ≤ code ∧ code ≤ 0x69 ∧ !f.hub then
    teFault s (bayOf i) code f.op ((s.pane i).number.getD 0 % 8) (f.pos / 2 ^ 40) (f.pos % 2 ^ 40) false
  else if f.eng = 2 ∧ 0x50 ≤ code ∧ code ≤ 0x55 then
    (s.setReg (Reg.VEC_FAULT i) (code + f.op * 2 ^ 8 + f.pos % 8 * 2 ^ 16)).setReg (Reg.VEC_FPOS i) 0
  else s

/-- A task faults (R371): the code is recorded in PANE_FAULT and PANE_FTAG when it ran on a pane, the pane stops, its
waits go, and a task-fault record is posted. A running task whose pane is being switched out leaves the switch to go on
without it. A slot violation counts in BAY_VIOL of the task's own bay, also where the table is another bay's. Log entry 115, DESIGN CHOICE. -/
def taskFault (s : State) (t : Nat) (code : Nat) (f : FSrc) : State :=
  match s.taskOf t with
  | none => s
  | some x =>
    if x.st = .faulted then s
    else
      let inst := (panesOf x.bay).find? (fun i => (s.pane i).task == some t)
      let s := if code = 0x05 then s.incReg (Reg.BAY_VIOL x.bay) else s
      let s := dropFqWaits (dropWaits s t) t
      let s := match inst with
        | none => s
        | some i =>
          let s := (s.setReg (Reg.PANE_FAULT i) (code + f.eng * 2 ^ 8 + f.kind * 2 ^ 12 + f.slot % 2 ^ 13 * 2 ^ 16)).setReg
            (Reg.PANE_FTAG i) f.tag
          let s := engineFault s i code f
          idlePane s i true
      let s := (panesOf x.bay).foldl (fun s i =>
        s.modPane i (fun p => { p with sw := p.sw.map (fun w =>
          { w with outTask := (if w.outTask = some t then none else w.outTask),
                   inTask := (if w.inTask = some t then none else w.inTask) }) })) s
      let pn := match inst with | some i => (s.pane i).number.getD 0 | none => x.ranOn.getD 0
      let ran := inst.isSome || x.ranOn.isSome
      let r : TfRec :=
        { ctx := x.ctx, code, engine := f.eng, queue := x.queue, pane := (if ran then pn else 0), ran,
          index := x.index, tag := f.tag, addr := f.addr, time := s.bayTime x.bay, task := some t }
      tfPost (s.modTask t (fun y => { y with st := .faulted, saved := none })) x.bay r

/-- The task that runs on a pane instance faults. A further slot violation of a pane that has lost its task only counts (R77). -/
def paneFault (s : State) (i : Nat) (code : Nat) (f : FSrc) : State :=
  match (s.pane i).task with
  | some t => taskFault s t code f
  | none => if code = 0x05 then s.incReg (Reg.BAY_VIOL (bayOf i)) else s

/-! ### Claims and residency (R47, R68 to R70) -/

/-- Scratchpad regions a task claims. Log entry 50, DEDUCED. -/
def claimRegions (t : Task) : List Nat := (List.range t.spcount).map (· + t.spbase)
/-- Accumulator tiles a task claims. -/
def claimTiles (t : Task) : List Nat := setBitsOf 128 t.accmask

/-- Owner of a resident region; 0xFFFF: none. -/
def regOwner (p : Pane) (k : Nat) : Nat := tget 0xFFFF p.regOwn k
/-- Owner of a resident tile; 0xFFFF: none. -/
def tileOwner (p : Pane) (k : Nat) : Nat := tget 0xFFFF p.tileOwn k

/-- Release regions and tiles of a pane: zeroed with valid check bits (R70). -/
def release (s : State) (i : Nat) (rs ts : List Nat) : State :=
  s.modPane i (fun p =>
    { p with sp := rs.foldl (fun m k => tdrop m (0x10000 * k) (0x10000 * (k + 1))) p.sp
             spErr := rs.foldl (fun m k => tdrop m (0x10000 * k) (0x10000 * (k + 1))) p.spErr
             acc := ts.foldl (fun m k => tdrop m (0x4000 * k) (0x4000 * (k + 1))) p.acc
             accErr := ts.foldl (fun m k => tdrop m (0x4000 * k) (0x4000 * (k + 1))) p.accErr
             tiles := ts.foldl tdel p.tiles
             longTiles := ts.foldl (fun m k => tdel m (k / 20)) p.longTiles
             regOwn := p.regOwn.filter (fun e => !rs.contains e.1)
             tileOwn := p.tileOwn.filter (fun e => !ts.contains e.1) })

/-- Release every region and tile of a context on a pane. -/
def releaseCtx (s : State) (i ctx : Nat) : State :=
  release s i (((s.pane i).regOwn.filter (fun e => e.2 == ctx)).map (·.1)) (((s.pane i).tileOwn.filter (fun e => e.2 == ctx)).map (·.1))

/-- Base of a context's save area on the number of a pane (R68), by the SAVEBASE in force when its last task started there. -/
def saveArea (p : Pane) (ctx : Nat) : Nat := tget 0 p.bases ctx + 0x1000000 * p.number.getD 0

/-- Does a start of task `t` on the pane need steps 4 and 5 of Table 2-8? -/
def needsSwitch (p : Pane) (t : Task) : Bool :=
  t.saved.isSome || (claimRegions t).any (fun k => regOwner p k != t.ctx) || (claimTiles t).any (fun k => tileOwner p k != t.ctx)

/-! ### Starting a task (R39, R40, R57, R580) -/

/-- Shares of a context record. -/
def recShares (r : List Byte) : Shares :=
  { memRd := bits (field r 4 4) 5 0, memWr := bits (field r 4 4) 13 8, lnkRd := bits (field r 4 4) 21 16,
    lnkWr := bits (field r 4 4) 29 24, lnkRm := bits (field r 8 4) 5 0 }

/-- Task counters: the registers zeroed when a task starts and saved with its context (R114, R145, R182, R214). -/
def taskCounterOffs : List Nat :=
  [0x104, 0x108, 0x10C, 0x110, 0x114, 0x118, 0x11C, 0x120, 0x230, 0x234, 0x238,
   0x1004, 0x1008, 0x100C, 0x1010, 0x1014, 0x1018, 0x101C, 0x1020,
   0x2004, 0x2008, 0x200C, 0x2010, 0x2014, 0x2018, 0x201C, 0x2020, 0x2024,
   0x3004, 0x3008, 0x300C, 0x3010, 0x3014, 0x3018, 0x301C, 0x3020, 0x3024]

/-- The context record is read as the task starts on a pane, and checked first of all (R39, R40, R580). Log entry 63, DEDUCED. -/
def startRecord (i t ctx : Nat) : Mc (List Byte) := do
  let s ← get
  let r ← sysRead (.start i t) (ctxRecordAt s (bayOf i) ctx) 128
  failIf (field r 0 2 != ctx || !(bit (field r 0 4) 16)) 0x0B
  let sh := recShares r
  failIf (decide (64 < sh.memRd + sh.memWr) || decide (64 < sh.lnkRd + sh.lnkWr + sh.lnkRm)) 0x07
  pure r

/-- Address of the slot set that a task names (R57). -/
def slotSetAt (t : Task) (r : List Byte) : Nat := field r 32 8 + 0x8000 * t.slotset

/-- The task starts or resumes on the pane, its slot set loaded: its shares take effect and it is Running. -/
def launch (s : State) (i : Nat) (t : Task) (r : List Byte) : State :=
  let sh := recShares r
  let blk := t.saved.getD { pc := t.listaddr, listEnd := t.listaddr + t.listlen }
  let s := taskCounterOffs.foldl (fun s o => s.setReg (paneBase i + o) (tget 0 blk.counters o).toNat) (dropNeeds s (.start i t.id))
  let s := s.modPane i (fun p => { p with
    task := some t.id, ctx := t.ctx, dclass := t.dclass, stopped := false, shares := sh, started := s.devTime, sw := none
    root := field r 16 8
    bases := tset 0 p.bases t.ctx (field r 24 8)
    seq := { blk with counters := [] }
    blockedAt := if blk.waits.any (fun w => w.status == 0) then some s.devTime else none })
  { s.modTask t.id (fun y => { y with st := .running, saved := none, shares := sh,
                                      ranOn := some (y.ranOn.getD ((s.pane i).number.getD 0)) }) with
    ctxDead := s.ctxDead.filter (· != t.ctx) }

/-- Write a trace record of a completed command (R504), in P0 and P1 alone (Table 16-9). -/
def traceRec (s : State) (i eng op tag : Nat) : State :=
  let b := bayOf i
  let ctl := s.regN Reg.DBG_TRCCTL
  if s.dbg.level = 0 ∨ !(bit ctl 0) ∨ 2 ≤ s.pwr.st then s
  else
    let r := [s.bayTime b, (s.pane i).number.getD 0x7F, eng, op, tag]
    s.modBay b (fun x =>
      let full := decide (1023 ≤ x.trace.length) && !(bit ctl 1)
      if x.trace.length < 1024 then { x with trace := x.trace ++ [r], traceStopped := full }
      else if bit ctl 1 then { x with trace := x.trace.tail ++ [r], traceStopped := false }
      else { x with traceStopped := true })

/-- A completed command is counted and traced. Log entry 98, DEDUCED. -/
def countCmd (s : State) (i eng op tag : Nat) : State :=
  traceRec (s.setReg (Reg.PANE_CMDCOUNT i) ((s.regN (Reg.PANE_CMDCOUNT i) + 1) % 2 ^ 32)) i eng op tag

/-- A command leaves the incomplete ones: the oldest entry of its engine goes. -/
def completeEng (blk : SeqBlk) (eng : Nat) : SeqBlk := { blk with inflight := blk.inflight.erase eng }

/-- A command of the pane's running task completes. -/
def cmdDone (s : State) (i eng op tag : Nat) : State :=
  countCmd (s.modPane i (fun p => { p with seq := completeEng p.seq eng })) i eng op tag

/-- A saved wait that was broken, expired or refused meanwhile raises its fault when the sequencer resumes; one that was met
or served completes its command (R381). -/
def resumeWaits (s : State) (i : Nat) : State :=
  match (s.pane i).seq.waits.find? (fun w => 3 ≤ w.status) with
  | some w => paneFault s i (if w.status = 3 then 0xA3 else if w.status = 4 then 0xA4 else if w.status = 5 then 0xA2 else 0xA1) { tag := w.tag }
  | none =>
    let ws := (s.pane i).seq.waits
    let s := s.modPane i (fun p => { p with seq := { p.seq with waits := ws.filter (fun w => w.status == 0) } })
    (ws.filter (fun w => w.status != 0)).foldl (fun s w => cmdDone s i 0 (3 + w.kind) w.tag) s

/-- Start a task on an idle pane once its context record has come: through steps 4 and 5 of Table 2-8 when something must be
saved or read, then step 6, at once when the pane holds its slot set already (R57). The pane number's poison makes the context's
next task fault with code 0xE1 (R519, R532). A fault of the start leaves PANE_FAULT unchanged, since the task has not run
there. Log entry 63, DEDUCED. Log entry 116, DESIGN CHOICE. -/
def startTask (s : State) (i : Nat) (t : Task) : State :=
  let p := s.pane i
  let dropOthers := fun (s : State) => { s with accs := s.accs.filter (fun a =>
    match a.purpose with | .fetch (.start j u) => !(j == i && u != t.id) | _ => true) }
  if p.poison.contains t.ctx then
    taskFault (s.modPane i (fun p => { p with poison := p.poison.erase t.ctx })) t.id 0xE1 {}
  else
    match runMc (startRecord i t.id t.ctx) s with
    | (.ok r, s) =>
      let s := dropOthers s
      if !needsSwitch p t && p.slotSet == some (t.ctx, slotSetAt t r) then resumeWaits (launch s i t r) i
      else
        (s.modTask t.id (fun y => { y with st := .running })).modPane i (fun p => { p with
          bases := tset 0 p.bases t.ctx (field r 24 8)
          sw := some { step := if needsSwitch p t then 4 else 6, outTask := none, outState := .ready, inTask := some t.id, interrupt := false } })
    | (.error (.need ns), _) => postNeeds s ns
    | (.error (.flt f), s) => taskFault (dropNeeds s (.start i t.id)) t.id f.code { addr := f.addr }
    | (.error _, _) => s

/-! ### The dispatch decision (R364 to R366) -/

/-- Is a pane open to the dispatcher: numbered, in service, in Run mode, not switching? -/
def paneOpen (p : Pane) : Bool := p.number.isSome && !p.out && !p.offDispatch && p.mode == 0 && p.sw.isNone && !p.halted

/-- PRIO of the task that runs on a pane. -/
def runPrio (s : State) (i : Nat) : Nat :=
  match (s.pane i).task with | some t => (match s.taskOf t with | some x => x.prio | none => 0) | none => 0

/-- The one pane an ANYPANE task that has never run goes to: the lowest-numbered idle pane, else the pane whose running
task has the lowest PRIO. -/
def anyTarget (s : State) (b : Nat) : Option Nat :=
  let is := (panesOf b).filter (fun i => paneOpen (s.pane i))
  let byNum := fun (l : List Nat) => (List.range 8).findSome? (fun n => l.find? (fun i => (s.pane i).number == some (b * 8 + n)))
  match byNum (is.filter (fun i => (s.pane i).task.isNone)) with
  | some i => some i
  | none => (List.range 8).findSome? (fun q => byNum (is.filter (fun i => runPrio s i == q)))

/-- Is a Ready task eligible for pane instance `i` (R364), with no other task of its context switched out there (R366)? -/
def eligible (s : State) (i : Nat) (t : Task) : Bool :=
  match (s.pane i).number with
  | none => false
  | some n =>
    t.st == .ready && t.bay == bayOf i &&
    (match t.ranOn with
     | some r => r == n
     | none => if t.anypane then anyTarget s t.bay == some i else t.lpane == n % 8) &&
    !(s.tasks.any (fun u => u.id != t.id && u.ctx == t.ctx && u.saved.isSome && u.ranOn == some n))

/-- Is candidate `a` chosen before `b`: higher PRIO, then earlier ready time, lower queue, earlier fetch? -/
def beats (a b : Task) : Bool :=
  if a.prio ≠ b.prio then b.prio < a.prio
  else if a.readyAt.getD 0 ≠ b.readyAt.getD 0 then a.readyAt.getD 0 < b.readyAt.getD 0
  else if a.queue ≠ b.queue then a.queue < b.queue
  else a.id < b.id

/-- The candidate of a pane. -/
def candidate (s : State) (i : Nat) : Option Task :=
  (s.tasks.filter (eligible s i)).foldl (fun c t => match c with
    | none => some t
    | some x => if beats t x then some t else some x) none

/-- A running task leaves its pane (Table 2-8, step 1): the sequencer stops issuing, and the switch waits for running
commands. A stalled pane's switch waits until the stall ends (R345), since its commands stay incomplete. -/
def beginSwitch (s : State) (i : Nat) (outState : TState) (inTask : Option Nat) : State :=
  let p := s.pane i
  match p.task with
  | none => s
  | some t =>
    let intr := match s.taskOf t, inTask.bind s.taskOf with
      | some x, some y => x.ctx == y.ctx && x.slotset == y.slotset &&
          !(s.tasks.any (fun u => u.ctx == x.ctx && u.saved.isSome && u.ranOn == p.number))
      | _, _ => false
    let s := match inTask with
      | some u => s.modTask u (fun y => { y with st := .running })
      | none => s
    let s := if inTask.isNone then s
      else if intr then s.incReg (Reg.DSP_INTRPT (bayOf i)) else s.incReg (Reg.DSP_PREEMPT (bayOf i))
    s.modPane i (fun p => { p with sw := some { step := 2, outTask := some t, outState, inTask, interrupt := intr } })

/-- Has the pane's sequencer been blocked for DSP_BLOCKSW (R368)? -/
def blockedDue (s : State) (i : Nat) : Bool :=
  match (s.pane i).blockedAt with
  | some u => decide (u + 1000 * (s.regN (Reg.DSP_BLOCKSW (bayOf i)) % 2 ^ 16) ≤ s.devTime)
  | none => false

/-- The decision for one pane (R365). A start that faults leaves the pane idle and the next candidate is tried. -/
def decidePane : Nat → State → Nat → State
  | 0, s, _ => s
  | fuel + 1, s, i =>
    let p := s.pane i
    if !paneOpen p then s
    else
      match candidate s i with
      | none => s
      | some c =>
        match p.task with
        | none =>
          let s' := startTask s i c
          if (s'.pane i).task.isSome || (s'.pane i).sw.isSome || (match s'.taskOf c.id with | some x => x.st == .ready | none => false)
          then s' else decidePane fuel s' i
        | some t =>
          match s.taskOf t with
          | none => s
          | some x =>
            if x.prio < c.prio then beginSwitch s i .ready (some c.id)
            else if x.prio = c.prio ∧ p.started + 1000 * s.regN (Reg.DSP_SLICE (bayOf i)) ≤ s.devTime ∧ p.blockedAt.isNone then
              (beginSwitch s i .ready (some c.id)).incReg (Reg.DSP_SLICED (bayOf i))
            else if blockedDue s i then beginSwitch s i .waiting (some c.id)
            else s

/-- Decisions of every bay that holds tasks. Log entry 19, DESIGN CHOICE. -/
def decideAll (s : State) : State :=
  if s.tasks.isEmpty || !s.running then s
  else (List.range 16).foldl (fun s b =>
    if s.tasks.any (fun t => t.bay == b && t.st == .ready) then
      (panesOf b).foldl (fun s i => decidePane (s.tasks.length + 1) s i) s
    else s) s

/-- A task becomes Ready: its first ready time is stamped (R360). -/
def makeReady (s : State) (t : Nat) : State :=
  s.modTask t (fun x => { x with st := .ready, readyAt := some (x.readyAt.getD s.devTime) })

/-! ### Releasing waiters (R378, R381) -/

/-- Record in a sequencer block that its wait at an object ended with a status (R381). -/
def noteWait (blk : SeqBlk) (obj status : Nat) : SeqBlk :=
  { blk with waits := blk.waits.map (fun w => if w.obj = obj ∧ w.status = 0 then { w with status } else w) }

/-- Status of a recorded wait as a fault code (3 broken, 4 expired, 5 access, 6 Free). Log entry 98, DEDUCED. -/
def waitCode (status : Nat) : Nat :=
  if status = 3 then 0xA3 else if status = 4 then 0xA4 else if status = 5 then 0xA2 else 0xA1

/-- The running pane of a task. -/
def paneOfTask (s : State) (t : Nat) : Option Nat :=
  match s.taskOf t with
  | none => none
  | some x => (panesOf x.bay).find? (fun i => (s.pane i).task == some t)

/-- In P2 and P3 a task whose wait ends badly faults on exit (R509). Log entry 85, DEDUCED. -/
def asleep (s : State) : Bool := decide (2 ≤ s.pwr.st ∧ s.pwr.st ≤ 3)

/-- A waiter is released with a status (1 met, 2 served, 3 broken, 4 expired, 5 and 6 refused): a Held task becomes Ready;
a running task's sequencer goes on; a switched-out task keeps the status, and a Waiting one becomes Ready once every
recorded wait is met or taken. A bad status faults the task: at once, or on restore for one that is neither running nor
Waiting (Table 11-1, R381). -/
def releaseWaiter (s : State) (w : Waiter) (status : Nat) : State :=
  match s.taskOf w.task with
  | none => s
  | some t =>
    if w.kind = 2 then
      if status ≤ 2 then makeReady s w.task else taskFault s w.task (waitCode status) {}
    else
      match paneOfTask s w.task with
      | some i =>
        let p := s.pane i
        if p.sw.isSome || asleep s && decide (3 ≤ status) then s.modPane i (fun p => { p with seq := noteWait p.seq w.obj status })
        else if status ≤ 2 then
          cmdDone (s.modPane i (fun p => { p with seq := { p.seq with waits := [] }, blockedAt := none })) i 0 (3 + w.kind) w.tag
        else taskFault s w.task (waitCode status) { tag := w.tag }
      | none =>
        let s := s.modTask w.task (fun x => { x with saved := x.saved.map (fun b => noteWait b w.obj status) })
        if t.st = .waiting then
          if 3 ≤ status then (if asleep s then s else taskFault s w.task (waitCode status) { tag := w.tag })
          else
            match s.taskOf w.task with
            | some x => if (x.saved.getD {}).waits.all (fun r => r.status != 0) then makeReady s w.task else s
            | none => s
        else s

/-! ### Domain resets (R524, Table 17-4) -/

/-- Every task that holds state on a pane instance faults. -/
def faultPaneTasks (s : State) (i code : Nat) : State :=
  let p := s.pane i
  let s := match p.task with | some t => taskFault s t code {} | none => s
  match p.number with
  | none => s
  | some n =>
    let ctxs := (p.regOwn.map (·.2) ++ p.tileOwn.map (·.2)).eraseDups
    let hs := s.tasks.filter (fun t => t.ranOn == some n && t.saved.isSome && ctxs.contains t.ctx)
    hs.foldl (fun s t => taskFault s t.id code {}) s

/-- A pane instance is reset: its tasks fault, its memories are zeroed with valid check bits, its number is kept. -/
def resetPane (s : State) (i : Nat) : State :=
  let s := faultPaneTasks s i 0xE0
  let p := s.pane i
  let s := orphanAccs s i
  let keep := fun (a : Access) => match a.purpose with
    | .sw j _ => j != i || a.op != .read
    | .fetch (.start j _) => j != i
    | .probe (.sw j) _ => j != i
    | _ => true
  let free := fun (a : Access) => match a.purpose with
    | .sw j _ => if j = i then { a with purpose := .none } else a
    | _ => a
  let s := { s with accs := (s.accs.filter keep).map free }
  s.setPane i { Pane.reset i with number := p.number, out := p.out, mode := p.mode, poison := p.poison, offDispatch := p.offDispatch }

/-- The domains that a domain contains, but for those of the whole device (Table 17-1). -/
def domChildren (k : Nat) : List Nat :=
  let d := k / 256
  let i := k % 256
  if d = 2 then (panesOf i).map (256 + ·) else if d = 6 then (List.range 4).map (fun j => 5 * 256 + 4 * i + j)
  else if d = 7 then [5 * 256 + 32 + i] else []

/-- What a domain's reset does at once; its end is a DOMAIN_RESET_DONE. Log entry 90, DESIGN CHOICE. Log entry 138, DEDUCED. -/
def resetEffects (s : State) (dk inst : Nat) : State :=
  if dk = 1 then resetPane s inst
  else if dk = 2 then
    let s := (panesOf inst).foldl resetPane s
    let ts := s.tasks.filter (fun t => t.bay == inst)
    let s : State := ts.foldl (fun s t => taskFault s t.id 0xE0 {}) s
    let s := { s with syn := s.syn.map (fun (e : Nat × SynObj) => if e.1 / 4096 = inst ∧ e.2.st = 1 then (e.1, { e.2 with st := 2 }) else e) }
    let ws := (s.bay inst).waiters ++ (s.bay inst).stalledWaits
    let s : State := ws.foldl (fun s (w : Waiter) => releaseWaiter s w 3) s
    let reqs := (s.bay inst).xe.reqs
    let s := s.modBay inst (fun x => { x with
      waiters := [], stalledWaits := [], xlt := { invs := x.xlt.invs }
      te := { x.te with hot := [], jobs := [], reqIn := [], rspIn := [], conIn := [], svcIn := [], copies := [], moves := [], resv := [] }
      xe := { x.xe with reqs := [] } })
    { s with accs := s.accs.filter (fun a => !(a.stage == .away && a.bay == inst && reqs.any (fun r => r.access == a.id))) }
  else if dk = 3 then
    let n := ((s.bay inst).dir).length
    let s := s.incReg Reg.FLX_LOSTLN n
    let s := s.modBay inst (fun x => { x with dir := [], snoops := [], mem := { x.mem with
      ready := false, resetting := true, shut := none, shutQ := [], remapDue := none, upd := [] } })
    let here := fun (a : Nat) => bayOfPa s a == inst && (mapAddr s a).isSome
    { s with dram := s.dram.filter (fun c => !here c.1), dramErr := s.dramErr.filter (fun c => !here c.1),
             dramMis := s.dramMis.filter (fun c => !here c.1) }
  else if dk = 5 then
    s.modPort inst (fun p => { p with st := 0, laser := false })
  else if dk = 6 ∨ dk = 7 then
    (domChildren (dk * 256 + inst)).foldl (fun s k => s.modPort (k % 256) (fun p => { p with st := 0, laser := false })) s
  else s

/-- A self-test that a reset cuts short is logged as aborted and waits to run again (R522). -/
def abortTest (s : State) (k : Nat) : State :=
  match (s.dom k).cur with
  | some r =>
    if r.phase = 1 then
      (logEvt s 0x09 3 (k / 256) (k % 256) r.target.addr 0 (s.devTime - r.start)).setDom k
        { s.dom k with cur := some { r with phase := 0, why := if r.why = 0 then 3 else r.why } }
    else s
  | none => s

/-- Run the domain resets that are due: event 0x10, the effects, queued faults discarded, and a self-test of each resource
that had one to run after the reset (R523, R524). A control reset is a restart, which the restart command carries out. -/
def runResets (s : State) : State :=
  (s.rel.doms.filter (fun e => e.2.due != 0)).foldl (fun s e =>
    let d := s.dom e.1
    let s := logE s 0x10 (e.1 / 256) (e.1 % 256) 0 0 d.due
    let s := s.incReg Reg.LOG_ESCAL
    let again := d.queue.map (fun r => { r with why := 3, phase := 0, joined := 0 })
    let s := match d.cur with
      | some r => if r.phase = 1 then logEvt s 0x09 3 (e.1 / 256) (e.1 % 256) r.target.addr 0 (s.devTime - r.start) else s
      | none => s
    let rerun := match d.cur with | some r => if r.phase = 1 then [{ r with why := 3, phase := 0 }] else [] | none => []
    let s := s.setDom e.1 { d with due := 0, resetting := true, cur := none, queue := rerun ++ again, resets := d.resets + 1 }
    let s := (domChildren e.1).foldl abortTest s
    resetEffects s (e.1 / 256) (e.1 % 256)) s

end Sys2Proof.Machine
end

