-- ==== Sys2Proof/Machine/Sync.lean ====
section
/-! DEFINITION. Sync objects (R373 to R382): admission, waits, takes, signals, breakage, and what a release does to the task
that waits. -/

namespace Sys2Proof.Machine

open Sys2Proof

/-- Does an object admit an operation of a context (R377)? None when it does, else the fault code. -/
def refusal (o : SynObj) (ctx : Nat) : Option Nat :=
  if o.st = 0 then some 0xA1
  else if o.st = 2 then some 0xA3
  else if o.owner = ctx ∨ ctx = 0 ∨ o.anyctx then none
  else some 0xA2

/-- The waits whose threshold an object's value meets, in arrival order. -/
def metWaits (s : State) (b obj : Nat) : List Waiter :=
  (s.bay b).waiters.filter (fun w => w.obj == obj && w.kind == 0 && w.thr ≤ (s.obj obj).val)

/-- Serve takes oldest first while the oldest one's threshold is met; `n` bounds their number. -/
def serveTakes : Nat → State → Nat → Nat → State
  | 0, s, _, _ => s
  | n + 1, s, b, obj =>
    match (s.bay b).waiters.find? (fun w => w.obj == obj && w.kind != 0) with
    | none => s
    | some w =>
      let o := s.obj obj
      if w.thr ≤ o.val then
        let s := s.setObj obj { o with val := o.val - w.thr }
        let s := s.modBay b (fun x => { x with waiters := x.waiters.erase w })
        serveTakes n (releaseWaiter s w 2) b obj
      else s

/-- After a change of an object's value: every wait it meets is released, then takes are served (R375, R389). -/
def settleObj (s : State) (obj : Nat) : State :=
  let b := obj / 4096
  let ws := metWaits s b obj
  let s := s.modBay b (fun x => { x with waiters := x.waiters.filter (fun w => !ws.contains w) })
  let s := ws.foldl (fun s w => releaseWaiter s w 1) s
  serveTakes (s.bay b).waiters.length s b obj

/-- A wait, take or dispatch take arrives at its home, first or in a retry (R374, R377, R382): refused, met or served on arrival,
registered in a free record, or stalled at its source, which counts once. -/
def tryArrive (retry : Bool) (s : State) (w : Waiter) : State :=
  let b := w.obj / 4096
  let o := s.obj w.obj
  match refusal o w.ctx with
  | some c => releaseWaiter s w (if c = 0xA3 then 3 else if c = 0xA2 then 5 else 6)
  | none =>
    let older := (s.bay b).waiters.any (fun v => v.obj == w.obj && v.kind != 0)
    if w.kind = 0 ∧ w.thr ≤ o.val then releaseWaiter s w 1
    else if w.kind ≠ 0 ∧ w.thr ≤ o.val ∧ !older then
      releaseWaiter (s.setObj w.obj { o with val := o.val - w.thr }) w 2
    else if (s.bay b).waiters.length < 2048 then s.modBay b (fun x => { x with waiters := x.waiters ++ [w] })
    else
      let s := s.modBay b (fun x => { x with stalledWaits := x.stalledWaits ++ [w] })
      if retry then s else s.incReg (Reg.SYN_WSTALL b)

/-- A wait, take or dispatch take arrives at its home for the first time. -/
def arrive (s : State) (w : Waiter) : State := tryArrive false s w

/-- Stalled waits retry when a record is freed (R382). -/
def retryStalled (s : State) (b : Nat) : State :=
  let ws := (s.bay b).stalledWaits
  if ws.isEmpty || 2048 ≤ (s.bay b).waiters.length then s
  else ws.foldl (tryArrive true) (s.modBay b (fun x => { x with stalledWaits := [] }))

/-- A SIGNAL of a task completes where the task stands. -/
def completeOf (s : State) (t tag : Nat) : State :=
  match paneOfTask s t with
  | some i => cmdDone s i 0 2 tag
  | none =>
    let s := s.modTask t (fun x => { x with saved := x.saved.map (fun b => completeEng b 0) })
    match ((s.taskOf t).bind (·.ranOn)).bind s.instOf with
    | some i => countCmd s i 0 2 tag
    | none => s

/-- A signal takes effect at its home, or is refused: the refusal faults a task that still exists; otherwise the signal is
discarded, logged and counted (R375, R377, R378). -/
def applySignal (s : State) (g : Sig) : State :=
  let b := g.obj / 4096
  let o := s.obj g.obj
  match refusal o g.ctx with
  | some c =>
    match (g.task.bind s.taskOf).filter (fun t => t.st != .faulted) with
    | some t => taskFault s t.id c { tag := g.tag }
    | none => logE (s.incReg (Reg.SYN_REFUSED b)) 0x07 2 b g.obj (detail c g.ctx) 0x0C
  | none =>
    let v := satAdd 64 o.val g.amount
    let s := s.setObj g.obj { o with val := v, sat := o.sat || decide (2 ^ 64 ≤ o.val + g.amount),
                                     last := some (g.pane, g.chip, g.ctx, s.bayTime b) }
    let s := retryStalled (settleObj s g.obj) b
    match g.task with
    | some t => if g.completes then completeOf s t g.tag else s
    | none => s

/-- Send a signal to its object's home (R373): it is applied by a SIGNAL_APPLY once the accesses it guards are done. -/
def sendSignal (s : State) (g : Sig) : State := { s with sigs := s.sigs ++ [g] }

/-- A signal of a pane's task on this device. -/
def paneSignal (s : State) (i obj amount : Nat) (completes : Bool) (guards : List Nat) (tag : Nat := 0) : State :=
  let p := s.pane i
  sendSignal s { obj, amount, pane := p.number.getD 0, chip := s.chip, ctx := p.ctx, task := p.task, completes, guards, tag }

/-- An object breaks: every waiter is released with broken status (R378). -/
def breakObj (s : State) (obj : Nat) : State :=
  let b := obj / 4096
  let ws := (s.bay b).waiters.filter (fun w => w.obj == obj) ++ (s.bay b).stalledWaits.filter (fun w => w.obj == obj)
  let s := s.setObj obj { s.obj obj with st := 2 }
  let s := s.modBay b (fun x => { x with waiters := x.waiters.filter (fun w => w.obj != obj),
                                         stalledWaits := x.stalledWaits.filter (fun w => w.obj != obj) })
  ws.foldl (fun s w => releaseWaiter s w 3) s

end Sys2Proof.Machine
end

