-- ==== Sys2Proof/Machine/XSend.lean ====
section
/-! DEFINITION. Sending over the exchange and to the companion: routes and flows (R410, R411), requests outstanding (R418,
R444), and the accesses that leave the device. -/

namespace Sys2Proof.Machine

open Sys2Proof

/-- The route entry of a chip, read as a system access and cached by the bay's XE, 256 entries (R410, R429). Log entry 14, DESIGN CHOICE. -/
def routeEntry (b chip : Nat) : Mc Nat := do
  let s ← get
  match (s.bay b).xe.routes.find? (fun e => e.1 == chip) with
  | some e => pure e.2
  | none =>
    let w : Who := .bay b (.route chip)
    let e := leNat (← sysRead w (s.reg64 (Reg.XE_RTBASE_LO b) (Reg.XE_RTBASE_HI b) + 8 * chip) 8)
    modify (fun s =>
      let s := dropNeeds s w
      let r := (s.bay b).xe.routes
      let (k, s) := s.pick r.length
      let r := if r.length < 256 then r else r.eraseIdx k
      s.modXe b (fun x => { x with routes := (chip, e) :: r }))
    pure e

/-- Usable ports of a route entry, rising: named, Up, and with NEXTHOP as peer chip (R410). -/
def usable (s : State) (e : Nat) : List Nat :=
  if bit e 44 then
    (List.range 32).filter (fun p => bit e p && s.portUp p && (match (s.port p).peer with | some (c, _) => c == bits e 43 32 | none => false)
      && (s.port p).drain.isNone)
  else []

/-- Give a message to bay `b`'s XE, which routes it. -/
def sendX (s : State) (b vc : Nat) (m : List Byte) : State := pushAcc s (parcelOut b (.xout vc m) m.length)

/-- Give a message to the XE when its destination has a route; else it is not sent (R410), also when the route table cannot be
read (R578). -/
def sendRouted (b vc : Nat) (m : List Byte) : Mc Bool := do
  let e ← tryCatch (routeEntry b (mDchip m)) (fun (e : Stop) => match e with
    | .flt _ => do
      modify (fun s => dropNeeds s (.bay b (.route (mDchip m))))
      pure 0
    | e => throw e)
  let s ← get
  if (usable s e).isEmpty then
    set (s.incReg (Reg.XE_NOROUTE b))
    pure false
  else
    set (sendX s b vc m)
    pure true

/-- A request from bay `b` to another chip. -/
def reqMsg (s : State) (b mtype cls dchip dbay ctx tag spane seng : Nat) (body : List Byte) : List Byte :=
  mkMsg mtype cls dchip dbay s.chip b ctx tag spane seng 0 body

/-- The response to a message received: same TAG, chips exchanged, DBAY the requester's SBAY (R415). -/
def respMsg (s : State) (b : Nat) (m : List Byte) (mtype status : Nat) (body : List Byte) : List Byte :=
  mkMsg mtype 3 (mSchip m) (mSbay m) s.chip b (mCtx m) (mTag m) (mSpane m) (mSeng m) status body

/-- The fault a response status gives its requester (Table 12-12); `se`: the SE reports every refusal but 0x2 and 0x3 as
0x75 (R276). -/
def statusCode (st : Nat) (se : Bool) : Nat :=
  if st = 2 then 0x80 else if st = 3 then 0x81 else if se then 0x75
  else if st = 1 then 0x93 else if st = 4 then 0x82 else if st = 5 then 0x83 else if st = 6 then 0x84
  else if st = 7 then 0x69 else if st = 8 then 0x63 else if st = 9 then 0x64 else if st = 0xA then 0xB2 else 0xB0

/-- The status a fault code is answered with (Table 12-12, R339: an owner-table error answers 0x2). -/
def codeStatus (code : Nat) : Nat :=
  if code = 0x93 then 1 else if code = 0x80 then 2 else if code = 0x81 then 3 else if code = 0x82 then 4
  else if code = 0x83 then 5 else if code = 0x84 then 6 else if code = 0xB2 then 0xA else 5

/-- Does a request of another device carry a context ID that none may carry (R37)? Log entry 114, DEDUCED. -/
def badCtx (m : List Byte) : Bool := mCtx m == 0 || mCtx m == 0xFFFF

/-- Message type of an access. -/
def accMtype (a : Access) : Nat := match a.op with | .read => 1 | .write => 2 | .writeM _ => 2 | _ => 3

/-- CLASS of an access as a request: a segment partial carries its task's class, everything else none (R74, R414). -/
def accClass (a : Access) : Nat := match a.purpose with | .put _ _ => if a.grp / 2 ^ 48 = 0 then 3 else a.grp / 2 ^ 48 - 1 | _ => 3

/-- Body of an access as a request (Table 12-11). -/
def accBody (a : Access) : List Byte :=
  match a.op with
  | .read => leBytes 8 a.pa ++ leBytes 4 a.len ++ leBytes 4 0
  | .write => leBytes 8 a.pa ++ a.data
  | .writeM _ => leBytes 8 a.pa ++ a.data
  | .add mask => leBytes 8 a.pa ++ leBytes 4 0 ++ leBytes 4 mask ++ a.data
  | .addLong => leBytes 8 a.pa ++ leBytes 4 1 ++ leBytes 4 0 ++ a.data
  | .msg => []

/-- Requests that are answered on VC1 (R415). -/
def isRequest (t : Nat) : Bool := t == 1 || t == 2 || t == 3 || t == 7 || t == 9 || t == 0x0D

/-- The type of the response to a request. -/
def respType (t : Nat) : Nat := if t ≤ 3 then t + 3 else if t = 7 then 8 else if t = 9 then 0x0A else t

/-- Answer a request with a status and no data. -/
def answerReq (s : State) (b : Nat) (m : List Byte) (status : Nat) : State :=
  sendX s b 1 (respMsg s b m (respType (mType m)) status [])

/-- A request of the table engine of bay `b` cannot be answered (R410, R422): its task faults; what a prefetch asked for is dropped. -/
def failTeReq (s : State) (b tag code : Nat) : State :=
  match (s.bay b).te.jobs.find? (fun j => j.sent.any (fun e => e.1 == tag)) with
  | some j =>
    if j.op = 2 then
      (s.modTe b (fun x => { x with jobs := x.jobs.map (fun k => { k with sent := k.sent.filter (fun e => e.1 != tag) }) })).incReg
        (Reg.TE_PFDROP b) ((j.sent.find? (fun e => e.1 == tag)).map (fun e => e.2.length) |>.getD 0)
    else taskFault s j.task code { eng := 5, op := j.op, tag := cbytes j.cmd 4 4 }
  | none => s

/-- A request of bay `b` for memory of another device cannot be answered: its access fails. -/
def failReq (s : State) (b mtype tag code : Nat) : State :=
  match (s.bay b).xe.reqs.find? (fun r => !r.host && r.tag == tag && r.mtype == mtype) with
  | some r =>
    let s := s.modXe b (fun x => { x with reqs := x.reqs.filter (fun q => !(q == r)) })
    { s with accs := s.accs.map (fun a => if a.id = r.access then { a with stage := .got, flt := some { code, addr := a.pa } } else a) }
  | none => s

/-- Does a table-service message carry what a command of bay `b` asks for, by the command's TAG: a question for a guest area, a row to
move or a row to write (log entry 18, DESIGN CHOICE)? -/
def svcAsks (s : State) (b : Nat) (m : List Byte) : Bool :=
  let k := field (mBody m) 0 1
  k == 2 || ((k == 4 || k == 11) && field (mBody m) 4 4 == s.chip * 16 + b)

/-- Is a message a request of a command of bay `b`'s table engine? -/
def teAsks (s : State) (b : Nat) (m : List Byte) : Bool := mType m == 7 || mType m == 9 || (mType m == 0x0D && svcAsks s b m)

/-- A message that found no route is answered (R410, R412): its requester, here or on another device, hears of it; anything else is
logged. -/
def unroutedMsg (s : State) (b : Nat) (m : List Byte) : State :=
  let t := mType m
  if mSchip m ≠ s.chip then
    if isRequest t && mStatus m == 0 then answerReq s b m 0xB else logE s 0x07 2 b (field (mBody m) 0 8) (detail 0xB0 (mCtx m)) t
  else if t = 1 ∨ t = 2 ∨ t = 3 then failReq s b t (mTag m) 0xB0
  else if teAsks s b m then failTeReq s b (mTag m) 0xB0
  else logE s 0x07 2 b (field (mBody m) 0 8) (detail 0xB0 (mCtx m)) t

/-- Answer what found no route, in every bay. Log entry 19, DESIGN CHOICE. -/
def answerUnrouted (s : State) : State :=
  (List.range 16).foldl (fun s b =>
    let ms := (s.bay b).xe.unrouted
    if ms.isEmpty then s
    else ms.foldl (fun s m => unroutedMsg s b m) (s.modXe b (fun x => { x with unrouted := [] }))) s

/-- Is an access on its way out of the device: a request to other memory, or a message of a bay's XE? -/
def leaves (a : Access) : Bool :=
  a.stage == .reqOut && (a.dev || a.host || match a.purpose with | .parcel (.xout _ _) => true | _ => false)

/-- What stands for the companion as a flow's destination (R432). -/
def hostDest : Nat := 4096

/-- Destination chip, source chip, source bay and virtual channel of what leaves the device (R411, R432). -/
def outFlow (s : State) (a : Access) : Nat × Nat × Nat × Nat :=
  match a.purpose with
  | .parcel (.xout vc m) => if a.host then (hostDest, s.chip, a.bay, vc) else (mDchip m, mSchip m, mSbay m, vc)
  | _ => (if a.host then hostDest else a.pa / 2 ^ 52, s.chip, a.bay, 0)

/-- An access ends for its requester with a fault code. -/
def endWith (s : State) (a : Access) (code addr : Nat) : State :=
  { s with accs := s.accs.map (fun x => if x.id = a.id then { x with stage := .got, flt := some { code, addr } } else x) }

/-- What found no route is not sent (R410): an engine's access fails with 0xB0, which the SE reports as 0x75 (R276, R417); the
table engine and the requester of a message hear of it. -/
def noRoute (s : State) (a : Access) : State :=
  let s := s.incReg (Reg.XE_NOROUTE a.bay)
  let gone := fun (s : State) => { s with accs := s.accs.filter (fun x => x.id != a.id) }
  match a.purpose with
  | .parcel (.xout _ m) => (gone s).modXe a.bay (fun x => { x with unrouted := x.unrouted ++ [m] })
  | .se _ _ _ _ => endWith s a 0x75 a.pa
  | _ => endWith s a 0xB0 a.pa

/-- Is there, at a port or on its way to it, an unacknowledged or unsent message of a flow (R411)? -/
def portHolds (s : State) (p vc dchip schip sbay : Nat) : Bool :=
  let m := fun (x : List Byte) => (dchip == hostDest || mDchip x == dchip && mSchip x == schip) && mSbay x == sbay
  (s.port p).txq.any (fun q => q.1 == vc && m q.2.2) || ((s.port p).sent ++ (s.port p).lost).any (fun q => q.1 == vc && m q.2.2)
    || s.accs.any (fun a => (leaves a || a.stage == .away) && a.rim.isSome && a.dst == p && outFlow s a == (dchip, schip, sbay, vc))

/-- The port that a flow uses of those usable (R411). -/
def flowChoice (s : State) (a : Access) (us : List Nat) : Nat :=
  let (_, schip, sbay, _) := outFlow s a
  us.getD ((schip + sbay) % us.length) 0

/-- A flow goes to a port (R411, R432): while its old port holds a message of it, the XE holds what it has for the new one. A
message of another chip counts as forwarded (R412). -/
def flowPort (s : State) (a : Access) (p : Nat) : State :=
  let (dchip, schip, sbay, vc) := outFlow s a
  let b := a.bay
  let isF := fun (f : Flow) => f.dchip == dchip && f.schip == schip && f.sbay == sbay && f.vc == vc
  let setF := fun (s : State) (g : Flow → Flow) => s.modXe b (fun x => { x with flows := x.flows.map (fun f => if isF f then g f else f) })
  let go := fun (s : State) => { (if a.host then s else (if schip = s.chip then s else s.incReg (Reg.XE_FWD b)).incReg (Reg.XE_TXMSG b)) with
    accs := s.accs.map (fun x => if x.id = a.id then { x with dst := p, rim := some (portLintel p), sent := 0 } else x) }
  match (s.bay b).xe.flows.find? isF with
  | none => go (s.modXe b (fun x => { x with flows := x.flows ++ [{ dchip, schip, sbay, vc, port := p, held := false }] }))
  | some f =>
    if f.held then s
    else if f.port == p || !portHolds s f.port vc dchip schip sbay then go (setF s (fun f => { f with port := p }))
    else setF s (fun f => { f with held := true })

/-- The port on which a response of die `f` leaves (R432). -/
def replyPort (s : State) (f : Nat) : Nat := if s.portUp (32 + f) || !s.portUp (33 - f) then 32 + f else 33 - f

/-- Send a message of bay `b` on Follux die `f`, as an answer to what came by it. -/
def replyHost (s : State) (b f vc : Nat) (m : List Byte) : State :=
  pushAcc s { parcelOut b (.xout vc m) m.length with host := true, dst := replyPort s f, rim := some (portLintel (replyPort s f)) }

/-- Route what leaves the device: to companion memory or a Follux die, with the link down 0xC0 (R445); or by the route table. -/
def routeOut (s : State) (a : Access) : State :=
  if a.host then (match s.hostPort a.bay with | some p => flowPort s a p | none => endWith s a 0xC0 a.pa)
  else
    match runMc (routeEntry a.bay (outFlow s a).1) s with
    | (.ok e, s) => (match usable s e with | [] => noRoute s a | us => flowPort s a (flowChoice s a us))
    | (.error (.need ns), _) => postNeeds s ns
    | (.error (.flt _), s) => noRoute (dropNeeds s (.bay a.bay (.route (outFlow s a).1))) a
    | (.error _, s) => s

/-- Route everything that waits to leave. Log entry 19, DESIGN CHOICE. -/
def routeOuts (s : State) : State := (s.accs.filter (fun a => leaves a && a.rim.isNone)).foldl routeOut s

/-- An access that has reached its rim die goes out as a request on its port. With 4,096 exchange or 1,024 companion requests
outstanding it waits (R418, R444). -/
def sendAway (s : State) (a : Access) : State :=
  let b := a.bay
  let host := a.host
  if (if host then 1024 else 4096) ≤ ((s.bay b).xe.reqs.filter (fun r => r.host == host)).length then s
  else
    let tag := (s.bay b).xe.tagSeq
    let spane := if a.isPane then a.owner else 0x7F
    let m := if host then mkMsg (accMtype a) 3 s.chip b s.chip b 0 tag spane a.eng 0 (accBody a)
      else reqMsg s b (accMtype a) (accClass a) (a.pa / 2 ^ 52) 0 a.ctx tag spane a.eng (accBody a)
    (s.queueTx a.dst 0 m).modXe b (fun x =>
      { x with tagSeq := (tag + 1) % 65536,
               reqs := x.reqs ++ [{ tag, host, chip := a.pa / 2 ^ 52, mtype := accMtype a, sent := s.devTime, access := a.id, port := a.dst }] })

/-- Send every access that has reached the edge of the device and has no request outstanding. Log entry 19, DESIGN CHOICE. -/
def flushAway (s : State) : State :=
  (s.accs.filter (fun a => a.stage == .away &&
    !((s.bay a.bay).xe.reqs.any (fun r => r.access == a.id)))).foldl sendAway s

end Sys2Proof.Machine
end

