-- ==== Sys2Proof/Machine/Walk.lean ====
section
/-! DEFINITION. Engine accesses on their way through translation (R328, R329, R331, R345, R347): looking an access up,
walks in flight, page faults that park a task, and the failure of an access. -/

namespace Sys2Proof.Machine

open Sys2Proof

/-- The pane instance whose running task an access serves. -/
def accInst (a : Access) : Option Nat :=
  match a.purpose with
  | .nge i _ => some i
  | .se i _ _ _ => some i
  | .line i => some i
  | .fetch (.cmd i _) => some i
  | .probe (.cmd i _) _ => some i
  | _ => none

/-- Replace an access of the list. -/
def setAcc (s : State) (a : Access) : State := { s with accs := s.accs.map (fun x => if x.id = a.id then a else x) }
/-- Remove an access. -/
def dropAcc (s : State) (id : Nat) : State := { s with accs := s.accs.filter (fun x => x.id != id) }

/-- The NGE's running job stops as R173 states: reads and unwritten work are discarded, and the command becomes issued but
unstarted with what it has written noted. -/
def stopNge (s : State) (i : Nat) : State :=
  match (s.pane i).nge with
  | none => s
  | some j =>
    let s := dropFetched { s with accs := s.accs.filter (fun a => match a.purpose with | .nge k _ => k != i | _ => true) } i 3
    s.modPane i (fun p => { p with nge := none, seq := { p.seq with
      unstarted := (3, j.cmd) :: p.seq.unstarted, progress := tset 0 (tset 0 p.seq.progress 3 j.done) 103 1 } })

/-- Every open stream of the pane stops at a block boundary (R274): it issues nothing more, undelivered blocks whose writes
have not begun are discarded with the descriptor buffer, and the resume cursor is the first undelivered block. -/
def stopStreams (s : State) (i : Nat) : State :=
  if (s.pane i).seq.streams.all (fun e => !(e.2.status == 1 || e.2.status == 2)) then s
  else
    let s : State := { s with accs := s.accs.filter (fun (a : Access) => match a.purpose with
      | .se j _ _ _ => j != i || a.op != .read | _ => true) }
    s.modPane i (fun p => { p with seq := { p.seq with streams := p.seq.streams.map (fun (e : Nat × Stream) =>
      if e.2.status = 1 ∨ e.2.status = 2 then
        (e.1, { e.2 with status := 5, descs := e.2.descs.filter (fun d => d.1 == e.2.didx), keep := [],
                         blocks := e.2.blocks.filter (·.writing) })
      else e) } })

/-- A fault stalls in place for want of an entry or of notice space: it is counted once, and retries later (R345). -/
def stallAt (s : State) (rec : List Nat) (again : Bool) : State :=
  let s := if again then s else s.incReg Reg.XLT_FQSTALL
  { s with gx := { s.gx with stalls := s.gx.stalls ++ [rec] } }

/-- A task meets a page fault on pane instance `i` (R345, R347): it joins the fault queue and is switched out to be
parked, or its engine stalls in place. `src` is the engine and the TAG of the command that met it; `again` says that a stall
retries. -/
def parkOn (s : State) (i ctx cause lvl va hpa : Nat) (wr : Bool) (src : Nat × Nat) (again : Bool := false) : State :=
  let p := s.pane i
  match p.task with
  | none => s
  | some t =>
    match fqEnter s ctx cause lvl va hpa wr p.number none (some t) with
    | some s =>
      let s := (stopStreams (stopNge s i) i).modTask t (fun x => { x with pf := src })
      let s := s.modPane i (fun p => { p with stalled := false })
      match (s.pane i).sw with
      | none => beginSwitch s i .parked none
      | some w => if w.outTask = some t then s.modPane i (fun p => { p with sw := some { w with outState := .parked } }) else s
    | none =>
      if p.stalled && !again then s
      else stallAt (s.modPane i (fun p => { p with stalled := true })) [t + 1, i, ctx, cause, lvl, va, hpa, b2n wr, src.1, src.2] again

/-- The slot set of a task that starts on pane instance `i` meets a page fault: the task is parked and the pane goes idle, or the
load stalls in place (R341, R345, R347). -/
def parkStart (s : State) (i t ctx cause lvl va hpa : Nat) (wr again : Bool) : State :=
  match fqEnter s ctx cause lvl va hpa wr (s.pane i).number none (some t) with
  | some s =>
    (s.modTask t (fun x => { x with st := .parked, ranOn := some (x.ranOn.getD ((s.pane i).number.getD 0)) })).modPane i
      (fun p => { p with sw := none, stalled := false })
  | none =>
    if (s.pane i).stalled && !again then s
    else stallAt (s.modPane i (fun p => { p with stalled := true })) [t + 1, i, ctx, cause, lvl, va, hpa, b2n wr, 15, 0] again

/-- A table engine serving as an owner meets a page fault: the request is held while the bay waits on the fault-queue entry, or
stalls for want of one (R235, R344, R345). The access that met it stays, marked 1 once it has joined and 2 while it stalls. -/
def holdTe (s : State) (b id ctx cause lvl va hpa : Nat) (wr again : Bool) : State :=
  let mark := fun (s : State) (n : Nat) => { s with accs := s.accs.map (fun a => if a.id = id then { a with sent := n } else a) }
  match s.accs.find? (fun a => a.id == id) with
  | none => s
  | some a =>
    if a.sent ≠ 0 ∧ !again then s
    else
      match fqEnter s ctx cause lvl va hpa wr none (some b) none with
      | some s => mark s 1
      | none => stallAt (mark s 2) [0, b, ctx, cause, lvl, va, hpa, b2n wr, id] again

/-- Stalled faults retry, whenever an entry or notice space is freed (R345). -/
def retryStalls (s : State) : State :=
  let ls := s.gx.stalls
  if ls.isEmpty then s
  else
    let s := { s with gx := { s.gx with stalls := [] } }
    ls.foldl (fun s l =>
      match l with
      | [t, i, ctx, cause, lvl, va, hpa, wr, eng, tag] =>
        if eng = 15 then parkStart s i (t - 1) ctx cause lvl va hpa (wr == 1) true
        else parkOn s i ctx cause lvl va hpa (wr == 1) (eng, tag) true
      | [_, b, ctx, cause, lvl, va, hpa, wr, id] => holdTe s b id ctx cause lvl va hpa (wr == 1) true
      | _ => s) s

/-- An access fails with a fault: a read run ahead is dropped and counted (R272); anything else carries the fault to its
requester. -/
def failAcc (s : State) (a : Access) (f : Flt) : State :=
  if a.ahead then
    match accInst a with
    | some i => (dropAcc s a.id).incReg (Reg.SE_PFDROP i)
    | none => dropAcc s a.id
  else setAcc s { a with stage := .got, flt := some f }

/-- An access meets a page fault: dropped when run ahead (R342); a line or a translation that an operation asked for carries it
to the operation; a demand access of an engine parks its task. -/
def pageAcc (s : State) (a : Access) (cause lvl va hpa : Nat) (wr : Bool) : State :=
  if a.ahead then failAcc s a { code := 0x91 }
  else
    let keep := setAcc s { a with stage := .got, pg := some (cause, lvl, hpa) }
    match a.purpose with
    | .fetch _ => keep
    | .probe _ _ => keep
    | .sw _ _ => keep
    | _ =>
      match accInst a with
      | some i =>
        let tag := match a.purpose with
          | .se _ st _ _ => (tget {} (s.pane i).seq.streams st).tag
          | .nge _ _ => (match (s.pane i).nge with | some j => cbytes j.cmd 4 4 | none => 0)
          | _ => 0
        parkOn s i a.ctx cause lvl va hpa wr (a.eng, tag)
      | none => failAcc s a { code := 0x91, addr := va }

/-- Is the access a write for translation? -/
def accWr (a : Access) : Bool := match a.purpose with | .probe _ wr => wr | _ => a.op != .read

/-- Start the walk of a page in a bay (R328): its first line is asked for. -/
def startWalk (s : State) (b : Nat) (w : Walk) : State :=
  let s := s.modXlt b (fun x => { x with walks := x.walks ++ [w] })
  postNeed s (walkNeed s b w)

/-- Look an access up in the bay's TLB. With no entry it waits for the walk of its page, which is started unless one is
outstanding (merged) or sixteen are (R328). Log entry 27, DEDUCED. -/
def lookupAcc (s : State) (a : Access) : State :=
  let b := a.bay
  if 2 ^ 48 ≤ a.va then failAcc s a { code := 0x90, addr := a.va }
  else
    match (s.bay b).xlt.tlb.find? (fun t => tlbCovers t a.ctx a.va) with
    | some t =>
      match runMc (useLeaf a.ctx t.lvl (runLeaf t a.va) a.va (accWr a)) s with
      | (.ok tg, s) =>
        (match a.purpose with
         | .probe _ _ => setAcc s { a with stage := .got }
         | _ => setAcc (s.incReg (Reg.XLT_HIT b)) (routeAcc s a tg))
      | (.error (.page _ c l va h w), s) => pageAcc (s.incReg (Reg.XLT_HIT b)) a c l va h w
      | (.error _, s) => s
    | none =>
      let same := (s.bay b).xlt.walks.any (fun w => w.ctx == a.ctx && w.va == a.va / 4096 * 4096)
      if same || 16 ≤ ((s.bay b).xlt.walks.filter (fun w => w.host.isNone)).length then s
      else startWalk (s.incReg (Reg.XLT_MISS b)) b (walkStart s b a.ctx a.va (accWr a))

/-- Accesses of a bay that wait for the translation of a page of a context. -/
def walkers (s : State) (b ctx va : Nat) : List Access :=
  s.accs.filter (fun a => a.stage == .xlate && a.bay == b && a.ctx == ctx && a.va / 4096 == va / 4096)

/-- Look every waiting access up again. Log entry 19, DESIGN CHOICE. -/
def lookupAll (s : State) : State := (s.accs.filter (fun a => a.stage == .xlate)).foldl lookupAcc s

/-- Add an access to the device. It starts at translation. -/
def addAcc (s : State) (a : Access) : State :=
  let a := { a with id := s.accSeq }
  lookupAcc { s with accs := s.accs ++ [a], accSeq := s.accSeq + 1 } a

/-- A walk is over: it leaves the walker with the line it has read. -/
def dropWalk (s : State) (b : Nat) (w : Walk) : State :=
  dropNeeds (s.modXlt b (fun x => { x with walks := x.walks.filter (fun v => !(v.ctx == w.ctx && v.va == w.va)) })) (.bay b (.walk w.ctx w.va))

/-- A walk ends for its accesses with a fault. -/
def failWalk (s : State) (b : Nat) (w : Walk) (f : Flt) : State :=
  let s := dropWalk s b w
  (walkers s b w.ctx w.va).foldl (fun s a => failAcc s a f) s

/-- A walk ends for its accesses with a page fault. -/
def pageWalk (s : State) (b : Nat) (w : Walk) (cause lvl hpa : Nat) : State :=
  let s := dropWalk s b w
  (walkers s b w.ctx w.va).foldl (fun s a => pageAcc s a cause lvl a.va hpa (accWr a)) s

/-- Ask the companion for a mapping (R329): at most 64 walks of a bay are outstanding there, and another waits with the entry it
has read; with the link down it faults. -/
def hostWalk (s : State) (b : Nat) (w : Walk) : State :=
  let n := ((s.bay b).xlt.walks.filter (fun v => v.host.isSome)).length
  if (s.hostPort b).isNone then failWalk s b w { code := 0x94, addr := w.va }
  else if 64 ≤ n then s
  else
    let tag := (s.bay b).xlt.tagSeq
    let s := dropNeeds s (.bay b (.walk w.ctx w.va))
    let s := s.modXlt b (fun x => { x with tagSeq := (tag + 1) % 65536, walks := x.walks.map (fun v =>
      if v.ctx = w.ctx ∧ v.va = w.va then { v with host := some (tag, s.devTime) } else v) })
    (s.incReg (Reg.XLT_RWALK b)).sendHost b 0 (s.hostMsg b 0x2D w.ctx tag 0 (leBytes 8 w.va ++ leBytes 4 (b2n w.wr) ++ leBytes 4 0))

/-- A stream ends with a failure status (R276), before the fault of its task ends the others. -/
def failStream (s : State) (i st status : Nat) : State :=
  s.modPane i (fun p => { p with seq := { p.seq with streams := p.seq.streams.map (fun (e : Nat × Stream) =>
    if e.1 = st ∧ openStream e.2 then (e.1, { e.2 with status, blocks := [], descs := [], keep := [] }) else e) } })

/-- The source of a fault of an access: for a narrow read the vertex that wanted its row. -/
def readSrc (s : State) (i : Nat) (a : Access) (f : Flt) : FSrc :=
  let base : FSrc := { eng := a.eng, addr := f.addr }
  match (s.pane i).nge, a.purpose with
  | some j, .nge _ k =>
    let unit := ((j.fetches.find? (fun x => x.pend.any (fun e => e.1 == k))).bind (fun x => x.wants.head?)).map (·.1)
    { base with
      op := j.op
      pos := ((j.units.find? (fun x => some x.no == unit)).map (·.vertex)).getD 0
      tag := cbytes j.cmd 4 4 }
  | _, .se _ st blk _ =>
    { base with
      pos := st + (if 2 ^ 40 ≤ blk then 16 else 0)
      tag := (tget {} (s.pane i).seq.streams st).tag
      addr := if f.code = 0x75 then a.va else f.addr }
  | _, _ => base

/-- Demand accesses that came back with a fault raise it on their task (R300, R338, R417); the first one stops the task. A line
that an operation asked for hands its fault to that operation. Log entry 19, DESIGN CHOICE. -/
def deliverFaults (s : State) : State :=
  (s.accs.filter (fun a => a.stage == .got && a.flt.isSome)).foldl (fun s a =>
    if !(s.accs.any (fun x => x.id == a.id)) then s
    else
      match a.flt, a.purpose with
      | some f, .put i t =>
        taskFault (dropAcc s a.id) t f.code { eng := a.eng, addr := f.addr, pos := a.grp % 2 ^ 40, op := a.grp / 2 ^ 40 % 256, tag := putTag s i a }
      | some _, .none => dropAcc s a.id
      | some f, .nge i _ => paneFault (dropAcc s a.id) i f.code (readSrc s i a f)
      | some f, .line i => paneFault (dropAcc s a.id) i f.code (readSrc s i a f)
      | some f, .se i st _ _ =>
        paneFault (failStream (dropAcc s a.id) i st (if f.code = 0x80 ∨ f.code = 0x81 then 6 else if f.code = 0x75 then 7 else 8)) i f.code
          (readSrc s i a f)
      | _, _ => s) s
where
  /-- TAG of the command that posted a write, while it runs. -/
  putTag (s : State) (i : Nat) (a : Access) : Nat :=
    match (s.pane i).nge with
    | some j => if a.eng = 3 then cbytes j.cmd 4 4 else 0
    | none => 0

end Sys2Proof.Machine
end

