-- ==== Sys2Proof/Machine/Operands.lean ====
section
/-! DEFINITION. Operand forms shared by the engines: the common command header (Table 2-4), scratchpad and accumulator
operands under the task's claim (R46, R47), and slot-table entries (R55 to R61). -/

namespace Sys2Proof.Machine

open Sys2Proof

/-! ### The command header (R48) -/

def hOp (c : Nat) : Nat := cbits c 0 7 0
def hEng (c : Nat) : Nat := cbits c 0 11 8
/-- Length in bytes: LEN in 16-byte units, plus 1. -/
def hLen (c : Nat) : Nat := (cbits c 0 15 12 + 1) * 16
def hWait (c : Nat) : Nat := cbits c 0 23 16
def hImm (c : Nat) : Bool := cbits c 0 24 24 == 1
def hRsv (c : Nat) : Nat := cbits c 0 31 25
def hTag (c : Nat) : Nat := cbytes c 4 4

/-- Is an opcode defined for an engine (Tables 2-6, 3-3, 5-3, 6-1, 7-6, 8-2, R132, R452)? -/
def opKnown (eng op : Nat) : Bool :=
  if eng = 0 then op ≤ 5
  else if eng = 1 ∨ eng = 2 then 1 ≤ op && op ≤ 3
  else if eng = 3 then 1 ≤ op && op ≤ 5
  else if eng = 4 then 1 ≤ op && op ≤ 4
  else if eng = 5 then 1 ≤ op && op ≤ 7
  else if eng = 6 then op == 0x20
  else op == 1

/-- Engine codes 0x8 to 0xF never stand in a header (Table 2-5). -/
def engKnown (eng : Nat) : Bool := eng ≤ 7

/-! ### Slot tables (R55 to R61) -/

/-- Slots in the frame of a table kind: 0 memory channel, 1 lintel out, 2 lintel in, 3 bay-engine command (R581). -/
def frameLen (kind : Nat) : Nat := if kind = 0 then 4096 else if kind = 3 then 256 else 4800
/-- Instances of a table kind. -/
def kindInsts (kind : Nat) : Nat := if kind = 0 then 32 else if kind = 3 then 3 else if kind ≤ 2 then 4 else 0
/-- Key of a slot-table entry. -/
def slotKey (kind inst slot : Nat) : Nat := kind * 2 ^ 18 + inst * 2 ^ 13 + slot
/-- Offset of an entry in the slot-table section of the image (R474). -/
def slotOff (b kind inst slot : Nat) : Nat :=
  b * 340480 + 2 * (if kind = 0 then inst * 4096 + slot else if kind = 1 then 131072 + inst * 4800 + slot
    else if kind = 2 then 131072 + 19200 + inst * 4800 + slot else 131072 + 38400 + inst * 256 + slot)
/-- The entry in force: what a commit put there, else the image's default (R58). -/
def slotEntry (s : State) (b kind inst slot : Nat) : Nat :=
  match tget none (s.bay b).slotIn (slotKey kind inst slot) with
  | some e => e
  | none => leNat (rawRead s.slotDef 0 (slotOff b kind inst slot) 2)

/-- Does a memory-channel or lintel-port entry name an owner: a pane number, or a bay when BAY = 1 (R56)? Log entry 22, DESIGN CHOICE. -/
def entryNames (e : Nat) (isPane : Bool) (owner eng : Nat) : Bool :=
  bit e 12 && bits e 10 7 == eng &&
  (if bit e 11 then !isPane && bits e 6 3 == owner && bits e 2 0 == 0 else isPane && bits e 6 0 == owner)

/-- Does an owner hold some slot in the frame of a table (R59)? -/
def holdsSlot (s : State) (b kind inst : Nat) (isPane : Bool) (owner eng : Nat) : Bool :=
  (List.range (frameLen kind)).any (fun k => entryNames (slotEntry s b kind inst k) isPane owner eng)

/-- Does a bay-engine command table hold a slot of a local pane index? -/
def holdsCmdSlot (s : State) (b eng lp : Nat) : Bool :=
  (List.range 256).any (fun k => let e := slotEntry s b 3 (eng - 5) k; bit e 4 && bits e 2 0 == lp)

/-- Class of step `k` under shares (R61): 0 read, 1 write, 2 remote, 3 idle. -/
def slotClass (rd wr rm k : Nat) : Nat :=
  let k' := revBits 6 (k % 64)
  if k' < rd then 0 else if k' < rd + wr then 1 else if k' < rd + wr + rm then 2 else 3

/-- Shares that give an entry its class: a pane's running context's, or BAY_BSHARE of the entry's bay. -/
def entryShares (s : State) (e : Nat) (lintel : Bool) : Nat × Nat × Nat :=
  if bit e 11 then
    let v := s.regN (Reg.BAY_BSHARE (bits e 6 3))
    (bits v 5 0, bits v 13 8, if lintel then bits v 21 16 else 0)
  else
    let sh := match s.instOf (bits e 6 0) with | some i => (s.pane i).shares | none => {}
    if lintel then (sh.lnkRd, sh.lnkWr, sh.lnkRm) else (sh.memRd, sh.memWr, 0)

/-- Does an engine hold a slot of a scratchpad bank (table 0-31) or an accumulator port (32, 33) in the loaded set? -/
def holdsLocal (p : Pane) (table eng : Nat) : Bool :=
  p.slotSet.isSome && (List.range 256).any (fun k => let e := tget 0 p.slots (table * 256 + k); bit e 4 && bits e 3 0 == eng)

/-! ### Scratchpad and accumulator operands (R46, R47) -/

/-- Is a range of scratchpad bytes within the claim of a task? Log entry 50, DEDUCED. -/
def inClaim (t : Task) (a n : Nat) : Bool :=
  n == 0 || (decide (a + n ≤ 0xC00000) && t.spbase ≤ a / 0x10000 && (a + n - 1) / 0x10000 < t.spbase + t.spcount)

/-- Is a tile claimed: a normal tile by its own bit, a long tile by the 20 tiles it overlays (R118)? -/
def tileClaimed (t : Task) (acct : Nat) (long : Bool) : Bool :=
  if long then (List.range 20).all (fun k => bit t.accmask (20 * (acct % 8) + k)) else bit t.accmask acct

/-- The running task of a pane. -/
def curTask (i : Nat) : Mc Task := do
  let s ← get
  match (s.pane i).task.bind s.taskOf with
  | some t => pure t
  | none => throw .wait

/-- Banks that a range touches. -/
def banksIn (a n : Nat) : List Nat := ((linesIn a n).map (fun l => l / 64 % 32)).eraseDups

/-- A pane-local access by an engine that holds no slot of the table: PANE_FAULT shows the kind of the resource, 4 a bank and 5 an
accumulator port, and the slot that comes up next in the table. Log entry 117, DESIGN CHOICE. -/
def localViolation (p : Pane) (table : Nat) : Flt :=
  { code := 0x05, kind := if table < 32 then 4 else 5, slot := tget 0 p.slotPos table }

/-- An engine's use of scratchpad bytes: the claim (0x06), then a slot of every bank it touches (0x05). Log entry 22, DESIGN CHOICE. -/
def spUse (i eng a n : Nat) : Mc Unit := do
  let t ← curTask i
  failIf (!inClaim t a n) 0x06
  let s ← get
  match (banksIn a n).find? (fun k => !holdsLocal (s.pane i) k eng) with
  | some k => throw (.flt (localViolation (s.pane i) k))
  | none => pure ()

/-- The words that an engine's read of scratchpad bytes checks: the vector engine reads its 64-byte bank words in full (R200). -/
def readWords (eng a n : Nat) : List Nat := if eng = 2 then (linesIn a n).flatMap (fun l => wordsIn l 64) else wordsIn a n

/-- Read claimed scratchpad bytes (R519: an uncorrectable word faults with 0xE2; a single error is corrected, logged and
its bank tested). -/
def spRead (i eng a n : Nat) : Mc (List Byte) := do
  spUse i eng a n
  let s ← get
  let p := s.pane i
  let ws := (readWords eng a n).filter (fun w => tget 0 p.spErr w != 0)
  match ws.find? (fun w => (eccRead (tget 0 p.spErr w)).isNone) with
  | some w =>
    set (strike (logE s 0x04 1 i w (detail 0xE2 p.ctx)) (.spBank i (w / 64 % 32)) w 0 true)
    fault 0xE2 w
  | none =>
    set (ws.foldl (fun s w =>
      if (match eccRead (tget 0 p.spErr w) with | some (_, c) => c | none => false) then
        strike (logE s 0x03 1 i w (detail 0 p.ctx)) (.spBank i (w / 64 % 32)) w 0 false
      else s) s)
    pure (eccBytes p.sp p.spErr a n)

/-- Write claimed scratchpad bytes with valid check bits. -/
def spWrite (i eng a : Nat) (bs : List Byte) : Mc Unit := do
  spUse i eng a bs.length
  modify (fun s => s.modPane i (fun p => { p with sp := rawWrite p.sp 0 a bs, spErr := eccClear p.spErr a bs.length }))

/-- Read accumulator bytes (R519, R520 with the tile's place as the address and the pane as the target). -/
def accRead (i eng a n : Nat) : Mc (List Byte) := do
  let s ← get
  let p := s.pane i
  if !(holdsLocal p 32 eng || holdsLocal p 33 eng) then throw (.flt (localViolation p 32))
  match (wordsIn a n).find? (fun w => tget 0 p.accErr w != 0 && (eccRead (tget 0 p.accErr w)).isNone) with
  | some w =>
    set (strike (logE s 0x04 1 i w (detail 0xE2 p.ctx)) (.pane i) w 0 true)
    fault 0xE2 w
  | none =>
    set ((wordsIn a n).foldl (fun s w =>
      if tget 0 p.accErr w != 0 && (eccRead (tget 0 p.accErr w)).any (·.2) then strike (logE s 0x03 1 i w (detail 0 p.ctx)) (.pane i) w 0 false
      else s) s)
    pure (eccBytes p.acc p.accErr a n)

/-- Write accumulator bytes with valid check bits. -/
def accStore (s : State) (i : Nat) (es : List (Nat × Byte)) : State :=
  s.modPane i (fun p => { p with acc := tsetAll 0 p.acc es
                                 accErr := es.foldl (fun m e => tdel m (e.1 / 4 * 4)) p.accErr })

/-- Add to a task counter of a pane instance (offset in its 64 KiB), saturating at its largest value (R114). -/
def cnt (i off : Nat) (n : Nat) : Mc Unit := modify (fun s => if n = 0 then s else s.incReg (paneBase i + off) n)

/-- Elements of a format code read from bytes: element `k`, low nibble first for INT4. -/
def elemAt (code : Nat) (bs : List Byte) (k : Nat) : Nat :=
  let w := fmtBitsOf code
  if w = 4 then (field bs (k / 2) 1) / 16 ^ (k % 2) % 16 else field bs (k * (w / 8)) (w / 8)
where
  /-- Element width in bits by format code. -/
  fmtBitsOf (code : Nat) : Nat :=
    if code = 0 ∨ code = 7 then 32 else if code = 1 ∨ code = 2 then 16
    else if code = 3 ∨ code = 4 ∨ code = 5 then 8 else 4

/-- Pack elements of `w` bits, lowest first, into bytes. -/
def packElems (w : Nat) (es : List Nat) : List Byte :=
  if w = 4 then
    leBytes ((es.length + 1) / 2) (es.foldr (fun e a => e % 16 + 16 * a) 0)
  else (es.map (fun e => leBytes (w / 8) e)).flatten

end Sys2Proof.Machine
end

