-- ==== Sys2Proof/Machine/Units.lean ====
section
/-! DEFINITION. What the units of a bay do for themselves between steps: doorbells (R43, R44), the records of the retirement
queue (R305), and the traffic of a context switch (Table 2-8, steps 4 to 6: R57, R65 to R70, R277, R579). -/

namespace Sys2Proof.Machine

open Sys2Proof

/-! ### Queue descriptors and doorbells -/

/-- Address of a queue descriptor (R42). -/
def qdescAddr (s : State) (b q : Nat) : Nat := localPa (s.reg64 (Reg.BAY_QTBASE_LO b) (Reg.BAY_QTBASE_HI b) + 64 * q)

/-- A queue is disabled for an error (R43): BAY_QERR names it; ERR is set and ENABLE cleared where its descriptor `d` has been
read and can be written (R578). Log entry 37, DEDUCED. -/
def queueError (s : State) (b q : Nat) (d : Option (List Byte)) : State :=
  let s := s.setReg (Reg.BAY_QERR b) (2 ^ 31 + q)
  let a := qdescAddr s b q
  match d with
  | some d =>
    sysPost (sysPost s (.bay b .fetch) (a + 8) (leBytes 4 (setBits (field d 8 4) 20 20 0))) (.bay b .fetch) (a + 14)
      (leBytes 2 (setBits (field d 14 2) 0 0 1))
  | none => s

/-- A doorbell's tail is accepted when the queue is enabled and the ring can hold it (R43), once the descriptor has come. Log entry 37, DEDUCED. -/
def doorbellRead (b v : Nat) : Mc Unit := do
  let q := bits v 23 16
  let s ← get
  let d ← sysRead (.bay b .doorbell) (qdescAddr s b q) 64
  if bit (field d 8 4) 20 then
    if 2 ^ bits (field d 8 4) 19 16 < (bits v 15 0 + 65536 - field d 12 2) % 65536 then modify (fun s => queueError s b q (some d))
    else modify (fun s => s.modBay b (fun x => { x with tails := tset none x.tails q (some (bits v 15 0)) }))
  else pure ()

/-- Doorbells of a bay whose descriptors have come, in order. -/
def goDoorbells : Nat → State → Nat → State
  | 0, s, _ => s
  | fuel + 1, s, b =>
    match (s.bay b).dbWait with
    | [] => s
    | v :: vs =>
      let pop := fun (s : State) => goDoorbells fuel (s.modBay b (fun x => { x with dbWait := vs })) b
      match runMc (doorbellRead b v) s with
      | (.ok _, s) => pop (dropNeeds s (.bay b .doorbell))
      | (.error (.need ns), _) => postNeeds s ns
      | (.error _, s) => pop (queueError (dropNeeds s (.bay b .doorbell)) b (bits v 23 16) none)

/-- A doorbell (R43, R44): refused without a credit; else its queue's descriptor is read. Log entry 37, DEDUCED. Log entry 101, DESIGN CHOICE. -/
def doorbell (s : State) (b v : Nat) : State :=
  if freeEntries s b = 0 then
    let n := satAdd 16 (bits (s.regN (Reg.BAY_DBSTAT b)) 15 0) 1
    (s.setReg (Reg.BAY_DBSTAT b) (n + bits v 23 16 * 2 ^ 16)).modBay b (fun x => { x with owedCredit := true })
  else s.modBay b (fun x => { x with dbWait := x.dbWait ++ [v] })

/-! ### The retirement queue (R305) -/

/-- The bytes of a retirement record (Table 9-7). -/
def retBytes (r : RetRec) : List Byte := leBytes 8 (r.typ + r.ch * 16 + r.page * 4096) ++ leBytes 8 r.time

/-- Is a bay's retirement queue full (R305, R578)? -/
def rqFull (s : State) (b : Nat) : Bool :=
  (s.regN (Reg.MEM_RQHEAD b) + 1) % 256 == s.regN (Reg.MEM_RQTAIL b) || (s.bay b).mem.rqStuck

/-- Send the oldest retirement record of a bay to MEM_RQHEAD. -/
def sendRet (s : State) (b : Nat) : State :=
  ringSend s 1 b (rqFull s b) (.bay b .fetch) (s.reg64 (Reg.MEM_RQBASE_LO b) (Reg.MEM_RQBASE_HI b) + 16 * s.regN (Reg.MEM_RQHEAD b))
    ((s.bay b).mem.held.head?.map retBytes) (fun s => s.modMem b (fun m => { m with rqStuck := true }))

/-- The record that was on its way is in the queue: MEM_RQHEAD advances and the memory interrupt is raised. -/
def retWritten (s : State) (b : Nat) : State :=
  match (s.bay b).mem.held with
  | [] => s
  | r :: rs =>
    let h := s.regN (Reg.MEM_RQHEAD b)
    let s := s.modMem b (fun m => { m with held := rs, ring := tset none m.ring h (some r) })
    raiseIrq (s.setReg (Reg.MEM_RQHEAD b) ((h + 1) % 256)) b

/-- Send what waits for its ring, and serve the doorbells, of every bay. Log entry 19, DESIGN CHOICE. -/
def goUnits (s : State) : State :=
  let s := (List.range 16).foldl (fun s b =>
    let s := if (s.bay b).tfHeld.isEmpty then s else sendTf s b
    let s := if (s.bay b).mem.held.isEmpty then s else sendRet s b
    goDoorbells (s.bay b).dbWait.length s b) s
  if s.gx.noticeHeld.isEmpty then s else sendNotice s

/-! ### Pages that a context switch moves -/

/-- A page of a switch: context, virtual address, what it is (0 sequencer block, 1 accumulator image, 2 scratchpad image, 3 slot
set) and its place there. -/
abbrev SwPage := Nat × Nat × Nat × Nat

/-- Pages of the tiles and regions of a context at its save area (R68). -/
def imagePages (ctx base : Nat) (ts rs : List Nat) : List SwPage :=
  ts.flatMap (fun k => (List.range 4).map (fun j => (ctx, base + 0x1000 + 0x4000 * k + 4096 * j, 1, 0x4000 * k + 4096 * j)))
    ++ rs.flatMap (fun k => (List.range 16).map (fun j => (ctx, base + 0x201000 + 0x10000 * k + 4096 * j, 2, 0x10000 * k + 4096 * j)))

/-- Regions and tiles of a claim that another context holds, by owner (R69). -/
def overlapOf (p : Pane) (t : Task) : List (Nat × List Nat × List Nat) :=
  (((claimRegions t).map (regOwner p) ++ (claimTiles t).map (tileOwner p)).eraseDups.filter (fun o => o != 0xFFFF && o != t.ctx)).map
    (fun o => (o, (claimTiles t).filter (fun k => tileOwner p k == o), (claimRegions t).filter (fun k => regOwner p k == o)))

/-- Tiles and regions of a claim that are not resident (R69). -/
def missingOf (p : Pane) (t : Task) : List Nat × List Nat :=
  ((claimTiles t).filter (fun k => tileOwner p k != t.ctx), (claimRegions t).filter (fun k => regOwner p k != t.ctx))

/-- Bytes of a page of a switch. -/
def swLen (pg : SwPage) : Nat := if pg.2.2.1 = 3 then min 4096 (34 * 512 - pg.2.2.2) else 4096

/-- A stream record (Table 8-4), saved at offset 0x0800 + 64 * stream of the sequencer block (R277). -/
def streamRecord (x : Stream) : List Byte :=
  let f := fun (n : Nat) => leBytes 4 (n % 2 ^ 24)
  leBytes 4 (x.status + x.kind * 2 ^ 4 + x.nbuf * 2 ^ 6 + b2n x.syncen * 2 ^ 10 + x.sync * 2 ^ 16) ++ f x.bufaddr ++ f x.bufstride
    ++ leBytes 8 x.dlist ++ f x.ndesc ++ f x.didx ++ f x.curb ++ (x.cur.map (leBytes 2)).flatten ++ leBytes 4 x.deliv
    ++ leBytes 4 (if x.kind = 2 then x.deliv else x.done) ++ leBytes 8 x.dry ++ leBytes 8 0

/-- A stream as its record restores it (Table 8-4); what the record does not hold is as it was. -/
def streamOfRecord (x : Stream) (r : List Byte) : Stream :=
  let w := field r 0 4
  { x with
    status := bits w 3 0, kind := bits w 5 4, nbuf := bits w 9 6, syncen := bit w 10, sync := bits w 31 16
    bufaddr := field r 4 4, bufstride := field r 8 4, dlist := field r 12 8, ndesc := field r 20 4, didx := field r 24 4
    curb := field r 28 4, cur := (List.range 4).map (fun k => field r (32 + 2 * k) 2), deliv := field r 40 4
    done := field r 44 4, dry := field r 48 8 }

/-- The image of a sequencer block: the stream records at 0x800 (R277), and free values in the rest of its 4 KiB, whose layout
the manual does not give (R67, R68; log entry 17, DESIGN CHOICE). -/
def seqImage (s : State) (i : Nat) : List Byte × State :=
  let (bs, s) := s.freeBytes 0xC00
  (bs.take 0x800 ++ ((List.range 16).map (fun k => streamRecord (tget {} (s.pane i).seq.streams k))).flatten ++ bs.drop 0x800, s)

/-- The streams of a sequencer block as its image restores them. Log entry 17, DESIGN CHOICE. -/
def restoreStreams (blk : SeqBlk) (img : List Byte) : SeqBlk :=
  { blk with streams := blk.streams.map (fun (e : Nat × Stream) => (e.1, streamOfRecord e.2 ((img.drop (0x800 + 64 * e.1)).take 64))) }

/-- A page of a pane's tiles or regions as it goes to the save area: single errors corrected, an uncorrectable word as zero, each
logged and its bank or pane tested; the context's next task on the pane number faults for a zeroed word (R519, R520). Log entry 99, DEDUCED. -/
def imageOut (s : State) (i ctx kind src : Nat) : List Byte × State :=
  let p := s.pane i
  let (t, errs) := if kind = 1 then (p.acc, p.accErr) else (p.sp, p.spErr)
  let tgt := fun (w : Nat) => if kind = 1 then Target.pane i else Target.spBank i (w / 64 % 32)
  let ws := errs.filter (fun e => src ≤ e.1 && e.1 < src + 4096)
  let (badWs, okWs) := ws.partition (fun e => (eccRead e.2).isNone)
  let clean := badWs.foldl (fun m e => tdrop m e.1 (e.1 + 4)) (healWords t errs (okWs.map (·.1))).1
  let s := ws.foldl (fun s e => match eccRead e.2 with
    | none => strike (logE s 0x04 1 i e.1 (detail 0xE2 ctx)) (tgt e.1) e.1 0 true
    | some (_, true) => strike (logE s 0x03 1 i e.1 (detail 0 ctx)) (tgt e.1) e.1 0 false
    | some (_, false) => s) s
  let s := if badWs.isEmpty then s
    else s.modPane i (fun p => { p with poison := if p.poison.contains ctx then p.poison else p.poison ++ [ctx] })
  (rawRead clean 0 src 4096, s)

/-- A page that came from a save area lands in the pane, with valid check bits. -/
def imageIn (s : State) (i kind dst : Nat) (bs : List Byte) : State :=
  s.modPane i (fun p =>
    if kind = 1 then { p with acc := rawWrite p.acc 0 dst bs, accErr := eccClear p.accErr dst bs.length }
    else { p with sp := rawWrite p.sp 0 dst bs, spErr := eccClear p.spErr dst bs.length })

/-- The accesses of a switch's page are used up. -/
def dropSw (s : State) (i : Nat) : State :=
  { dropNeeds s (.sw i) with accs := (dropNeeds s (.sw i)).accs.filter (fun a => match a.purpose with | .sw j _ => j != i | _ => true) }

/-- Change the switch of a pane. -/
def modSw (s : State) (i : Nat) (f : Switch → Switch) : State := s.modPane i (fun p => { p with sw := p.sw.map f })

/-- Put the pages of a step on the list. -/
def laySw (s : State) (i : Nat) (ps : List SwPage) : State := modSw s i (fun w => { w with laid := true, todo := ps, page := none, got := [] })

/-- A save fails (R579): every task of the context that holds state on the pane faults, its regions and tiles there are released,
and the switch goes on without it. A save for a pane's replacement reports 0xE0 (R533). -/
def saveFails (s : State) (i ctx code addr : Nat) : State :=
  let code := if s.rel.repl.any (fun r => r.old == i) then 0xE0 else code
  let n := (s.pane i).number
  let here := fun (t : Task) => t.ctx == ctx && t.bay == bayOf i && (t.saved.isSome && t.ranOn == n || (s.pane i).task == some t.id)
  let s : State := (s.tasks.filter here).foldl (fun s t => taskFault s t.id code { addr }) s
  modSw (dropSw (releaseCtx s i ctx) i) i (fun w => { w with page := none, todo := w.todo.filter (fun p => p.1 != ctx) })

/-- A restore fails (R579): the incoming task faults and does not run, and its claimed regions and tiles are released. -/
def restoreFails (s : State) (i : Nat) (t : Task) (code addr : Nat) : State :=
  let s := taskFault (dropNeeds (dropSw s i) (.start i t.id)) t.id code { addr }
  (release s i (claimRegions t) (claimTiles t)).modPane i (fun p => { p with sw := none })

/-- What a page's move ends in: a fault in step 6 faults the task, a page fault there may be mended (R341); in steps 4 and 5
neither is retried, and a page fault is code 0x91 (R579). -/
def swFails (s : State) (i : Nat) (w : Switch) (pg : SwPage) (e : Stop) : State :=
  let (code, addr) := match e with | .flt f => (f.code, f.addr) | _ => (0x91, 0)
  if w.step = 4 then saveFails s i pg.1 code addr
  else
    match w.inTask.bind s.taskOf with
    | none => (dropSw s i).modPane i (fun p => { p with sw := none })
    | some t =>
      if w.step = 5 then restoreFails s i t code addr
      else
        match e with
        | .page ctx cause lvl va hpa wr =>
          parkStart (modSw (dropSw s i) i (fun w => { w with laid := false })) i t.id ctx cause lvl va hpa wr false
        | _ => taskFault ((dropNeeds (dropSw s i) (.start i t.id)).modPane i (fun p => { p with sw := none })) t.id code { addr }

/-- Put the next page of a switch on its way: translated first, then its 64-byte lines, or requests of at most 1,024 bytes to
another memory. Log entry 111, DESIGN CHOICE. -/
def swPage (s : State) (i : Nat) (w : Switch) (pg : SwPage) : State :=
  let (ctx, va, kind, off) := pg
  let wr := w.step == 4
  match runMc (xlate (.sw i) (bayOf i) ctx va wr) s with
  | (.error (.need ns), _) => postNeeds s ns
  | (.error e, s) => swFails s i w pg e
  | (.ok tg, s) =>
    let s := modSw s i (fun w => { w with page := some pg, todo := w.todo.drop 1 })
    if wr then
      let (bs, s) := if kind = 0 then seqImage s i else imageOut s i ctx kind off
      postWrite s (.sw i) ctx va tg bs (.sw i 0)
    else
      let step := match tg with | .loc _ => 64 | _ => 1024
      (List.range (swLen pg / step)).foldl (fun s k =>
        let o := step * k
        let at_ : Tgt := match tg with | .loc p => .loc (p + o) | .dev p => .dev (p + o) | .host p => .host (p + o)
        pushAcc s (routeAcc s (Who.access s (.sw i) ctx false .read (va + o) 0 step [] (.sw i o)) at_)) s

/-- The page on its way has come whole: it lands, or the step fails for what failed. -/
def swArrived (s : State) (i : Nat) (w : Switch) (pg : SwPage) (as : List Access) : State :=
  match as.findSome? (fun a => a.stop false) with
  | some e => swFails s i w pg e
  | none =>
    let bs := as.flatMap (·.data)
    let s := modSw (dropSw s i) i (fun w => { w with page := none })
    if w.step = 4 then s
    else if pg.2.2.1 = 1 ∨ pg.2.2.1 = 2 then imageIn s i pg.2.2.1 pg.2.2.2 bs
    else modSw s i (fun w => { w with got := w.got ++ bs })

/-- Lay out the pages of a switch's step: in step 4 the outgoing sequencer block and what the incoming claim overlaps; in step 5,
once the incoming context's record has come, its sequencer block and what its claim lacks; in step 6 its slot set. -/
def swLay (s : State) (i : Nat) (w : Switch) : State :=
  let p := s.pane i
  if w.step = 4 then
    let blk := match w.outTask with | some _ => [(p.ctx, saveArea p p.ctx, 0, 0)] | none => []
    let ovl := match w.inTask.bind s.taskOf with
      | some t => (overlapOf p t).flatMap (fun o => imagePages o.1 (saveArea p o.1) o.2.1 o.2.2)
      | none => []
    laySw s i (blk ++ ovl)
  else
    match w.inTask.bind s.taskOf with
    | none => if w.step = 6 then s.modPane i (fun p => { p with sw := none }) else laySw s i []
    | some t =>
      if p.poison.contains t.ctx then
        taskFault (s.modPane i (fun p => { p with sw := none, poison := p.poison.erase t.ctx })) t.id 0xE1 {}
      else
        match runMc (startRecord i t.id t.ctx) s with
        | (.error (.need ns), _) => postNeeds s ns
        | (.error (.flt f), s) =>
          taskFault ((dropNeeds s (.start i t.id)).modPane i (fun p => { p with sw := none })) t.id f.code { addr := f.addr }
        | (.error _, s) => s
        | (.ok r, s) =>
          let s := s.modPane i (fun p => { p with bases := tset 0 p.bases t.ctx (field r 24 8) })
          if w.step = 5 then
            let base := saveArea (s.pane i) t.ctx
            let (ts, rs) := missingOf p t
            laySw s i ((if t.saved.isSome then [(t.ctx, base, 0, 0)] else []) ++ imagePages t.ctx base ts rs)
          else laySw s i ((List.range 5).map (fun k => (t.ctx, slotSetAt t r + 4096 * k, 3, 4096 * k)))

/-- Has a step of a switch moved all its pages? -/
def swReady (p : Pane) (step : Nat) : Bool :=
  match p.sw with
  | some w => w.step == step && w.laid && w.todo.isEmpty && w.page.isNone
  | none => false

/-- The slot set of a pane is loaded: its entries take effect, every local frame starts at slot 0, and the task runs (R57, R65).
Log entry 118, DESIGN CHOICE. -/
def slotsLoaded (s : State) (i : Nat) (t : Task) (r img : List Byte) : State :=
  let s := s.modPane i (fun p => { p with
    slotSet := some (t.ctx, slotSetAt t r)
    slots := tsetAll 0 [] ((List.range (34 * 256)).map (fun k => (k, field img (2 * k) 2)))
    slotPos := [] })
  resumeWaits (launch s i t r) i

/-- Advance the switch of a pane by what has come: pages one by one; step 6 ends by itself. Log entry 111, DESIGN CHOICE. -/
def goSwitch (s : State) (i : Nat) : State :=
  match (s.pane i).sw with
  | none => s
  | some w =>
    if w.step < 4 || (s.pane i).stalled then s
    else if !w.laid then swLay s i w
    else
      match w.page, w.todo with
      | some pg, _ =>
        let as := (s.accs.filter (fun a => match a.purpose with | .sw j _ => j == i | _ => false)).insertionSort (fun a b => a.id ≤ b.id)
        if as.all (fun a => a.stage == .got) then swArrived s i w pg as else s
      | none, pg :: _ => swPage s i w pg
      | none, [] =>
        if w.step ≠ 6 then s
        else
          match w.inTask.bind s.taskOf with
          | none => s.modPane i (fun p => { p with sw := none })
          | some t =>
            match runMc (startRecord i t.id t.ctx) s with
            | (.ok r, s) => slotsLoaded s i t r w.got
            | (.error (.need ns), _) => postNeeds s ns
            | (.error _, s) => s

/-- Advance every switch; `n` bounds how often, as pages come whole. Log entry 19, DESIGN CHOICE. -/
def goSwitches (s : State) : State :=
  s.panes.foldl (fun s e => if (s.pane e.1).sw.isSome then goSwitch (goSwitch (goSwitch s e.1) e.1) e.1 else s) s

end Sys2Proof.Machine
end

