-- ==== Sys2Proof/Machine/Streams.lean ====
section
/-! DEFINITION. The stream engine (R256 to R275): descriptors, blocks, the reads and writes of open streams, and what follows
every step of the device. -/

namespace Sys2Proof.Machine

open Sys2Proof

/-! ### Descriptors and blocks (R257 to R260) -/

/-- A transfer descriptor (Table 8-1): sizes and strides by dimension, dimension 0 first. -/
structure SDesc where
  src : Nat
  dst : Nat
  ndim : Nat
  bdim : Nat
  srcSp : Bool
  dstSp : Bool
  size : List Nat
  bext : Nat
  rate : Nat
  sstr : List Nat
  dstr : List Nat
deriving DecidableEq, Repr

/-- The descriptor's fields. Log entry 66, DEDUCED. -/
def sdesc (d : List Byte) : SDesc :=
  let w := field d 16 4
  let strides := fun (o : Nat) => 0 :: (List.range 4).map (fun k => field d (o + 4 * k) 4)
  { src := field d 0 8, dst := field d 8 8, ndim := bits w 26 24 + 1, bdim := bits w 29 27, srcSp := bit w 30, dstSp := bit w 31,
    size := bits w 23 0 :: (List.range 4).map (fun k => field d (20 + 2 * k) 2), bext := field d 28 2, rate := field d 30 2,
    sstr := strides 32, dstr := strides 48 }

/-- Size and strides of a dimension. -/
def SDesc.n (d : SDesc) (k : Nat) : Nat := d.size.getD k 0
def SDesc.s (d : SDesc) (k : Nat) : Nat := d.sstr.getD k 0
def SDesc.t (d : SDesc) (k : Nat) : Nat := d.dstr.getD k 0

/-- Extent of a full block along BDIM, in bytes for BDIM = 0. -/
def SDesc.ext (d : SDesc) : Nat := if d.bdim = 0 then 64 * d.bext else d.bext
/-- Bytes of a full block. -/
def SDesc.full (d : SDesc) : Nat := ((List.range d.bdim).map d.n).foldl (· * ·) 1 * d.ext
/-- Blocks along BDIM. -/
def SDesc.count (d : SDesc) : Nat := (d.n d.bdim + d.ext - 1) / d.ext
/-- Dimensions above BDIM. -/
def SDesc.outer (d : SDesc) : List Nat := (List.range d.ndim).filter (fun k => decide (d.bdim < k))
/-- Blocks of the transfer. -/
def SDesc.total (d : SDesc) : Nat := (d.outer.map d.n).foldl (· * ·) d.count

/-- Does a descriptor break R258 for a stream of a kind? -/
def SDesc.bad (d : SDesc) (kind : Nat) : Bool :=
  (d.srcSp && d.dstSp) || kind != (if d.dstSp then 0 else if d.srcSp then 1 else 2)
    || d.n 0 % 4 != 0 || d.src % 4 != 0 || d.dst % 4 != 0 || d.sstr.any (fun x => x % 4 != 0) || d.dstr.any (fun x => x % 4 != 0)
    || decide (5 < d.ndim) || (List.range d.ndim).any (fun k => d.n k == 0) || d.bext == 0 || decide (d.ndim ≤ d.bdim)
    || [1, 2, 3, 4].any (fun k => decide (d.ndim ≤ k) && (d.n k != 0 || d.s k != 0 || d.t k != 0))
    || decide (2 ^ 20 < d.full)

/-- Bytes of a buffer that a full block reaches: its offset and its strides at the ring, or its packed size in a copy. -/
def SDesc.reach (d : SDesc) : Nat :=
  if !d.srcSp && !d.dstSp then d.full
  else
    let str := if d.srcSp then d.s else d.t
    let off := (if d.srcSp then d.src else d.dst) % 2 ^ 24
    if d.bdim = 0 then off + d.ext
    else off + d.n 0 + (((List.range d.bdim).drop 1).map (fun k => (d.n k - 1) * str k)).foldl (· + ·) 0 + (d.ext - 1) * str d.bdim

/-- Coordinates of block `q` along the dimensions above BDIM. -/
def outerCoords (d : SDesc) : Nat → List Nat → List (Nat × Nat)
  | _, [] => []
  | q, k :: ks => (k, q % d.n k) :: outerCoords d (q / d.n k) ks

/-- Offsets of the rows of a block over the dimensions from 1 up: source side, destination side. -/
def rowOffs (d : SDesc) (ext : Nat → Nat) : List Nat → List (Nat × Nat)
  | [] => [(0, 0)]
  | k :: ks => (rowOffs d ext ks).flatMap (fun r => (List.range (ext k)).map (fun j => (r.1 + j * d.s k, r.2 + j * d.t k)))

/-- Contiguous segments of block `q`: source address, destination address, place in the packed block, length (R259). The
ring's address is an offset within the buffer. Log entry 66, DEDUCED. -/
def blockSegs (d : SDesc) (q : Nat) : List (Nat × Nat × Nat × Nat) :=
  let first := q % d.count * d.ext
  let oc := outerCoords d (q / d.count) d.outer
  let so := (oc.map (fun c => c.2 * d.s c.1)).foldl (· + ·) 0
  let dn := (oc.map (fun c => c.2 * d.t c.1)).foldl (· + ·) 0
  let here := min d.ext (d.n d.bdim - first)
  let sb := if d.srcSp then d.src % 2 ^ 24 else d.src + so + (if d.bdim = 0 then first else first * d.s d.bdim)
  let tb := if d.dstSp then d.dst % 2 ^ 24 else d.dst + dn + (if d.bdim = 0 then first else first * d.t d.bdim)
  if d.bdim = 0 then [(sb % 2 ^ 64, tb % 2 ^ 64, 0, here)]
  else
    let rows := rowOffs d (fun k => if k = d.bdim then here else d.n k) ((List.range (d.bdim + 1)).drop 1)
    (rows.zipIdx).map (fun r => ((sb + r.1.1) % 2 ^ 64, (tb + r.1.2) % 2 ^ 64, r.2 * d.n 0, d.n 0))

/-- Bytes of a block. -/
def sblkBytes (d : SDesc) (q : Nat) : Nat := ((blockSegs d q).map (fun g => g.2.2.2)).foldl (· + ·) 0

/-- Pieces of segments by 64-byte word of memory: word address, offset in the word, place in the ring, length. -/
def wordParts (segs : List (Nat × Nat × Nat)) : List (Nat × Nat × Nat × Nat) :=
  segs.flatMap (fun g =>
    ((List.range ((g.1 + g.2.2 + 63) / 64 - g.1 / 64)).map (fun k =>
      let w := (g.1 / 64 + k) * 64
      let lo := max w g.1
      let hi := min (w + 64) (g.1 + g.2.2)
      (w, lo - w, g.2.1 + (lo - g.1), hi - lo))))

/-- Memory pieces that a block reads: word, offset in it, place in the buffer, length. -/
def readParts (d : SDesc) (q : Nat) : List (Nat × Nat × Nat × Nat) :=
  if d.srcSp then []
  else wordParts ((blockSegs d q).map (fun g => (g.1, if d.dstSp then g.2.1 else g.2.2.1, g.2.2.2)))
/-- Memory pieces that a block writes. -/
def writeParts (d : SDesc) (q : Nat) : List (Nat × Nat × Nat × Nat) :=
  if d.dstSp then []
  else wordParts ((blockSegs d q).map (fun g => (g.2.1, if d.srcSp then g.1 else g.2.2.1, g.2.2.2)))

/-- The words of a list of pieces. -/
def partWords (ps : List (Nat × Nat × Nat × Nat)) : List Nat := (ps.map (·.1)).eraseDups

/-! ### Stream state -/

/-- A stream of a pane. -/
def streamOf (s : State) (i st : Nat) : Stream := tget {} (s.pane i).seq.streams st
/-- Change a stream. -/
def setStream (s : State) (i st : Nat) (x : Stream) : State :=
  s.modPane i (fun p => { p with seq := { p.seq with streams := tset {} p.seq.streams st x } })

/-- Buffer of a block. -/
def bufOf (x : Stream) (no : Nat) : Nat := x.bufaddr + no % x.nbuf * x.bufstride
/-- A descriptor that the stream holds. -/
def heldDesc (x : Stream) (k : Nat) : Option SDesc := (x.descs.find? (fun e => e.1 == k)).map (fun e => sdesc e.2)
/-- Are two consecutive descriptors of one burst (R268)? -/
def sameBurst (x : Stream) (j : Nat) : Bool := (j - x.burst0) % 16 != 15
/-- Can the descriptor be used, and with what fault otherwise (R258)? -/
def descCode (x : Stream) (d : SDesc) : Option Nat :=
  if d.bad x.kind then some 0x72 else if x.bufstride < d.reach then some 0x73 else none

/-- Accesses of the pane's SE outstanding. -/
def seOut (s : State) (i : Nat) : Nat := (s.accs.filter (fun a => match a.purpose with | .se j _ _ _ => j == i | _ => false)).length
/-- Is an access of a stream's block and address outstanding? -/
def seFlying (s : State) (i st blk va : Nat) : Bool := s.accs.any (fun a => a.purpose == .se i st blk va)

/-- An access of a pane's SE. -/
def seAcc (s : State) (i : Nat) (ahead : Bool) (op : AccOp) (va len : Nat) (data : List Byte) (purpose : Purpose) : Access :=
  { Who.access s (.cmd i 4) (s.pane i).ctx false op va 0 len data purpose with ahead }

/-- A read of 64 bytes for a stream. -/
def seRead (s : State) (i st blk tag va : Nat) (ahead : Bool) : State := addAcc s (seAcc s i ahead .read va 64 [] (.se i st blk tag))

/-- The stream's task faults for what the stream met itself. -/
def streamFault (s : State) (i st code addr : Nat) (isDesc : Bool) : State :=
  paneFault s i code { eng := 4, pos := st + (if isDesc then 16 else 0), tag := (streamOf s i st).tag, addr }

/-! ### Issue (R267, R268, R272) -/

/-- Fetch bursts while 16 entries are free; a descriptor of the demand block's burst that was dropped is fetched again. -/
def fetchBursts (i st : Nat) : Nat → State → State
  | 0, s => s
  | fuel + 1, s =>
    let x := streamOf s i st
    if !(x.status == 1 || x.status == 2) || x.cancel then s
    else
      let n := min 16 (x.ndesc - x.nextFetch)
      if n ≠ 0 ∧ x.nextFetch - x.didx ≤ 16 ∧ seOut s i + n ≤ 192 then
        let ahead := !(x.nextFetch ≤ x.didx && x.didx < x.nextFetch + n)
        let f := x.nextFetch
        let s := setStream s i st { x with nextFetch := f + n }
        let s : State := (List.range n).foldl (fun s k =>
          if (streamOf s i st).status = 5 ∨ (s.pane i).task.isNone then s
          else seRead s i st (2 ^ 40 + f + k) 0 (x.dlist + 64 * (f + k)) ahead) s
        fetchBursts i st fuel s
      else if x.didx < x.nextFetch && (heldDesc x x.didx).isNone && !seFlying s i st (2 ^ 40 + x.didx) 0 then
        let b := x.burst0 + (x.didx - x.burst0) / 16 * 16
        (List.range (min 16 (x.nextFetch - b))).foldl (fun s k =>
          if (heldDesc x (b + k)).isSome || seFlying s i st (2 ^ 40 + b + k) 0 || decide (b + k < x.didx) then s
          else seRead s i st (2 ^ 40 + b + k) 0 (x.dlist + 64 * (b + k)) false) s
      else s

/-- Outstanding reads of the demand block and of its descriptor's burst become demand reads. -/
def promote (s : State) (i st : Nat) : State :=
  let x := streamOf s i st
  let b := x.burst0 + (x.didx - x.burst0) / 16 * 16
  { s with accs := s.accs.map (fun (a : Access) => match a.purpose with
    | .se j t blk _ => if j = i ∧ t = st ∧ (blk = x.deliv ∨ 2 ^ 40 + b ≤ blk ∧ blk < 2 ^ 40 + b + 16) then { a with ahead := false } else a
    | _ => a) }

/-- The position after a block. -/
def nextPos (x : Stream) : Option (Nat × Nat × Nat) :=
  match x.blocks.getLast? with
  | none => some (x.deliv, x.didx, x.q)
  | some y =>
    match heldDesc x y.desc with
    | none => none
    | some d => if y.q + 1 < d.total then some (y.no + 1, y.desc, y.q + 1) else some (y.no + 1, y.desc + 1, 0)

/-- Plan the blocks that have a buffer: free for a load or a copy, posted for a store. -/
def planBlocks (i st : Nat) : Nat → State → State
  | 0, s => s
  | fuel + 1, s =>
    let x := streamOf s i st
    if !(x.status == 1 || x.status == 2) || x.cancel then s
    else
      match nextPos x with
      | none => s
      | some (no, k, q) =>
        let limit := if x.kind = 0 then x.done + x.nbuf else if x.kind = 1 then x.done else x.deliv + x.nbuf
        if limit ≤ no then s
        else
          match heldDesc x k with
          | none => s
          | some d =>
            if (descCode x d).isSome then s
            else planBlocks i st fuel (setStream s i st { x with blocks := x.blocks ++ [{ no, desc := k, q, need := partWords (readParts d q) }] })

/-- Are descriptors `j` and `k` ≥ `j` of one burst (R268)? -/
def inBurst (x : Stream) (j k : Nat) : Bool := decide (j ≤ k) && (j - x.burst0) / 16 == (k - x.burst0) / 16

/-- Bytes of a word land in the buffers of the blocks of a stream that want it: the block it was read for, and the blocks of
the descriptors that follow in the burst and share it (R268). Each keeps it for the next. -/
def landWord (i st desc va : Nat) (bs : List Byte) (no : Option Nat) : Mc Unit := do
  let s ← get
  let x := streamOf s i st
  for y in x.blocks.filter (fun y => y.need.contains va &&
      (some y.no == no || (decide (desc < y.desc) && inBurst x desc y.desc && y.asked.contains va))) do
    match heldDesc x y.desc with
    | none => pure ()
    | some d =>
      for p in (readParts d y.q).filter (fun p => p.1 == va) do
        spWrite i 4 (bufOf x y.no + p.2.2.1) ((bs.drop p.2.1).take p.2.2.2)
      modify (fun s =>
        let x := streamOf s i st
        setStream s i st { x with
          keep := if sameBurst x y.desc && decide (y.desc + 1 < x.ndesc) then x.keep ++ [(y.desc, va, bs)] else x.keep
          blocks := x.blocks.map (fun z => if z.no = y.no then { z with need := z.need.erase va } else z) })

/-- Ask for the words of one block: a word shared with the descriptor before is not read again. -/
def askBlock (i st : Nat) (y : SBlk) : Mc Unit := do
  for va in y.need do
    let s ← get
    let x := streamOf s i st
    let demand := y.no == x.deliv
    if !(x.status == 1 || x.status == 2) || (s.pane i).task.isNone then pure ()
    else if seFlying s i st y.no va || (!demand && y.asked.contains va) then pure ()
    else
      let mark := fun (s : State) => setStream s i st { streamOf s i st with
        blocks := (streamOf s i st).blocks.map (fun z => if z.no = y.no then { z with asked := va :: z.asked } else z) }
      let before := y.desc != 0 && sameBurst x (y.desc - 1)
      let kept := if before then x.keep.find? (fun e => e.1 + 1 == y.desc && e.2.1 == va) else none
      let flying := before && !y.asked.contains va &&
        x.blocks.any (fun z => z.desc + 1 == y.desc && z.need.contains va && z.asked.contains va)
      match kept with
      | some e =>
        set ((mark s).incReg (Reg.SE_MERGE i))
        landWord i st y.desc va e.2.2 (some y.no)
      | none =>
        if flying then set ((mark s).incReg (Reg.SE_MERGE i))
        else if 192 ≤ seOut s i then pure ()
        else set (seRead (mark s) i st y.no va va (!demand))

/-- The words that a block writes, with their masks and bytes. -/
def writeWords (i : Nat) (x : Stream) (y : SBlk) : Mc (List (Nat × Nat × List Byte)) := do
  match heldDesc x y.desc with
  | none => pure []
  | some d =>
    let ps := writeParts d y.q
    (partWords ps).mapM (fun w => do
      let mine := ps.filter (fun p => p.1 == w)
      let r ← mine.foldlM (fun (r : Nat × List Byte) p => do
        let bs ← spRead i 4 (bufOf x y.no + p.2.2.1) p.2.2.2
        pure (r.1 ||| ((2 ^ (p.2.2.2 / 4) - 1) * 2 ^ (p.2.1 / 4)), r.2.take p.2.1 ++ bs ++ r.2.drop (p.2.1 + p.2.2.2)))
        (0, List.replicate 64 0)
      pure (w, r.1, r.2))

/-- Two writes of one word as one. Log entry 66, DEDUCED. -/
def joinWord (a b : Nat × List Byte) : Nat × List Byte :=
  (a.1 ||| b.1, (List.range 64).map (fun k => if bit b.1 (k / 4) then b.2.getD k 0 else a.2.getD k 0))

/-- The blocks after a block whose descriptors follow its own in the burst and whose bytes are in their buffers (R268). -/
def sharers (x : Stream) (y : SBlk) : Nat → List SBlk
  | 0 => []
  | n + 1 =>
    if sameBurst x y.desc then
      match x.blocks.find? (fun z => z.no == y.no + 1 && z.desc == y.desc + 1 && z.need.isEmpty) with
      | some z => z :: sharers x z n
      | none => []
    else []

/-- Join to a word the words of the blocks that follow, as far as each shares it with the one before: the joined word, and the
blocks joined. -/
def joinRun (va : Nat) (w : Nat × List Byte) : List (SBlk × List (Nat × Nat × List Byte)) → (Nat × List Byte) × List Nat
  | [] => (w, [])
  | (z, ws) :: rest =>
    match ws.find? (fun o => o.1 == va) with
    | some o =>
      let r := joinRun va (joinWord w o.2) rest
      (r.1, z.no :: r.2)
    | none => (w, [])

/-- Begin the writes of the demand block of a store or a copy: every page is translated first (R274); a word shared with the
descriptors that follow in the burst is written once for all whose bytes are in their buffers (R268). Log entry 66, DEDUCED. -/
def beginWrites (i st : Nat) (y : SBlk) : Mc Unit := do
  let s ← get
  let x := streamOf s i st
  let b := bayOf i
  let ctx := (s.pane i).ctx
  let mine := match heldDesc x y.desc with
    | some d => (partWords (writeParts d y.q)).filter (fun w => !y.wdone.contains w)
    | none => []
  let pages := (mine.map (fun w => w / 4096 * 4096)).eraseDups
  let ts : List (Nat × Tgt) ← pages.mapM (fun p => do pure (p, ← xlate (.cmd i 4) b ctx p true))
  let ws := (← writeWords i x y).filter (fun w => !y.wdone.contains w.1)
  let others ← (sharers x y 15).mapM (fun z => do pure (z, ← writeWords i x z))
  let runs := ws.map (fun w => (w.1, joinRun w.1 w.2 others))
  let todo := runs.map (fun r =>
    let (k, pa) := match (ts.find? (fun t => t.1 == r.1 / 4096 * 4096)).map (·.2) with
      | some (.loc p) => (0, p)
      | some (.dev p) => (1, p)
      | some (.host p) => (2, p)
      | none => (0, 0)
    (r.1, k, pa + r.1 % 4096, r.2.1.1, r.2.1.2))
  modify (fun s =>
    let x := streamOf s i st
    (dropFetched (setStream s i st { x with blocks := x.blocks.map (fun z =>
      if z.no = y.no then { z with writing := true, todo }
      else { z with wdone := z.wdone ++ (runs.filter (fun r => r.2.2.contains z.no)).map (·.1) }) }) i 4).incReg (Reg.SE_MERGE i)
        ((runs.map (fun r => r.2.2.length)).sum))

/-- Post the words that a block has still to write while fewer than 192 accesses of the SE are outstanding (R280): a masked line
of local memory, a request for each run of words elsewhere. -/
def postWords (i st : Nat) : Nat → State → State
  | 0, s => s
  | fuel + 1, s =>
    let x := streamOf s i st
    match x.blocks.find? (fun y => y.writing && !y.todo.isEmpty) with
    | none => s
    | some y =>
      if 192 ≤ seOut s i then s
      else
        match y.todo with
        | [] => s
        | (va, k, pa, mask, bs) :: rest =>
          let s := setStream s i st { x with blocks := x.blocks.map (fun z => if z.no = y.no then { z with todo := rest } else z) }
          let put := fun (s : State) (op : AccOp) (o n : Nat) (d : List Byte) =>
            pushAcc s (routeAcc s (seAcc s i false op (va + o) n d (.se i st y.no va))
              (if k = 0 then .loc (pa + o) else if k = 1 then .dev (pa + o) else .host (pa + o)))
          let s := if k = 0 then put s (.writeM mask) 0 64 bs
            else (maskRuns mask).foldl (fun s (g : Nat × Nat) => put s .write (4 * g.1) (4 * g.2) ((bs.drop (4 * g.1)).take (4 * g.2))) s
          postWords i st fuel s

/-- Post the words of every block of a pane whose writes have begun. -/
def postPane (s : State) (i : Nat) : State :=
  (s.pane i).seq.streams.foldl (fun s e =>
    if e.2.blocks.any (fun y => y.writing && !y.todo.isEmpty) then postWords i e.1 192 s else s) s

/-- A ns time for a number of bytes at a declared rate, rounded to nearest with ties upward (R270). -/
def rateTime (b rate : Nat) : Nat := (2 * b * 1000 + 64 * rate) / (128 * rate)
/-- The largest run-dry time: no rate is declared. -/
def noDry : Nat := 2 ^ 64 - 1

/-- Set the run-dry time once the first descriptor is known. -/
def firstDry (x : Stream) (d : SDesc) : Stream :=
  if x.drySet then x
  else { x with drySet := true, dry := if d.rate = 0 then noDry else if x.kind = 1 then x.dry + rateTime (x.nbuf * d.full) d.rate else x.dry }

/-- Advance one stream: descriptors, plans, reads, the writes of the demand block. -/
def pumpStream (i st : Nat) : Mc Unit := do
  modify (fun s => promote (fetchBursts i st 3 s) i st)
  let s ← get
  let x := streamOf s i st
  if !(x.status == 1 || x.status == 2) || x.cancel || (s.pane i).task.isNone then pure ()
  else
    match heldDesc x x.didx with
    | none => modify (fun s => if x.didx = x.ndesc then setStream s i st { streamOf s i st with status := 2 } else s)
    | some d =>
      match descCode x d with
      | some code => fault code x.didx
      | none =>
        modify (fun s => planBlocks i st (x.nbuf + 1) (setStream s i st (firstDry x d)))
        let s ← get
        for y in (streamOf s i st).blocks do
          let s ← get
          match (streamOf s i st).blocks.find? (fun z => z.no == y.no) with
          | some z => askBlock i st z
          | none => pure ()
        let s ← get
        let x := streamOf s i st
        match x.blocks.find? (fun y => y.no == x.deliv && y.need.isEmpty && !y.writing) with
        | some y => if x.kind = 0 ∨ !(x.status == 1 || x.status == 2) then pure () else beginWrites i st y
        | none => pure ()
        modify (fun s =>
          let x := streamOf s i st
          if !(x.status == 1 || x.status == 2) then s
          else
            let last := match nextPos x with | some (_, k, _) => k == x.ndesc | none => false
            let read := x.blocks.all (fun y => y.need.isEmpty && (x.kind == 0 || y.writing))
            setStream s i st { x with status := if last && read then 2 else 1 })

/-- What becomes of a stop of a stream: its fault, a page fault that parks the task, or what it lacks is asked for. -/
def streamStop (s0 s : State) (i st : Nat) (e : Stop) : State :=
  match e with
  | .flt f =>
    if f.code = 0x72 ∨ f.code = 0x73 then
      let x := streamOf s i st
      streamFault s i st f.code (x.dlist + 64 * x.didx) true
    else paneFault s i f.code { eng := 4, pos := st, tag := (streamOf s i st).tag, addr := f.addr, kind := f.kind, slot := f.slot }
  | .page ctx cause lvl va hpa wr => parkOn s i ctx cause lvl va hpa wr (4, (streamOf s i st).tag)
  | .need ns => postNeeds s ns
  | _ => s0

/-- The SOPEN of a stream completes (R264). -/
def seDone (s : State) (i st status : Nat) : State :=
  let x := streamOf s i st
  cmdDone (setStream s i st { x with status, blocks := [], descs := [], keep := [], cancel := false }) i 4 1 x.tag

/-- A stream ends when all it has to do is done (R264, R273), also one that stops at its last block. -/
def finishStream (s : State) (i st : Nat) : State :=
  let x := streamOf s i st
  if x.cancel then (if x.blocks.isEmpty then seDone s i st 4 else s)
  else if openStream x && x.didx == x.ndesc && (x.kind != 0 || x.done == x.deliv) then seDone s i st 3
  else s

/-- Advance one stream as a step of the device. -/
def goStream (s : State) (i st : Nat) : State :=
  match runMc (pumpStream i st) s with
  | (.ok _, s') => s'
  | (.error e, s') => streamStop s s' i st e

/-- What came back for a stream: a descriptor, a word of a block, an acknowledged write. -/
def seArrive (s : State) (a : Access) : State :=
  match a.purpose with
  | .se i st blk va =>
    let s1 := dropAcc s a.id
    let x := streamOf s1 i st
    if a.op != .read || !(x.status == 1 || x.status == 2) then s1
    else if 2 ^ 40 ≤ blk then
      setStream s1 i st { x with descs := x.descs.filter (fun d => d.1 != blk - 2 ^ 40) ++ [(blk - 2 ^ 40, a.data)] }
    else
      match x.blocks.find? (fun y => y.no == blk) with
      | none => s1
      | some y =>
        match runMc (landWord i st y.desc va a.data (some blk)) s1 with
        | (.ok _, s') => s'
        | (.error e, s') => streamStop s s' i st e
  | _ => s

/-- Take in all that has come back for the streams of a pane. -/
def seArrived (s : State) (i : Nat) : State :=
  (s.accs.filter (fun a => a.stage == .got && a.flt.isNone && (match a.purpose with | .se j _ _ _ => j == i | _ => false))).foldl seArrive s

/-- Streams of a pane in the order of their deadlines (R269). -/
def streamOrder (p : Pane) : List Nat :=
  ((p.seq.streams.filter (fun e => openStream e.2)).insertionSort (fun a b => a.2.dry ≤ b.2.dry)).map (·.1)

/-- Advance every open stream of a pane: a stopped one resumes once its task runs again (R275). -/
def goPaneStreams (s : State) (i : Nat) : State :=
  let p := s.pane i
  if p.seq.streams.all (fun e => !openStream e.2) then s
  else
    let s := seArrived s i
    let s := postPane s i
    let p := s.pane i
    if p.task.isNone || p.sw.isSome || p.stalled || p.offDispatch || asleep s then s
    else
      let s := s.modPane i (fun p => { p with seq := { p.seq with streams := p.seq.streams.map (fun (e : Nat × Stream) =>
        (e.1, if e.2.status = 5 && e.2.blocks.isEmpty then
          { e.2 with status := 1, descs := [], nextFetch := e.2.didx, burst0 := e.2.didx, keep := [] } else e.2)) } })
      postPane ((streamOrder (s.pane i)).foldl (fun s st =>
        if (s.pane i).task.isSome && (s.pane i).sw.isNone then goStream s i st else s) s) i

/-- Advance the streams of the device. Log entry 19, DESIGN CHOICE. -/
def goStreams (s : State) : State := s.panes.foldl (fun s e => goPaneStreams s e.1) s

/-- What follows every step: due domain resets, streams, switches, what the units of the bays do for themselves, translations and
routes that can go on, requests that leave, faults that arrive, then the dispatch decisions. Log entry 19, DESIGN CHOICE. -/
def settle (s : State) : State :=
  let s := goUnits (goSwitches (goStreams (runResets s)))
  let s := if s.accs.isEmpty then s else deliverFaults (flushAway (answerUnrouted (routeOuts (lookupAll s))))
  decideAll s

end Sys2Proof.Machine
end

