-- ==== Sys2Proof/Machine/Seq.lean ====
section
/-! DEFINITION. The sequencer (R48 to R54, R59, R374, R376, R580): issue of a command, its completion and its faults, and
the sequencer's own commands. The bytes of a command are the step's operand (log entry 2, DESIGN CHOICE). -/

namespace Sys2Proof.Machine

open Sys2Proof

/-- Commands of an engine that have started and not completed. -/
def runningOf (q : SeqBlk) (eng : Nat) : Nat :=
  (q.inflight.filter (· == eng)).length - (q.unstarted.filter (fun u => u.1 == eng)).length

/-- May the pane's sequencer issue: a task runs, no switch, no blocking wait, list not ended, not halted or stepping one
command, no stall? Log entry 38, DEDUCED. -/
def mayIssue (s : State) (i : Nat) : Bool :=
  let p := s.pane i
  p.task.isSome && p.sw.isNone && p.blockedAt.isNone && !p.seq.ended && (!p.halted || p.stepping) && !p.stalled
    && !p.offDispatch && s.running

/-- May a started engine run on the pane: a task, no save or restore in progress? -/
def mayRun (s : State) (i : Nat) : Bool :=
  let p := s.pane i
  p.task.isSome && decide (s.pwr.st ≤ 1) && (match p.sw with | some w => w.step < 4 | none => true)

/-- The header checks of R580: a reserved ENGINE, a reserved bit, LEN past LISTLEN. -/
def headerFault (q : SeqBlk) (c : Nat) : Option Nat :=
  if !engKnown (hEng c) then some 0x01
  else if hRsv c ≠ 0 then some 0x02
  else if q.listEnd < q.pc + hLen c then some 0x03
  else none

/-- Is every earlier command to the engines of WAITMASK complete (R50)? -/
def waitMet (q : SeqBlk) (c : Nat) : Bool := q.inflight.all (fun e => !bit (hWait c) e)

/-- What a table row says of its command: engine, opcode, lengths, the engine's codes for a wrong length, a reserved
opcode and IMM = 1 outside Run mode (none: immediates are defined). -/
structure CmdRow where
  eng : Nat
  op : Nat
  len : Nat
  lenCode : Nat
  opCode : Nat
  immCode : Option Nat
deriving DecidableEq, Repr

/-- The value of PANE_ACCFAULT for a fault of Table 4-12 (R146). -/
def accFaultBits (code acct : Nat) (long chain : Bool) : Nat := code + acct * 2 ^ 8 + b2n long * 2 ^ 15 + b2n chain * 2 ^ 16

/-- A fault of Table 4-12 is recorded in PANE_ACCFAULT (R146). -/
def accFault {α : Type} (i code acct : Nat) (long chain : Bool) : Mc α := do
  modify (fun s => s.setReg (Reg.PANE_ACCFAULT i) (accFaultBits code acct long chain))
  fault code

/-- The tile that a CHSTEP names, and whether it is a long one (R132): with OWNACC = 0 none, for which 0 is shown. Log entry 119, DESIGN CHOICE. -/
def chTile (c : Nat) : Nat × Bool :=
  let own := cbits c 8 23 0
  if cbits c 8 24 24 = 1 then (own % 128, bit own 7) else (0, false)

/-- A fault of a command's own form, recorded as R146 states when it is one of a CHSTEP's. -/
def formFault (i c eng code : Nat) : Mc Unit :=
  if eng = 6 ∧ code = 0x36 then accFault i code (chTile c).1 (chTile c).2 true else fault code

/-- Length, opcode and IMM checks of a body, in the order of R580. Log entry 21, DESIGN CHOICE. -/
def bodyChecks (s : State) (i c : Nat) (r : CmdRow) (len : Nat) : Mc Unit := do
  if hLen c != len then formFault i c r.eng r.lenCode
  if hImm c then
    if (s.pane i).mode = 0 then fault 0x04
    else match r.immCode with
      | some k => formFault i c r.eng k
      | none => pure ()

/-- The command stops before its effect: a fault ends the task; a page fault parks the task, with the command issued but
unstarted; what it lacks is asked for, and the engine that reads it has the command until then. `s0` is the state before the
command, `sp` that with the command issued but unstarted. A CHECK so abandoned is counted (R459), and a stopped NGE command shows in
NGE_STAT (R173, R183). Log entry 6, DESIGN CHOICE. -/
def stopCmd (s0 sp s' : State) (i c eng : Nat) (e : Stop) : State :=
  match e with
  | .flt f =>
    let pos := if eng = 5 ∧ f.pos = 0 then cbits c 8 11 0 * 2 ^ 40 else f.pos
    paneFault s' i f.code { eng, op := hOp c, pos, hub := f.hub, kind := f.kind, slot := f.slot, tag := hTag c, addr := f.addr }
  | .page ctx cause lvl va hpa wr =>
    let sp := if eng = 7 then sp.incReg (Reg.CVU_RESTART (bayOf i))
      else if eng = 3 then sp.modPane i (fun p => { p with seq := { p.seq with progress := tset 0 p.seq.progress 103 1 } })
      else sp
    parkOn (dropFetched sp i eng) i ctx cause lvl va hpa wr (eng, hTag c)
  | .need ns => postNeeds sp ns
  | _ => s0

/-- Is engine `eng` reading what the pane's command at the front of its queue needs? -/
def reading (s : State) (i eng : Nat) : Bool :=
  s.accs.any (fun a => match a.purpose with
    | .fetch w => w == .cmd i eng
    | .probe w _ => w == .cmd i eng
    | _ => false)

/-- The pane's part in a bay engine's command slots (R51, R59): none when the current slot names the pane's local index. -/
def bayGate (s : State) (i eng : Nat) : Option Bool :=
  match (s.pane i).number with
  | none => some false
  | some n =>
    if !holdsCmdSlot s (bayOf i) eng (n % 8) then some false
    else if tget none (s.bay (bayOf i)).grant eng = some (n % 8) then none
    else some true

/-- A bay-engine command of a pane that holds no slot of the engine: PANE_FAULT shows the slot of the table that comes up next (R59,
R80). Log entry 117, DESIGN CHOICE. -/
def cmdViolation (s : State) (i eng : Nat) : Stop :=
  .flt { code := 0x05, kind := 3, slot := tget 0 (s.bay (bayOf i)).framePos (3 * 32 + (eng - 5)) }

/-- A bay engine takes a command in the slot that is up, which takes no second one (R51). -/
def takeGrant (s : State) (b eng : Nat) : State := s.modBay b (fun x => { x with grant := tset none x.grant eng none })

/-- Does a bay engine have a command of a pane, which runs or whose reads are under way? -/
def bayEngBusy (s : State) (b eng : Nat) : Bool :=
  (panesOf b).any (fun i => 0 < runningOf (s.pane i).seq eng || reading s i eng)

/-- Run the body of a started command and settle its outcome: completed, still running, or stopped. -/
def startBody (s0 sp s1 : State) (i c : Nat) (r : CmdRow) (len : Nat) (body : Mc Bool) : State :=
  let used := fun (s : State) => dropFetched (dropFetched (s.modPane i (fun p => { p with stepping := false })) i 0) i r.eng
  match runMc (do bodyChecks s1 i c r len; body) s1 with
  | (.ok true, s) => cmdDone (used s) i r.eng r.op (hTag c)
  | (.ok false, s) => used s
  | (.error e, s) => stopCmd s0 sp s i c r.eng e

/-- The sequencer reads the command at its place in the list, by virtual address in the task's context: its header
first, and the rest of a command whose header is sound. Answers whether the list holds the command `c` (log entry 2, DESIGN CHOICE). Log entry 98, DEDUCED. -/
def readCmd (i c : Nat) : Mc Bool := do
  let s ← get
  let p := s.pane i
  if p.seq.listEnd < p.seq.pc + 16 then pure false
  else
    let h ← vaRead (.cmd i 0) p.ctx p.seq.pc 16
    if leNat h != c % 2 ^ 128 then pure false
    else if (headerFault p.seq c).isSome then pure true
    else if hLen c == 16 then pure (c < 2 ^ 128)
    else
      let d ← vaRead (.cmd i 0) p.ctx p.seq.pc (hLen c)
      pure (leNat d == c)

/-- The pane's task counts command `c` as issued and not complete; a chain step issued is counted (R145). -/
def issued (s : State) (i c : Nat) (r : CmdRow) : State :=
  (if r.eng = 6 then s.incReg (Reg.PANE_CHSTEPS i) else s).modPane i (fun p =>
    { p with seq := { p.seq with pc := p.seq.pc + hLen c, inflight := p.seq.inflight ++ [r.eng] } })

/-- An issued command waits for its engine. -/
def queued (s : State) (i c : Nat) (r : CmdRow) : State :=
  dropFetched (s.modPane i (fun p => { p with stepping := false, seq := { p.seq with unstarted := p.seq.unstarted ++ [(r.eng, c)] } })) i 0

/-- An issued command waits no longer. -/
def unqueued (s : State) (i c : Nat) (r : CmdRow) : State :=
  s.modPane i (fun p => { p with seq := { p.seq with unstarted := p.seq.unstarted.erase (r.eng, c) } })

/-- May the pane start a command that waits at engine `eng`: no stall stands in its way, and no switch, which waits for a command
whose engine reads for it already (R227, R458)? -/
def mayStart (s : State) (i eng : Nat) : Bool :=
  mayRun s i && ((s.pane i).sw.isNone || eng != 4 && reading s i eng) && !(s.pane i).stalled

/-- Does the command `c`, issued before, wait at the front of its engine's queue, with the pane able to start it? -/
def waitsToStart (s : State) (i c : Nat) (r : CmdRow) : Bool :=
  (s.pane i).seq.unstarted.find? (fun u => u.1 == r.eng) == some (r.eng, c) && mayStart s i r.eng && hEng c == r.eng && hOp c == r.op

/-- Issue the command just read, in state `s`, to its engine (R50); `s0` is the state before the read, in which a command that
must wait stays. A reserved ENGINE shows in PANE_FAULT as code 0 (R80). Log entry 120, DESIGN CHOICE. -/
def issueCmd (s0 s : State) (i c : Nat) (r : CmdRow) (len : Nat) (busy : State → Bool) (body : Mc Bool) : State :=
  match headerFault (s.pane i).seq c with
  | some k => stopCmd s s s i c (if engKnown (hEng c) then hEng c else 0) (.flt { code := k })
  | none =>
    if hEng c == r.eng && !opKnown r.eng (hOp c) then stopCmd s s s i c r.eng (.flt { code := r.opCode })
    else if !(hEng c == r.eng && hOp c == r.op) || !waitMet (s.pane i).seq c then s0
    else
      let s1 := issued s i c r
      let later := queued s1 i c r
      let free := !((s.pane i).seq.unstarted.any (fun u => u.1 == r.eng)) && !busy s
      if 5 ≤ r.eng then
        match bayGate s i r.eng with
        | some false => stopCmd s s s1 i c r.eng (cmdViolation s i r.eng)
        | some true => later
        | none =>
          if free && !bayEngBusy s (bayOf i) r.eng then
            startBody s0 (takeGrant later (bayOf i) r.eng) (takeGrant s1 (bayOf i) r.eng) i c r len body
          else later
      else if free then startBody s0 later s1 i c r len body
      else later

/-- Start the command when it was issued before (R50), else read it from the list and issue it. `busy` says that the engine
cannot start it yet; it then stays issued but unstarted. A command of another engine or opcode is not this row's. Log entry 2, DESIGN CHOICE. -/
def runCmdLen (s : State) (i c : Nat) (r : CmdRow) (len : Nat) (busy : State → Bool) (body : Mc Bool) : State :=
  if waitsToStart s i c r then
    if busy s then s
    else
      let s1 := unqueued s i c r
      if 5 ≤ r.eng ∧ !reading s i r.eng then
        match bayGate s i r.eng with
        | some false => stopCmd s s s1 i c r.eng (cmdViolation s i r.eng)
        | some true => s
        | none =>
          if bayEngBusy s (bayOf i) r.eng then s
          else startBody s (takeGrant s (bayOf i) r.eng) (takeGrant s1 (bayOf i) r.eng) i c r len body
      else startBody s s s1 i c r len body
  else if !mayIssue s i then s
  else
    match runMc (readCmd i c) s with
    | (.ok true, s') => issueCmd s s' i c r len busy body
    | (.ok false, _) => s
    | (.error e, s') => stopCmd s s s' i 0 0 e

/-- A command of fixed length. -/
def runCmd (s : State) (i c : Nat) (r : CmdRow) (busy : State → Bool) (body : Mc Bool) : State :=
  settle (runCmdLen s i c r r.len busy body)

/-- The engine of the pane runs a command already. Log entry 39, DESIGN CHOICE. -/
def engBusy (i eng : Nat) (s : State) : Bool := 0 < runningOf (s.pane i).seq eng

/-- Rows of the sequencer's own commands: 16 B; a wrong length has no code of its own and takes 0x03, IMM = 1 takes 0x04 in
every mode (log entry 21, DESIGN CHOICE). -/
def seqRow (op : Nat) : CmdRow := { eng := 0, op, len := 16, lenCode := 0x03, opCode := 0x01, immCode := some 0x04 }

/-- Instances of the package. -/
def okPane (i : Nat) : Bool := decide (i < 144)

/-- What no command changes but those that sample the straps: the queue of waiting commands, which `step` alone takes from,
and the straps as sampled (R540, R545). -/
def keepStraps (s t : State) : State :=
  { t with pending := s.pending, sup := { t.sup with chip := s.sup.chip, smba := s.sup.smba, recoverN := s.sup.recoverN } }

/-- The outcome of a command: a fault when an operand names what the package does not have (log entry 4, DESIGN CHOICE); in P5, where only
the wake logic of the supply die runs (R505, R548), nothing happens; else its effect. -/
def answer (s : State) (ok : Bool) (t : State) : Host.Outcome State Fault Refusal :=
  if !ok then .fault .noSuchInstance else if s.pwr.st = 5 then .next s else .next (keepStraps s t)

/-- The outcome of an event of the supply die, which runs in P5 too. Log entry 4, DESIGN CHOICE. -/
def answerSupply (s : State) (t : State) : Host.Outcome State Fault Refusal := .next (keepStraps s t)

/-- NOP does nothing (Table 2-6). -/
def execNop (i c : Nat) (s : State) : Host.Outcome State Fault Refusal :=
  answer s (okPane i) (runCmd s i c (seqRow 0) (fun _ => false) (pure true))

/-- FENCE issues once every earlier command of the list has completed. -/
def execFence (i c : Nat) (s : State) : Host.Outcome State Fault Refusal :=
  answer s (okPane i) (runCmd s i c (seqRow 1) (fun _ => false) (do
    let s ← get
    if 1 < (s.pane i).seq.inflight.length then throw .wait else pure true))

/-- Is an access a write of pane instance `i`, by an engine or by a command that posted it? -/
def writeOf (i : Nat) (a : Access) : Bool :=
  a.op != .read && a.op != .msg && (accInst a == some i || match a.purpose with | .put j _ => j == i | _ => false)

/-- The writes of a pane that are not yet in memory, which a signal of it waits for (R373). -/
def paneWrites (s : State) (i : Nat) : List Nat := (s.accs.filter (writeOf i)).map (·.id)

/-- SIGNAL adds its amount to a sync object of its device; it completes when the home has applied or refused it (R377).
Bytes 10-11 are reserved (R376). -/
def execSignal (i c : Nat) (s : State) : Host.Outcome State Fault Refusal :=
  answer s (okPane i) (runCmd s i c (seqRow 2) (fun _ => false) (do
    failIf (cbytes c 10 2 != 0) 0xA5
    modify (fun s => paneSignal s i (cbytes c 8 2) (cbytes c 12 4) true (paneWrites s i) (hTag c))
    pure false))

/-- A WAIT or TAKE of a pane's running task goes to its object's home; until it is met or served the sequencer is
blocked. -/
def waitCmd (i c kind : Nat) : Mc Bool := do
  let t ← curTask i
  modify (fun s =>
    let tmo := cbytes c 10 2
    let ex := if tmo = 0 then none else some (s.devTime + tmo * 64000)
    let w : Waiter := { obj := cbytes c 8 2, kind, task := t.id, ctx := t.ctx, thr := cbytes c 12 4, expiry := ex, parked := false, tag := hTag c }
    let r : WaitRec := { obj := w.obj, kind, thr := w.thr, expiry := ex, status := 0, tag := hTag c }
    let s := s.modPane i (fun p => { p with blockedAt := some s.devTime, seq := { p.seq with waits := [r] } })
    arrive s w)
  pure false

/-- WAIT blocks until the object holds at least the threshold (R374). -/
def execWait (i c : Nat) (s : State) : Host.Outcome State Fault Refusal :=
  answer s (okPane i) (runCmd s i c (seqRow 3) (fun _ => false) (waitCmd i c 0))

/-- TAKE waits its turn and subtracts the threshold as it is served (R374, R375). -/
def execTake (i c : Nat) (s : State) : Host.Outcome State Fault Refusal :=
  answer s (okPane i) (runCmd s i c (seqRow 4) (fun _ => false) (waitCmd i c 1))

/-- END ends the list. -/
def execEndList (i c : Nat) (s : State) : Host.Outcome State Fault Refusal :=
  answer s (okPane i) (runCmd s i c (seqRow 5) (fun _ => false) (do
    modify (fun s => s.modPane i (fun p => { p with seq := { p.seq with ended := true } }))
    pure true))

/-- The source of a fault of a running command: its opcode and TAG, and the vertex the NGE's oldest unit gathers. -/
def runSrc (s : State) (i eng : Nat) : FSrc :=
  let p := s.pane i
  if eng = 1 then (match p.mat with | some m => { eng, op := 1, tag := m.tag } | none => { eng })
  else if eng = 2 then (match p.vec with | some v => { eng, op := 3, tag := v.tag } | none => { eng })
  else if eng = 3 then
    (match p.nge with
     | some j => { eng, op := j.op, pos := ((j.units.map (·.vertex)).headD 0), tag := hTag j.cmd }
     | none => { eng })
  else
    match (s.bay (bayOf i)).te.jobs.find? (fun j => j.pane == i) with
    | some j => { eng, op := j.op, tag := hTag j.cmd }
    | none => { eng }

/-- Opcodes of a TSTEP and a TMIGRATE, which no cycle limit bounds (R227). -/
def unlimited (eng op : Nat) : Bool := eng == 5 && (op == 4 || op == 6)

/-- Lengths of the commands that R53 bounds (Tables 3-3, 6-1 and 5-3). -/
def boundLen (eng op : Nat) : Nat :=
  if eng = 1 then (if op = 1 then 48 else 32)
  else if eng = 2 then (if op = 1 then 128 else if op = 2 then 64 else 80)
  else if op = 1 then 80 else if op = 2 then 64 else 48

/-- The next command of the list is one of an engine that R53 bounds, is issued and started, and reaches its limit. Log entry 39, DESIGN CHOICE. -/
def limitNext (s : State) (i eng : Nat) : State :=
  if !mayIssue s i || decide ((s.pane i).seq.listEnd < (s.pane i).seq.pc + 16) then s
  else
    match runMc (vaRead (.cmd i 0) (s.pane i).ctx (s.pane i).seq.pc 16) s with
    | (.error e, s') => stopCmd s s s' i 0 0 e
    | (.ok d, s') =>
      let c := leNat d
      let q := (s'.pane i).seq
      if (headerFault q c).isNone && hEng c == eng && opKnown eng (hOp c) && waitMet q c && hLen c == boundLen eng (hOp c) && !hImm c
      then paneFault s' i 0x0A { eng, op := hOp c, tag := hTag c }
      else s

/-- A command reaches the cycle limit: the one that the engine runs, or whose reads are under way, else one that starts now. Log entry 39, DESIGN CHOICE. -/
def timeLimit (s : State) (i eng : Nat) : State :=
  if !(eng == 1 || eng == 2 || eng == 3 || eng == 5) then s
  else if engBusy i eng s then
    if eng = 5 ∧ (s.bay (bayOf i)).te.jobs.any (fun j => j.pane == i && unlimited eng j.op) then s
    else paneFault s i 0x0A (runSrc s i eng)
  else
    match (s.pane i).seq.unstarted.find? (fun u => u.1 == eng) with
    | some u =>
      if !mayStart s i eng || unlimited eng (hOp u.2) || eng = 5 && !reading s i eng then s
      else paneFault s i 0x0A { eng, op := hOp u.2, tag := hTag u.2 }
    | none => if eng = 5 then s else limitNext s i eng

/-- An array, vector-engine, NGE or TE command that still runs at the cycle limit is stopped and faults with 0x0A (R53,
R95, R174, R227). The limit's cycles are not counted by the model: the event is this step. Log entry 39, DESIGN CHOICE. -/
def execCommandTimeLimit (i eng : Nat) (s : State) : Host.Outcome State Fault Refusal :=
  answer s (okPane i) (settle (timeLimit s i eng))

end Sys2Proof.Machine
end

