-- ==== Sys2Proof/Machine/Flags.lean ====
section
/-! DEFINITION. Tile flags (R118, R120, R121) and what the flag registers show. -/

namespace Sys2Proof.Machine

open Sys2Proof

/-- Normal tiles that a tile uses: itself, or the 20 that a long tile overlays (R117). -/
def tilesOf (acct : Nat) (long : Bool) : List Nat := if long then (List.range 20).map (fun k => 20 * acct + k) else [acct]

/-- Flags of a named tile. -/
def tileFlags (p : Pane) (acct : Nat) (long : Bool) : Tile := tget {} (if long then p.longTiles else p.tiles) acct

/-- Replace the flags of a named tile. -/
def setTile (p : Pane) (acct : Nat) (long : Bool) (f : Tile) : Pane :=
  if long then { p with longTiles := tset {} p.longTiles acct f } else { p with tiles := tset {} p.tiles acct f }

/-- A start in a tile ends the reductions it overlaps (R118). -/
def endOverlapped (p : Pane) (acct : Nat) (long : Bool) : Pane :=
  let gone := fun (f : Tile) => { f with inprog := false, depth := 0, ended := true }
  if long then
    { p with tiles := (tilesOf acct true).foldl (fun m k => tset {} m k (gone (tget {} m k))) p.tiles }
  else if acct < 120 ∧ 2 ≤ (tget {} p.longTiles (acct / 20)).kind then
    { p with longTiles := tset {} p.longTiles (acct / 20) (gone (tget {} p.longTiles (acct / 20))) }
  else p

/-- The flags that show through normal tile `t`: those of the long tile that overlays it while that one is live (R120). -/
def shownFlags (p : Pane) (t : Nat) : Tile :=
  let l := tget {} p.longTiles (t / 20)
  if t < 120 ∧ 2 ≤ l.kind ∧ !l.ended then l else tget {} p.tiles t

/-- PANE_TFLAG for a selected tile (Table 4-3). -/
def tflagBits (f : Tile) (t : Nat) : Nat :=
  b2n f.sat + b2n f.canc * 2 + b2n f.pred * 4 + b2n f.lbound * 8 + b2n f.special * 16 + b2n f.inprog * 32 + f.kind * 64
    + (if f.inprog then f.depth * 256 else 0) + t * 2 ^ 16

/-- A mask register over 32 tiles from tile `lo` (R145). -/
def tileMask (p : Pane) (lo : Nat) (g : Tile → Bool) : Nat :=
  (List.range 32).foldl (fun a k => if g (shownFlags p (lo + k)) then a + 2 ^ k else a) 0

/-- PANE_ARRSTAT (Table 3-14): commands but a MATMUL that waits for its result write complete within their own step. -/
def arrStat (p : Pane) : Nat :=
  match p.mat with
  | none => 0
  | some m => 1 + b2n m.pred * 4 + b2n m.makeup * 8 + m.acct * 16 + b2n m.long * 2 ^ 11 + 2 ^ 16

end Sys2Proof.Machine
end

