-- ==== Sys2Proof/Machine/Array.lean ====
section
/-! DEFINITION. The cell array (chapter "Pane arrays and number formats") and the summation tree of a tile (R117 to R130,
R143): operand panels, leaf sums, passes, the predictor, MATMUL, DRAIN and ENCODE. -/

namespace Sys2Proof.Machine

open Sys2Proof

/-! ### Operand panels (R89 to R103) -/

/-- Width in bits of the field of one lane in a unit (Table 3-2). -/
def fieldBits (fmt : Nat) : Nat := if fmtBits fmt = 32 then 32 else 16

/-- Bits of a byte string from a bit offset. -/
def bitField (bs : List Byte) (off w : Nat) : Nat := field bs (off / 8) ((off % 8 + w + 7) / 8) / 2 ^ (off % 8) % 2 ^ w

/-- Bit offset of an element in a dense tile of `lanes` lanes: lane `l`, depth step `k` (Table 3-2). -/
def denseOff (fmt lanes l k : Nat) : Nat :=
  let fb := fieldBits fmt
  let n := fb / fmtBits fmt
  (k / n * lanes + l) * fb + k % n * fmtBits fmt

/-- An operand tile: its format, its layout and its payload. -/
structure OTile where
  fmt : Nat
  uns : Bool
  dense : Bool
  mask : Nat
  offs : Nat
  bytes : List Byte
deriving DecidableEq, Repr

/-- The element of lane `l` at depth step `k`; none in an absent block. -/
def OTile.elem (t : OTile) (l k : Nat) : Option Nat :=
  if t.dense then some (bitField t.bytes (denseOff t.fmt 64 l k) (fmtBits t.fmt))
  else
    let b := k / 16 * 4 + l / 16
    if bit t.mask b then
      some (bitField t.bytes (bits t.offs (4 * b + 3) (4 * b) * 256 * fmtBits t.fmt + denseOff t.fmt 16 (l % 16) (k % 16))
        (fmtBits t.fmt))
    else none

/-- Size of a dense tile and of a block in bytes. -/
def tileBytes (fmt : Nat) : Nat := 512 * fmtBits fmt
def blockBytes (fmt : Nat) : Nat := 32 * fmtBits fmt

/-- The first failing check of a tile header (Table 3-10); 0: none. Log entry 40, DEDUCED. -/
def headerCheck (h : List Byte) (fmt : Nat) : Nat :=
  let mask := field h 0 2
  let count := bits (field h 2 1) 4 0
  let tag := bits (field h 2 1) 6 5
  let offs := field h 4 8
  let off := fun b => bits offs (4 * b + 3) (4 * b)
  let here := setBitsOf 16 mask
  if count ≠ here.length then 1
  else if tag = 0 ∧ here.any (fun b => decide (count ≤ off b)) then 2
  else if tag = 0 ∧ (here.map off).eraseDups.length ≠ here.length then 3
  else if 2 ≤ tag then 4
  else if bits (field h 3 1) 3 0 ≠ fmt then 5
  else if tag = 1 ∧ (mask ≠ 0xFFFF ∨ count ≠ 16 ∨ offs ≠ 0) then 6
  else if bit (field h 2 1) 7 ∨ bits (field h 3 1) 7 4 ≠ 0 ∨ field h 12 20 ≠ 0
    ∨ (List.range 16).any (fun b => !bit mask b && off b != 0) then 7
  else 0

/-- Read a headered panel of `n` tiles, header by header, each with its payload. A failing header is recorded in PANE_METAFAULT (R100, R116). Log entry 125, DESIGN CHOICE. -/
def headered (i fmt : Nat) (uns : Bool) (opnd : Nat) : Nat → Nat → Mc (List OTile)
  | 0, _ => pure []
  | n + 1, a => do
    let h ← spRead i 1 a 32
    let k := headerCheck h fmt
    if k ≠ 0 then
      modify (fun s => s.setReg (Reg.PANE_METAFAULT i) (a % 2 ^ 24 + k * 2 ^ 24 + opnd * 2 ^ 27))
      fault 0x23
    else
      let raw := bits (field h 2 1) 6 5 == 1
      let len := if raw then tileBytes fmt else bits (field h 2 1) 4 0 * blockBytes fmt
      let bs ← spRead i 1 (a + 32) len
      let rest ← headered i fmt uns opnd n (a + 32 + len)
      pure ({ fmt, uns, dense := raw, mask := field h 0 2, offs := field h 4 8, bytes := bs } :: rest)

/-- Read a panel: `n` dense tiles, or a headered panel. -/
def panel (i fmt : Nat) (uns hdr : Bool) (opnd n a : Nat) : Mc (List OTile) :=
  if hdr then headered i fmt uns opnd n a
  else do
    let bs ← spRead i 1 a (n * tileBytes fmt)
    pure ((List.range n).map (fun t =>
      { fmt, uns, dense := true, mask := 0xFFFF, offs := 0, bytes := (bs.drop (t * tileBytes fmt)).take (tileBytes fmt) }))

/-- Slices of one leaf that are skipped (R103). -/
def skippedSlices (a b : OTile) : Nat :=
  let gone := fun (t : OTile) d => !t.dense && bits t.mask (4 * d + 3) (4 * d) == 0
  ((List.range 4).filter (fun d => gone a d || gone b d)).length

/-! ### Products and leaf sums (R85 to R88, R102) -/

/-- The 64 products of a leaf for floating-point operands; an absent operand makes the product +0. -/
def fprods (a b : OTile) (i j : Nat) : List FV :=
  (List.range 64).map (fun k => match a.elem i k, b.elem j k with
    | some x, some y => FV.mul (fdecode (fmtOf a.fmt) x) (fdecode (fmtOf b.fmt) y)
    | _, _ => .fin false 0 0)

/-- The 64 products of a leaf for integer operands. -/
def iprods (a b : OTile) (i j : Nat) : List Int :=
  (List.range 64).map (fun k => match a.elem i k, b.elem j k with
    | some x, some y => intDecode a.fmt a.uns x * intDecode b.fmt b.uns y
    | _, _ => 0)

/-- An exact number truncated toward zero to a multiple of 2^t, in units of 2^t. -/
def truncTo (d : Dy) (t : Int) : Int :=
  if t ≤ d.e then d.v * pow2 (d.e - t)
  else if d.v < 0 then -((d.v.natAbs / pow2 (t - d.e) : Nat) : Int) else (d.v.natAbs / pow2 (t - d.e) : Nat)

/-- The special result of a leaf, if it has one (R87). -/
def specialOf (ps : List FV) : Option FV :=
  if ps.contains .nan then some .nan
  else if ps.contains (.inf false) then (if ps.contains (.inf true) then some .nan else some (.inf false))
  else if ps.contains (.inf true) then some (.inf true)
  else none

/-- A floating-point leaf sum in FP32, and whether it saturated (R86). -/
def leafSum (ps : List FV) : Nat × Bool :=
  match specialOf ps with
  | some v => ((fround fp32 false v).1, false)
  | none =>
    let ds := (ps.map FV.dy).filter (fun d => d.v != 0)
    match ds with
    | [] => (0, false)
    | d0 :: _ =>
      let m := ds.foldl (fun m d => max m d.exp) d0.exp
      let s := ds.foldl (fun s d => s + truncTo d (m - 48)) 0
      if s = 0 then (0, false) else toF32 (Dy.fv ⟨s, m - 48⟩)

/-- A leaf of a normal tile: FP32 bits or INT32 bits, and whether it saturated. -/
def leafVal (int : Bool) (a b : OTile) (i j : Nat) : Nat × Bool :=
  if int then (ofSigned 32 ((iprods a b i j).foldl (· + ·) 0), false) else leafSum (fprods a b i j)

/-- The exact leaf of a long tile: V and SPEC (R129). -/
def leafLong (int : Bool) (a b : OTile) (i j : Nat) : LongEl :=
  if int then LongEl.ofInt ((iprods a b i j).foldl (· + ·) 0)
  else ((fprods a b i j).map LongEl.ofFV).foldl (fun x y => ⟨x.v + y.v, specAdd x.spec y.spec⟩) ⟨0, 0⟩

/-! ### Nodes and the tree (R122, R123, R125, R128, R143) -/

/-- The value of the bits of a normal element. -/
def normDy (int : Bool) (x : Nat) : Dy := if int then ⟨toSigned 32 x, 0⟩ else FV.dy (f32 x)

/-- Is a normal element finite? -/
def normFin (int : Bool) (x : Nat) : Bool := int || (f32 x).isFin

/-- node(x, y) on normal elements, and whether it saturated (Table 4-4). -/
def nodeNorm (int : Bool) (x y : Nat) : Nat × Bool :=
  if int then satInt 7 false (toSigned 32 x + toSigned 32 y) else toF32 (FV.add (f32 x) (f32 y))

/-- The exponent code of a partial (Table 4-5): 0 for zero and for a non-finite partial. -/
def expCode (fin : Bool) (d : Dy) : Nat := if !fin || d.v == 0 then 0 else (1024 + d.exp).toNat

/-- A complete node of the tree: leaves lo to lo + n - 1 and its value. -/
structure Part where
  lo : Nat
  n : Nat
  v : Nat
deriving DecidableEq, Repr

/-- What one element's reduction has formed: its nodes whose right neighbour is not complete, its flags, the largest
exponent code. -/
structure Cell where
  parts : List Part
  sat : Bool
  special : Bool
  top : Nat
deriving DecidableEq, Repr

/-- The tree of R122 over leaves lo to lo + n - 1 as far as leaf `hi`: pending nodes stand for what earlier passes formed. -/
def forest (int : Bool) (pend : List Part) (leaf : Nat → Nat × Bool) (hi : Nat) : Nat → Nat → Nat → Cell
  | 0, _, _ => ⟨[], false, false, 0⟩
  | fuel + 1, lo, n =>
    match pend.find? (fun q => q.lo == lo && q.n == n) with
    | some q => ⟨[q], false, false, 0⟩
    | none =>
      if hi ≤ lo then ⟨[], false, false, 0⟩
      else if n = 1 then
        let (v, s) := leaf lo
        ⟨[⟨lo, 1, v⟩], s, !normFin int v, expCode (normFin int v) (normDy int v)⟩
      else
        let h := (n + 1) / 2
        let x := forest int pend leaf hi fuel lo h
        let y := forest int pend leaf hi fuel (lo + h) (n - h)
        match x.parts, y.parts with
        | [a], [b] =>
          if a.n = h ∧ b.n = n - h then
            let (v, s) := nodeNorm int a.v b.v
            ⟨[⟨lo, n, v⟩], x.sat || y.sat || s, x.special || y.special || !normFin int v,
              max (max x.top y.top) (expCode (normFin int v) (normDy int v))⟩
          else ⟨[a, b], x.sat || y.sat, x.special || y.special, max x.top y.top⟩
        | ps, qs => ⟨ps ++ qs, x.sat || y.sat, x.special || y.special, max x.top y.top⟩

/-- The spans of the pending entries of a reduction of N leaves when leaf `next` is expected (R126). -/
def spans (next : Nat) : Nat → Nat → Nat → List (Nat × Nat)
  | 0, _, _ => []
  | fuel + 1, lo, n =>
    if next ≤ lo then []
    else if lo + n ≤ next then [(lo, n)]
    else spans next fuel lo ((n + 1) / 2) ++ spans next fuel (lo + (n + 1) / 2) (n - (n + 1) / 2)

/-- The smallest d with 2^d ≥ N. -/
def treeDepth (n : Nat) : Nat := if n ≤ 1 then 0 else Nat.log2 (n - 1) + 1

/-- Pending entries combined from the last to the first (R128). -/
def provisional (int : Bool) (ps : List Part) : Nat :=
  match ps.reverse with
  | [] => 0
  | x :: xs => xs.foldl (fun r p => (nodeNorm int p.v r).1) x.v

/-- Does a finite final value fail the cancellation test (R143)? -/
def cancels (r : Dy) (top : Nat) : Bool :=
  top != 0 && (r.v == 0 || decide (r.exp < (top : Int) - 1024 - 24))

/-! ### The predictor (R104 to R108) -/

/-- Largest magnitude of a tile's elements for 16 lanes, as an exponent; none when all are zero. -/
def scaleExp (t : OTile) (lane0 : Nat) : Option Int :=
  let ds := ((List.range 16).flatMap (fun l => (List.range 64).filterMap (fun k => t.elem (lane0 + l) k))).map
    (fun x => FV.dy (fdecode (fmtOf t.fmt) x))
  (ds.filter (fun d => d.v != 0)).foldl (fun m d => match m with | none => some d.exp | some e => some (max e d.exp)) none

/-- A value divided by its scale and rounded to E4M3, as an exact number (R106). -/
def shadow (t : OTile) (l k : Nat) (sc : Int) : Dy :=
  match t.elem l k with
  | none => ⟨0, 0⟩
  | some x =>
    match FV.dy (fdecode (fmtOf t.fmt) x) with
    | ⟨v, e⟩ => FV.dy (fdecode (fmtOf 3) (fround (fmtOf 3) true (Dy.fv ⟨v, e - sc⟩)).1)

/-- |d|. -/
def Dy.abs (d : Dy) : Dy := ⟨d.v.natAbs, d.e⟩

/-- One depth step's share of s and of e. -/
def shadowStep (a b : OTile) (sa sb : Int) (i j k : Nat) : Dy × Dy :=
  let x := shadow a i k sa
  let y := shadow b j k sb
  let p := Dy.mul x y
  (⟨p.v, p.e + sa + sb⟩,
   let q := Dy.add (Dy.add ⟨p.v.natAbs, p.e - 2⟩ (Dy.mul ⟨1, -9⟩ (Dy.add x.abs y.abs))) ⟨1, -18⟩
   ⟨q.v, q.e + sa + sb⟩)

/-- What the predictor decided of the 16 output blocks. -/
structure Predicted where
  skip : List Nat
  miss : List Nat
deriving DecidableEq, Repr

/-- Output block of an element (16 by 16). -/
def outBlock (i j : Nat) : Nat := 4 * (i / 16) + j / 16

/-- Is a remaining operand of an output block infinite or a NaN? -/
def badOperand (a b : OTile) (blk : Nat) : Bool :=
  let bad := fun (t : OTile) l0 => (List.range 16).any (fun l => (List.range 64).any (fun k =>
    match t.elem (l0 + l) k with
    | some x => !(fdecode (fmtOf t.fmt) x).isFin
    | none => false))
  bad a (16 * (blk / 4)) || bad b (16 * (blk % 4))

/-- The block's elements as (row, column). -/
def blockCells (blk : Nat) : List (Nat × Nat) :=
  (List.range 256).map (fun k => (16 * (blk / 4) + k / 16, 16 * (blk % 4) + k % 16))

/-- Decide skips from the values `p` after PRELEAF leaves, and misses from the shadow pass over the remaining leaves. The
exponent of an all-zero operand tile and the amount of e's upward rounding are free values drawn from `nonce` on (log
entry 25, DESIGN CHOICE). Log entry 41, DEDUCED. -/
def predict (p : Nat → Nat → FV) (rest : List (OTile × OTile)) (thr mgn : FV) (nonce : Nat) : Predicted :=
  let low := fun v => v != .nan && !(FV.lt thr.neg v)
  let skip := (List.range 16).filter (fun b => (blockCells b).all (fun c => low (p c.1 c.2)))
  let missCell := fun (b : Nat) (c : Nat × Nat) =>
    let se := (rest.zipIdx).foldl (fun (acc : Dy × Dy) (x : (OTile × OTile) × Nat) =>
      let free := fun n => ((Config.pick (nonce + 64 * x.2 + 2 * b + n) 512 : Nat) : Int) - 256
      let sa := (scaleExp x.1.1 (16 * (b / 4))).getD (free 0) - 7
      let sb := (scaleExp x.1.2 (16 * (b % 4))).getD (free 1) - 7
      (List.range 64).foldl (fun (acc : Dy × Dy) k =>
        let st := shadowStep x.1.1 x.1.2 sa sb c.1 c.2 k
        (Dy.add acc.1 st.1, Dy.add acc.2 st.2)) acc) ((⟨0, 0⟩ : Dy), (⟨0, 0⟩ : Dy))
    match p c.1 c.2 with
    | .fin neg m e =>
      let pd := FV.dy (.fin neg m e)
      let e0 := Dy.add se.2 (Dy.mul ⟨1, -18⟩ pd.abs)
      let up : Dy := if e0.v = 0 then ⟨0, 0⟩ else ⟨(Config.pick (nonce + 64 * rest.length + 64 * c.1 + c.2) (2 ^ 32) % 2 ^ 32 : Nat), e0.exp - 32⟩
      FV.lt mgn.neg (Dy.fv (Dy.add (Dy.add pd se.1) (Dy.add e0 up)))
    | _ => false
  let miss := skip.filter (fun b => rest.any (fun x => badOperand x.1 x.2 b) || (blockCells b).any (missCell b))
  { skip, miss }

/-! ### MATMUL (R92 to R95, R100, R104 to R109, R121, R124 to R130) -/

/-- The row of an array command. -/
def arrRow (op len : Nat) : CmdRow := { eng := 1, op, len, lenCode := 0x21, opCode := 0x01, immCode := some 0x26 }

/-- Four times the cycles per depth step of a format pair; none for a pair absent from Table 3-5. -/
def pairCycles (af bf : Nat) : Option Nat :=
  if af = 0 ∧ bf = 0 then some 16
  else if (af = 2 ∧ bf = 2) ∨ (af = 1 ∧ bf = 1) then some 4
  else if (af = 3 ∨ af = 4) ∧ (bf = 3 ∨ bf = 4) then some 2
  else if af = 5 ∧ bf = 5 then some 2
  else if af = 6 ∧ bf = 6 then some 1
  else none

/-- Does the tree write of an element belong to a normal tile: its 4 bytes? -/
def normBytes (acct : Nat) (vs : List Nat) : List (Nat × Byte) :=
  (vs.zipIdx).flatMap (fun x => (leBytes 4 x.1).mapIdx (fun k b => (0x4000 * acct + 4 * x.2 + k, b)))

/-- The bytes of a long tile. -/
def longBytes (acct : Nat) (vs : List LongEl) : List (Nat × Byte) :=
  (vs.zipIdx).flatMap (fun x => (leBytes 80 x.1.toBits).mapIdx (fun k b => (0x50000 * acct + 80 * x.2 + k, b)))

/-- Read a tile's element bits: an ended tile holds free values (R118). -/
def readTile (i eng acct : Nat) (long : Bool) : Mc (List Nat) := do
  let w := if long then 80 else 4
  let bs ← accRead i eng ((if long then 0x50000 else 0x4000) * acct) (4096 * w)
  let s ← get
  let bs ← if (tileFlags (s.pane i) acct long).ended then (do
      let (fs, s) := s.freeBytes (4096 * w)
      set s
      pure fs)
    else pure bs
  pure ((List.range 4096).map (fun k => field bs (w * k) w))

/-- Bytes of a partial-sum area header after a pass (Table 4-6), from byte 4. -/
def areaHeader (next depth acct : Nat) (long : Bool) (kind terms : Nat) : List Byte :=
  leBytes 4 (next + depth * 2 ^ 24) ++ leBytes 4 (acct + b2n long * 2 ^ 7 + kind * 2 ^ 8) ++ leBytes 4 0
    ++ leBytes 8 terms ++ leBytes 104 0

/-- What a pass leaves for its result write. -/
structure PassOut where
  acc : List (Nat × Byte)
  area : List (Nat × List Byte)
  sat : Bool
  special : Bool
  canc : Bool
  lbound : Bool
  depth : Nat
deriving DecidableEq, Repr

/-- The fields of a MATMUL that its pass needs. -/
structure MatCmd where
  nleaf : Nat
  leaf0 : Nat
  acct : Nat
  long : Bool
  cont : Bool
  final : Bool
  psaddr : Nat
  pred : Nat
  preleaf : Nat
  thr : FV
  mgn : FV
  int : Bool
deriving DecidableEq, Repr

/-- Does the pass use an area (R124)? -/
def MatCmd.area (m : MatCmd) : Bool := m.cont || !m.final

/-- KIND of a pass (R121). -/
def MatCmd.kind (m : MatCmd) : Nat := (if m.long then 2 else 0) + b2n m.int

/-- A pass into a normal tile over operand tiles: the result, and what the predictor decided. Log entry 41, DEDUCED. -/
def normPass (m : MatCmd) (n : Nat) (pend : List (List Part)) (codes : List Nat) (ab : List (OTile × OTile)) (nonce : Nat) :
    PassOut × Predicted :=
  let op := fun (t : Nat) => (ab[t - m.leaf0]?).getD (⟨0, false, false, 0, 0, []⟩, ⟨0, false, false, 0, 0, []⟩)
  let cell := fun (hi i j : Nat) =>
    forest m.int (pend.getD (64 * i + j) []) (fun t => leafVal m.int (op t).1 (op t).2 i j) hi 25 0 n
  let hi := m.leaf0 + m.nleaf
  let pr := if m.pred = 0 then ⟨[], []⟩
    else predict (fun i j => f32 (provisional m.int (cell (m.leaf0 + m.preleaf) i j).parts)) (ab.drop m.preleaf) m.thr m.mgn nonce
  let zeroed := fun (i j : Nat) => pr.skip.contains (outBlock i j) && !(m.pred == 1 && pr.miss.contains (outBlock i j))
  let cs := (List.range 4096).map (fun k =>
    if zeroed (k / 64) (k % 64) then cell (m.leaf0 + m.preleaf) (k / 64) (k % 64) else cell hi (k / 64) (k % 64))
  let vals := (cs.zipIdx).map (fun x => if zeroed (x.2 / 64) (x.2 % 64) then 0 else provisional m.int x.1.parts)
  let tops := (cs.zipIdx).map (fun x => max x.1.top (codes.getD x.2 0))
  let canc := m.final && ((vals.zip tops).any (fun x => normFin m.int x.1 && cancels (normDy m.int x.1) x.2))
  let depth := (spans hi 25 0 n).length
  let ents := (List.range depth).map (fun e =>
    (m.psaddr + 0x2080 + 0x4000 * e, (cs.map (fun c => leBytes 4 ((c.parts[e]?).map Part.v |>.getD 0))).flatten))
  ({ acc := normBytes m.acct vals
     area := if m.area then (m.psaddr + 4, areaHeader (hi % 2 ^ 24) (if m.final then 0 else depth) m.acct false m.kind 0)
       :: (m.psaddr + 0x80, (tops.map (leBytes 2)).flatten) :: (if m.final then [] else ents) else []
     sat := cs.any Cell.sat, special := cs.any Cell.special, canc, lbound := false, depth := if m.final then 0 else depth }, pr)

/-- A pass into a long tile: the exact sum so far, its leaves added and each sum after a leaf held to the range of R119 (R129, R130). The
predictor takes p beyond the FP32 range as the largest finite value. Log entry 126, DESIGN CHOICE. Log entry 127, DESIGN CHOICE. -/
def longPass (m : MatCmd) (old : List LongEl) (codes : List Nat) (terms : Nat) (ab : List (OTile × OTile)) (nonce : Nat) :
    PassOut × Predicted :=
  let run := fun (ls : List (OTile × OTile)) (k : Nat) =>
    ls.foldl (fun (c : LongEl × Bool × Nat) (x : OTile × OTile) =>
      let l := leafLong m.int x.1 x.2 (k / 64) (k % 64)
      let (v, s) := LongEl.add c.1 l
      (v, c.2.1 || s, max c.2.2 (expCode (l.spec == 0) ⟨l.v, -316⟩))) (old.getD k ⟨0, 0⟩, false, codes.getD k 0)
  let pr := if m.pred = 0 then ⟨[], []⟩
    else predict (fun i j => f32 (fround fp32 true (run (ab.take m.preleaf) (64 * i + j)).1.fv).1) (ab.drop m.preleaf) m.thr m.mgn nonce
  let zeroed := fun (k : Nat) => pr.skip.contains (outBlock (k / 64) (k % 64))
    && !(m.pred == 1 && pr.miss.contains (outBlock (k / 64) (k % 64)))
  let cs := (List.range 4096).map (fun k => run (if zeroed k then ab.take m.preleaf else ab) k)
  let vals := (cs.zipIdx).map (fun x => if zeroed x.2 then ⟨0, 0⟩ else x.1.1)
  let tops := cs.map (fun c => c.2.2)
  let canc := m.final && ((vals.zip tops).any (fun x => x.1.spec == 0 && cancels ⟨x.1.v, -316⟩ x.2))
  let t' := terms + 64 * m.nleaf
  ({ acc := longBytes m.acct vals
     area := if m.area then
       [(m.psaddr + 4, areaHeader ((m.leaf0 + m.nleaf) % 2 ^ 24) 0 m.acct true m.kind (t' % 2 ^ 64)), (m.psaddr + 0x80, (tops.map (leBytes 2)).flatten)]
       else []
     sat := cs.any (fun c => c.2.1), special := cs.any (fun c => c.1.spec != 0), canc, lbound := decide (2 ^ 64 ≤ t'), depth := 0 }, pr)

/-- The bytes of an area a reduction of N leaves needs (R126). -/
def areaSize (long : Bool) (n : Nat) : Nat := 0x2080 + (if long then 0 else 0x4000 * treeDepth n)

/-- The checks of a pass (R124) and what it reads of its area: N, TERMS, the exponent codes and the pending entries. Log entry 40, DEDUCED. -/
def passChecks (i : Nat) (m : MatCmd) : Mc (Nat × Nat × List Nat × List (List Part)) := do
  let t ← curTask i
  let s ← get
  let f := tileFlags (s.pane i) m.acct m.long
  let bad := fun (p : Bool) (code : Nat) => if p then accFault i code m.acct m.long false else (pure () : Mc Unit)
  if m.area then
    let nm1 ← spRead i 1 m.psaddr 4
    failIf (!inClaim t m.psaddr (areaSize m.long (leNat nm1 % 2 ^ 24 + 1))) 0x06
  failIf (t.dclass == 2 && !m.long) 0x08
  bad (!m.cont && m.leaf0 != 0) 0x30
  if !m.area then
    bad (m.leaf0 + m.nleaf != m.nleaf) 0x31
    pure (m.nleaf, 0, [], [])
  else
    bad (m.psaddr % 128 != 0) 0x33
    let h ← spRead i 1 m.psaddr 128
    bad (!m.cont && decide (2 ^ 24 ≤ field h 0 4)) 0x31
    let n := field h 0 4 % 2 ^ 24 + 1
    bad (m.cont && !f.inprog) 0x30
    bad (m.cont && (bits (field h 8 4) 6 0 != m.acct || bit (field h 8 4) 7 != m.long)) 0x33
    bad (m.cont && m.leaf0 != field h 4 4 % 2 ^ 24) 0x30
    bad (m.cont && f.kind != m.kind) 0x32
    bad (decide (n < m.leaf0 + m.nleaf) || (m.final != (m.leaf0 + m.nleaf == n))) 0x31
    if !m.cont then pure (n, 0, [], [])
    else
      let mp ← spRead i 1 (m.psaddr + 0x80) 8192
      let codes := (List.range 4096).map (fun k => field mp (2 * k) 2)
      if m.long then pure (n, field h 16 8, codes, [])
      else
        let sp := spans m.leaf0 25 0 n
        let es ← (sp.zipIdx).mapM (fun x => spRead i 1 (m.psaddr + 0x2080 + 0x4000 * x.2) 0x4000)
        pure (n, 0, codes, (List.range 4096).map (fun k =>
          (sp.zip es).map (fun x => { lo := x.1.1, n := x.1.2, v := field x.2 (4 * k) 4 })))

/-- The body of a MATMUL up to its result write: its checks in the order of R580, its operands, its pass. PANE_ARRCYC and PANE_PREDMKUP
add the cycles of Table 3-11, those of a full grant. Log entry 40, DEDUCED. Log entry 128, DESIGN CHOICE. -/
def matmulBody (i c : Nat) : Mc Bool := do
  let af := cbits c 8 27 24
  let bf := cbits c 12 27 24
  let aaddr := cbits c 8 23 0
  let baddr := cbits c 12 23 0
  let ahdr := cbits c 8 28 28 == 1
  let bhdr := cbits c 12 28 28 == 1
  let auns := cbits c 8 29 29 == 1
  let buns := cbits c 12 29 29 == 1
  let accop := cbits c 24 9 8
  let m : MatCmd := { nleaf := cbits c 16 14 0, leaf0 := cbits c 20 23 0, acct := cbits c 24 6 0, long := cbits c 24 7 7 == 1,
                      cont := accop == 1, final := cbits c 24 10 10 == 1, psaddr := cbits c 28 23 0, pred := cbits c 32 1 0,
                      preleaf := cbits c 32 5 2, thr := f32 (cbytes c 36 4), mgn := f32 (cbytes c 40 4), int := af == 5 || af == 6 }
  failIf (cbits c 8 31 30 != 0 || cbits c 12 31 30 != 0 || cbits c 16 31 15 != 0 || cbits c 20 31 24 != 0
    || cbits c 24 31 11 != 0 || cbits c 28 31 24 != 0 || cbits c 32 31 6 != 0 || cbytes c 44 4 != 0) 0x24
  failIf (aaddr % (if ahdr then 32 else 128) != 0 || baddr % (if bhdr then 32 else 128) != 0) 0x20
  let badF := fun (v : FV) => match v with | .fin neg k _ => neg && k != 0 | _ => true
  failIf (m.nleaf == 0 || decide (16384 < m.nleaf) || (m.long && decide (5 < m.acct)) || decide (2 ≤ accop) || m.pred == 3
    || (m.pred != 0 && (badF m.thr || badF m.mgn))) 0x24
  let t ← curTask i
  match pairCycles af bf with
  | none => fault 0x22
  | some c0 => do
    failIf ((auns && !m.int) || (buns && !(bf == 5 || bf == 6))) 0x22
    let c4 := if m.long || t.dclass == 2 then 16 else c0
    let s ← get
    let f := tileFlags (s.pane i) m.acct m.long
    failIf (m.pred != 0 && (decide (2 < af) || decide (2 < bf) || !m.final || (m.cont && f.pred) || m.preleaf == 0
      || decide (m.nleaf ≤ m.preleaf) || (m.pred == 2 && t.dclass != 0))) 0x25
    failIf (m.cont && f.pred) 0x25
    failIf ((!ahdr && !inClaim t aaddr (m.nleaf * tileBytes af)) || (!bhdr && !inClaim t baddr (m.nleaf * tileBytes bf))
      || !tileClaimed t m.acct m.long || (m.area && !inClaim t m.psaddr 128)) 0x06
    let a ← panel i af auns ahdr 0 m.nleaf aaddr
    let b ← panel i bf buns bhdr 1 m.nleaf baddr
    let (n, terms, codes, pend) ← passChecks i m
    if !(holdsLocal (s.pane i) 32 1 || holdsLocal (s.pane i) 33 1) then throw (.flt (localViolation (s.pane i) 32))
    let ab := a.zip b
    let old ← if m.long && m.cont then readTile i 1 m.acct true else pure []
    let s ← get
    let (o, pr) := if m.long then longPass m (old.map LongEl.ofBits) codes terms ab s.nonce
      else normPass m n pend codes ab s.nonce
    o.area.forM (fun e => spUse i 1 e.1 e.2.length)
    modify (fun s => if m.pred = 0 then s else { s with nonce := s.nonce + 64 * m.nleaf + 4096 })
    let mk := m.pred == 1 && !pr.miss.isEmpty
    let mkc := if mk then 34 + 16 * (m.nleaf - m.preleaf) * c4 else 0
    let skips := (ab.map (fun x => skippedSlices x.1 x.2)).foldl (· + ·) 0
    let occ := (if ahdr || bhdr then 34 + 2 * (m.nleaf * (b2n ahdr + b2n bhdr)) + 4 * (4 * m.nleaf - skips) * c4
      else 34 + 16 * m.nleaf * c4) + (if m.pred = 0 then 0 else 8) + mkc
    cnt i 0x10C skips
    cnt i 0x110 pr.skip.length
    cnt i 0x114 pr.miss.length
    cnt i 0x118 mkc
    modify (fun s => s.incReg64 (Reg.PANE_ARRCYC_LO i) (Reg.PANE_ARRCYC_HI i) occ)
    let base := if m.cont then f else { kind := m.kind }
    let flags : Tile := { base with sat := base.sat || o.sat, canc := base.canc || o.canc, pred := m.pred != 0,
                                    lbound := base.lbound || o.lbound, special := base.special || o.special,
                                    inprog := !m.final, depth := o.depth, ended := false }
    let sp := o.area.flatMap (fun e => e.2.mapIdx (fun k x => (e.1 + k, x)))
    let pm : MatPending := { acct := m.acct, long := m.long, tag := hTag c, pred := m.pred != 0, makeup := mk, acc := o.acc,
                             sp, flags, start := !m.cont }
    modify (fun s => s.modPane i (fun p => { p with mat := some pm }))
    pure false

/-- Is the cell path running a command? -/
def cellBusy (i : Nat) (s : State) : Bool := (s.pane i).mat.isSome

/-- MATMUL computes its tile; its result waits for MATMUL_RESULT_WRITE (R95). -/
def execMatmul (i c : Nat) (s : State) : Host.Outcome State Fault Refusal :=
  answer s (okPane i) (runCmd s i c (arrRow 1 48) (cellBusy i) (matmulBody i c))

/-- The result write: the tile, its flags and the area, and the command completes. The flags that a start clears (R121) show as cleared
from here on. Log entry 129, DESIGN CHOICE. -/
def matWrite (s : State) (i : Nat) : State :=
  match (s.pane i).mat with
  | none => s
  | some m =>
    let s := accStore s i m.acc
    let s := s.modPane i (fun p =>
      let p := if m.start then endOverlapped p m.acct m.long else p
      { setTile p m.acct m.long m.flags with
        mat := none
        sp := tsetAll 0 p.sp m.sp
        spErr := m.sp.foldl (fun t e => tdel t (e.1 / 4 * 4)) p.spErr })
    cmdDone s i 1 1 m.tag

/-- MATMUL_RESULT_WRITE. -/
def execMatmulResultWrite (i : Nat) (s : State) : Host.Outcome State Fault Refusal :=
  answer s (okPane i) (if mayRun s i then settle (matWrite s i) else s)

/-! ### DRAIN (R96, R97) -/

/-- The order in which a drained tile's elements are written: by rows, or as a dense operand tile (TRANS = 1). -/
def drainOrder (fmt : Nat) (trans : Bool) : List Nat :=
  if trans then
    let n := fieldBits fmt / fmtBits fmt
    (List.range 4096).map (fun k => (k / n % 64) * 64 + k / (64 * n) * n + k % n)
  else List.range 4096

/-- max(v, 0): a NaN stays, and -0 becomes +0. -/
def rectify (v : CV) : CV :=
  match v with
  | .flt .nan => .flt .nan
  | .flt (.inf true) => .flt (.fin false 0 0)
  | .flt (.fin true _ _) => .flt (.fin false 0 0)
  | .flt x => .flt x
  | .int x => .int (max x 0)

/-- The value of a tile element by KIND: long integer elements are exact multiples of 1 (clamped ones saturate anyway). -/
def elemVal (kind : Nat) (long : Bool) (x : Nat) : CV :=
  if long then
    (if kind = 3 ∧ bits x 639 638 = 0 then .int ((LongEl.ofBits x).v / (2 ^ 316 : Nat)) else .flt (LongEl.ofBits x).fv)
  else if kind = 1 then .int (toSigned 32 x) else .flt (f32 x)

/-- The body of a DRAIN. -/
def drainBody (i c : Nat) : Mc Bool := do
  let daddr := cbits c 8 23 0
  let ofmt := cbits c 8 27 24
  let rect := cbits c 8 28 28 == 1
  let sat := cbits c 8 29 29 == 1
  let trans := cbits c 8 30 30 == 1
  let ouns := cbits c 8 31 31 == 1
  let acct := cbits c 12 6 0
  let long := cbits c 12 7 7 == 1
  let shift := cbits c 12 12 8
  failIf (cbits c 12 31 13 != 0 || cbytes c 16 16 != 0) 0x24
  failIf (daddr % 128 != 0) 0x20
  let s ← get
  let f := tileFlags (s.pane i) acct long
  failIf ((long && decide (5 < acct)) || (shift != 0 && !((ofmt == 5 || ofmt == 6) && f.kind % 2 == 1))) 0x24
  failIf (decide (8 ≤ ofmt) || (ouns && ofmt != 5 && ofmt != 6)) 0x22
  failIf (f.pred && !rect) 0x25
  let t ← curTask i
  let len := tileBytes ofmt
  failIf (!inClaim t daddr len || !tileClaimed t acct long) 0x06
  let xs ← readTile i 1 acct long
  let rs := xs.map (fun x => convert ofmt sat ouns shift (if rect then rectify (elemVal f.kind long x) else elemVal f.kind long x))
  spWrite i 1 daddr (packElems (fmtBits ofmt) ((drainOrder ofmt trans).map (fun k => ((rs[k]?).map CRes.out).getD 0)))
  cnt i 0x11C (rs.filter CRes.sat).length
  cnt i 0x120 (rs.filter CRes.nan).length
  pure true

/-- Does the MATMUL whose result is not written share a normal tile with a command's tile? -/
def drainBusy (i c : Nat) (s : State) : Bool :=
  match (s.pane i).mat with
  | none => false
  | some m => (tilesOf m.acct m.long).any (fun k => (tilesOf (cbits c 12 6 0) (cbits c 12 7 7 == 1)).contains k)

/-- DRAIN converts a tile into the scratchpad, once every earlier MATMUL of the tile has written its result. -/
def execDrain (i c : Nat) (s : State) : Host.Outcome State Fault Refusal :=
  answer s (okPane i) (runCmd s i c (arrRow 2 32) (drainBusy i c) (drainBody i c))

/-! ### ENCODE (R98, R101) -/

/-- Is an element zero of either sign? -/
def zeroElem (fmt x : Nat) : Bool := if fmt ≤ 4 then x % 2 ^ (fmtBits fmt - 1) == 0 else x == 0

/-- The bytes of one block of a dense tile. -/
def blockOf (t : OTile) (b : Nat) : List Byte :=
  let n := fieldBits t.fmt / fmtBits t.fmt
  packElems (fmtBits t.fmt) ((List.range 256).map (fun k =>
    (t.elem (16 * (b % 4) + k / n % 16) (16 * (b / 4) + k / (16 * n) * n + k % n)).getD 0))

/-- One tile of a headered panel. -/
def encodeTile (t : OTile) : List Byte × Bool :=
  let here := (List.range 16).filter (fun b => (List.range 256).any (fun k =>
    !zeroElem t.fmt ((t.elem (16 * (b % 4) + k % 16) (16 * (b / 4) + k / 16)).getD 0)))
  let mask := here.foldl (fun a b => a + 2 ^ b) 0
  let head := fun (tag offs : Nat) => leBytes 2 mask ++ leBytes 1 (here.length + tag * 32) ++ leBytes 1 t.fmt ++ leBytes 8 offs ++ leBytes 20 0
  if here.length = 16 then (head 1 0 ++ t.bytes, true)
  else (head 0 ((here.zipIdx).foldl (fun a x => a + x.2 * 16 ^ x.1) 0) ++ here.flatMap (blockOf t), false)

/-- The body of an ENCODE. -/
def encodeBody (i c : Nat) : Mc Bool := do
  let src := cbits c 8 23 0
  let fmt := cbits c 8 27 24
  let dst := cbits c 12 23 0
  let n := cbits c 16 14 0
  let res := cbits c 20 23 0
  failIf (cbits c 8 31 28 != 0 || cbits c 12 31 24 != 0 || cbits c 16 31 15 != 0 || cbits c 20 31 24 != 0 || cbytes c 24 8 != 0) 0x24
  failIf (src % 128 != 0 || dst % 32 != 0 || res % 64 != 0) 0x20
  failIf (decide (7 ≤ fmt)) 0x22
  failIf (n == 0 || decide (16384 < n)) 0x24
  let t ← curTask i
  failIf (!inClaim t src (n * tileBytes fmt) || !inClaim t res 64) 0x06
  let ts ← panel i fmt false false 0 n src
  let outs := ts.map encodeTile
  let bs := (outs.map (·.1)).flatten
  failIf (!inClaim t dst bs.length) 0x06
  spWrite i 1 dst bs
  spWrite i 1 res (leBytes 4 bs.length ++ leBytes 4 (outs.filter (·.2)).length)
  modify (fun s => s.incReg64 (Reg.PANE_ARRCYC_LO i) (Reg.PANE_ARRCYC_HI i) (34 + n * tileBytes fmt / 128))
  pure true

/-- ENCODE converts a dense panel to a headered one. -/
def execEncode (i c : Nat) (s : State) : Host.Outcome State Fault Refusal :=
  answer s (okPane i) (runCmd s i c (arrRow 3 32) (cellBusy i) (encodeBody i c))

end Sys2Proof.Machine
end

