-- ==== Sys2Proof/Machine/Crc.lean ====
section
/-! DEFINITION. The cyclic codes of the manual: CRC-32 of IEEE 802.3 (R402, R469) and the CRC-16 of training words (R398). -/

namespace Sys2Proof.Machine

/-- One bit of a reflected CRC register of polynomial `p`. -/
def crcBit (p r : Nat) : Nat := if r % 2 = 1 then Nat.xor (r / 2) p else r / 2

/-- One byte into a reflected CRC register. -/
def crcByte (p r : Nat) (b : Byte) : Nat := (List.range 8).foldl (fun r _ => crcBit p r) (Nat.xor r b.toNat)

/-- CRC-32 of IEEE 802.3: polynomial 0x04C1_1DB7, register all ones, reflected, complemented. -/
def crc32 (bs : List Byte) : Nat := Nat.xor (bs.foldl (crcByte 0xEDB88320) 0xFFFFFFFF) 0xFFFFFFFF

/-- One byte into the CRC-16 register, most significant bit first. -/
def crc16Byte (r : Nat) (b : Byte) : Nat :=
  (List.range 8).foldl (fun r _ => if bit r 15 then Nat.xor (r * 2 % 65536) 0x1021 else r * 2 % 65536) (Nat.xor r (b.toNat * 256))

/-- CRC-16 with polynomial 0x1021 and initial value 0xFFFF. -/
def crc16 (bs : List Byte) : Nat := bs.foldl crc16Byte 0xFFFF

end Sys2Proof.Machine
end

