-- ==== Sys2Proof/Machine/Queue.lean ====
section
/-! DEFINITION. Queues, doorbells and the dispatcher's own steps (R41 to R45, R359 to R371), and the sync rows (R375, R380,
R389). -/

namespace Sys2Proof.Machine

open Sys2Proof

/-- Bays of the package. -/
def okBay (b : Nat) : Bool := decide (b < 16)

/-! ### Queues and doorbells -/

/-- BAY_DOORBELL: the effect of a write of `v`. -/
def execBayDoorbell (b v : Nat) (s : State) : Host.Outcome State Fault Refusal := answer s (okBay b) (whenOpen s (Reg.BAY_DOORBELL b) (settle (doorbell s b v)))

/-- BAY_QERR is write-1-to-clear in QERR; the queue number is read-only (Table 2-12). -/
def qerrClear (s : State) (b v : Nat) : State :=
  if bit v 31 then s.setField (Reg.BAY_QERR b) 31 31 0 else s

/-- BAY_QERR_CLEAR: a write of `v` to BAY_QERR. -/
def execBayQerrClear (b v : Nat) (s : State) : Host.Outcome State Fault Refusal := answer s (okBay b) (whenOpen s (Reg.BAY_QERR b) (qerrClear s b v))

/-- A bay's array clock moves one step toward the value asked for (R31, R316). -/
def clockStep (s : State) (b : Nat) : State :=
  s.modBay b (fun x =>
    let t := clkTarget x
    { x with clk := if x.clk < t then x.clk + 1 else if t < x.clk then x.clk - 1 else x.clk })

/-- ARRAY_CLOCK_STEP. -/
def execArrayClockStep (b : Nat) (s : State) : Host.Outcome State Fault Refusal := answer s (okBay b) (clockStep s b)

/-! ### Fetching (R359 to R363) -/

/-- The task entry's own checks at fetch, first that applies (R45, R580). Log entry 50, DEDUCED. -/
def entryFault (d : List Byte) (qctx : Nat) : Option Nat :=
  let w := field d 0 4
  let ctx := field d 0 2
  if bits w 31 25 ≠ 0 ∨ field d 6 2 ≠ 0 ∨ bits (field d 26 2) 15 1 ≠ 0 ∨ field d 34 6 ≠ 0 ∨ field d 56 8 ≠ 0
    ∨ ctx ≠ qctx ∨ ctx = 0 ∨ ctx = 0xFFFF then some 0x0B
  else if bits w 17 16 = 3 then some 0x09
  else if field d 8 8 % 64 ≠ 0 then some 0x0C
  else if field d 16 4 = 0 ∨ field d 16 4 % 16 ≠ 0 ∨ 0x1000000 < field d 16 4 then some 0x03
  else none

/-- A task from its entry (Table 2-3). -/
def entryTask (s : State) (b q idx : Nat) (d : List Byte) : Task :=
  let w := field d 0 4
  { id := s.taskSeq, bay := b, queue := q, index := idx, ctx := field d 0 2, dclass := bits w 17 16, prio := bits w 20 18,
    lpane := bits w 23 21, anypane := bit w 24, slotset := field d 4 2, listaddr := field d 8 8, listlen := field d 16 4,
    depctr := field d 20 4, donesync := field d 24 2, doneen := bit (field d 26 2) 0, doneadd := field d 28 4,
    spbase := field d 32 1, spcount := field d 33 1, accmask := field d 40 16, st := .held, readyAt := none, ranOn := none,
    saved := none, wake := false, shares := {} }

/-- Is a pane number out of service (R533)? -/
def numberOut (s : State) (n : Nat) : Bool :=
  match s.instOf n with
  | some i => (s.pane i).out
  | none => true

/-- What a fetched task waits for (R361, R363): no dependence record; one that cannot be used, with its code; or an object and a
threshold. The record is read before the fetch takes effect. -/
inductive Dep where
  | none
  | bad (code addr : Nat)
  | obj (o thr : Nat)
deriving DecidableEq, Repr

/-- The dependence record of an entry. -/
def readDep (b depctr : Nat) : Mc Dep := do
  let s ← get
  if depctr = 0xFFFFFFFF then pure .none
  else if s.regN (Reg.DSP_DCLIMIT b) ≤ depctr then pure (.bad 0xA0 0)
  else
    let d ← tryCatch (Except.ok <$> sysRead (.bay b .fetch) (s.reg64 (Reg.DSP_DCBASE_LO b) (Reg.DSP_DCBASE_HI b) + 16 * depctr) 16)
      (fun (e : Stop) => match e with | .flt f => pure (Except.error f) | e => throw e)
    match d with
    | .error f => pure (.bad f.code f.addr)
    | .ok d => pure (if field d 2 2 ≠ 0 ∨ field d 4 4 = 0 ∨ field d 8 8 ≠ 0 then .bad 0xA0 0 else .obj (field d 0 2) (field d 4 4))

/-- A fetched task with a dependence record registers its dispatch take (R361, R363); without one it is Ready. -/
def holdTask (s : State) (t : Task) (d : Dep) : State :=
  match d with
  | .none => makeReady s t.id
  | .bad code addr => taskFault s t.id code { addr }
  | .obj o thr => arrive s { obj := o, kind := 2, task := t.id, ctx := t.ctx, thr, expiry := none, parked := false }

/-- Is the queue a fetch visits next found: enabled, entries between HEAD and the last accepted tail, its context not
being reset? A HEAD whose write is on its way is waited for. -/
def fetchable (b q : Nat) : Mc (Option (List Byte)) := do
  let s ← get
  match tget none (s.bay b).tails q with
  | none => pure none
  | some tail =>
    let a := qdescAddr s b q
    if s.accs.any (fun x => x.sys && x.op != .read && x.va / 64 == a / 64) then throw .wait
    let d ← sysRead (.bay b .fetch) a 64
    if bit (field d 8 4) 20 && field d 12 2 != tail && s.ctxReset != some (field d 8 2) then pure (some d) else pure none

/-- Fetch from one queue: its entry is read, HEAD advances, and the task takes a credit or faults at once. -/
def fetchFrom (b q : Nat) (d : List Byte) : Mc Unit := do
  let size := 2 ^ bits (field d 8 4) 19 16
  let head := field d 12 2
  let idx := head % size
  let e ← sysRead (.bay b .fetch) (field d 0 8 + 64 * idx) 64
  let bad := entryFault e (field d 8 2)
  let s ← get
  let t := entryTask s b q idx e
  let out := !t.anypane && numberOut s (b * 8 + t.lpane)
  let dep ← if bad.isSome || out then pure Dep.none else readDep b t.depctr
  modify (fun s =>
    let s := sysPost s (.bay b .fetch) (qdescAddr s b q + 12) (leBytes 2 ((head + 1) % 65536))
    let s := s.modBay b (fun x => { x with lastQ := q })
    match bad with
    | some code =>
      tfPost s b { ctx := field e 0 2, code, engine := 0, queue := q, pane := 0, ran := false, index := idx, tag := 0,
                   addr := 0, time := s.bayTime b, task := none }
    | none =>
      let s : State := { s with tasks := s.tasks ++ [t], taskSeq := s.taskSeq + 1 }
      if out then taskFault s t.id 0xE1 {} else holdTask s t dep)

/-- Visit the queues in order until one is served. A queue whose descriptor or entry cannot be read is disabled (R43, R578). -/
def visit (s : State) (b : Nat) : List Nat → State
  | [] => dropNeeds s (.bay b .fetch)
  | q :: qs =>
    let w : Who := .bay b .fetch
    let off := fun (s : State) (d : Option (List Byte)) =>
      (queueError (dropNeeds s w) b q d).modBay b (fun x => { x with tails := tset none x.tails q none })
    match runMc (fetchable b q) s with
    | (.ok none, s) => visit s b qs
    | (.ok (some d), s) =>
      match runMc (fetchFrom b q d) s with
      | (.ok _, s) => dropNeeds s w
      | (.error (.need ns), _) => postNeeds s ns
      | (.error .wait, _) => s
      | (.error _, s) => (off s (some d)).modBay b (fun x => { x with lastQ := q })
    | (.error (.need ns), _) => postNeeds s ns
    | (.error .wait, _) => s
    | (.error _, s) => visit (off s none) b qs

/-- The queues in the order a fetch visits them: ascending from the queue after the one last served. Log entry 36, DESIGN CHOICE. -/
def visitOrder (x : Bay) : List Nat :=
  let ks := x.tails.map (·.1)
  ks.filter (fun q => x.lastQ < q) ++ ks.filter (fun q => q ≤ x.lastQ)

/-- TASK_FETCH: one entry is fetched while the dispatcher holds a credit. -/
def execTaskFetch (b : Nat) (s : State) : Host.Outcome State Fault Refusal :=
  answer s (okBay b) (if freeEntries s b = 0 then s else settle (visit s b (visitOrder (s.bay b))))

/-! ### Completion, slices and the task-fault ring -/

/-- Has the pane's task completed: its list ended and every issued command complete (R52)? -/
def taskDone (p : Pane) : Bool :=
  (p.seq.ended || decide (p.seq.listEnd ≤ p.seq.pc)) && p.seq.inflight.isEmpty && p.task.isSome &&
    (match p.sw with | some w => w.step == 2 | none => true)

/-- A task completes (R370): DONESYNC is signalled behind its writes, its entry is freed, and the pane is idle. Log entry 38, DEDUCED. -/
def completeTask (s : State) (i : Nat) : State :=
  match (s.pane i).task.bind s.taskOf with
  | none => s
  | some t =>
    let s := if t.doneen then paneSignal s i t.donesync t.doneadd false (paneWrites s i) else s
    let s := s.incReg (Reg.DSP_TASKS t.bay)
    let s := idlePane s i false
    let s := s.modPane i (fun p => { p with sw := p.sw.map (fun w => { w with outTask := none }) })
    freeEntry s t.id

/-- TASK_COMPLETE. -/
def execTaskComplete (i : Nat) (s : State) : Host.Outcome State Fault Refusal :=
  answer s (okPane i) (if taskDone (s.pane i) then settle (completeTask s i) else s)

/-- A write of DSP_TFTAIL: held records that now have room go to the ring as the bay settles (R371). -/
def tftailWrite (s : State) (b v : Nat) : State := s.setReg (Reg.DSP_TFTAIL b) (v % 256)

/-- DSP_TFTAIL_WRITE. -/
def execDspTftailWrite (b v : Nat) (s : State) : Host.Outcome State Fault Refusal :=
  answer s (okBay b) (whenOpen s (Reg.DSP_TFTAIL b) (settle (tftailWrite s b v)))

/-- A running task whose sequencer is blocked gives its pane to a candidate of any PRIO and enters Waiting (R368). -/
def blockedSwitch (s : State) (i : Nat) : State :=
  let p := s.pane i
  if p.blockedAt.isSome && p.sw.isNone && !p.halted then
    match candidate s i with
    | some c => beginSwitch s i .waiting (some c.id)
    | none => s
  else s

/-- A slice ends (R365 rule 3): a candidate of the same PRIO displaces the running task; a blocked one is switched as R368
states. -/
def sliceExpiry (s : State) (i : Nat) : State :=
  let p := s.pane i
  if p.blockedAt.isSome then blockedSwitch s i
  else
    match p.task.bind s.taskOf, candidate s i with
    | some x, some c =>
      if p.sw.isNone && !p.halted && x.prio == c.prio then (beginSwitch s i .ready (some c.id)).incReg (Reg.DSP_SLICED (bayOf i)) else s
    | _, _ => s

/-- SLICE_EXPIRY. -/
def execSliceExpiry (i : Nat) (s : State) : Host.Outcome State Fault Refusal :=
  answer s (okPane i) (settle (sliceExpiry s i))

/-- BLOCKED_SWITCH. -/
def execBlockedSwitch (i : Nat) (s : State) : Host.Outcome State Fault Refusal :=
  answer s (okPane i) (settle (blockedSwitch s i))

/-! ### Sync objects -/

/-- The first signal on its way to a home of bay `b` whose guarded writes can be read (R373). -/
def nextSignal (s : State) (b : Nat) : Option Sig :=
  s.sigs.find? (fun g => g.obj / 4096 == b && g.guards.all (fun k => !(s.accs.any (fun a => a.id == k))))

/-- SIGNAL_APPLY: a signal takes effect at its home. -/
def execSignalApply (b : Nat) (s : State) : Host.Outcome State Fault Refusal :=
  answer s (okBay b) (match nextSignal s b with
    | none => s
    | some g => settle (applySignal { s with sigs := s.sigs.erase g } g))

/-- A wait or take with a timeout expires (R380): it is removed and its task faults with 0xA4; the takes behind it are
settled. Log entry 85, DEDUCED. -/
def waitExpire (s : State) (b k : Nat) : State :=
  match ((s.bay b).waiters ++ (s.bay b).stalledWaits)[k]? with
  | none => s
  | some w =>
    if w.expiry.isNone then s
    else
      let s := s.modBay b (fun x => if x.waiters.contains w then { x with waiters := x.waiters.erase w }
        else { x with stalledWaits := x.stalledWaits.erase w })
      retryStalled (settleObj (releaseWaiter s w 4) w.obj) b

/-- WAIT_TIMEOUT: the timeout of the `k`-th waiter of the bay's SYN block runs out. -/
def execWaitTimeout (b k : Nat) (s : State) : Host.Outcome State Fault Refusal :=
  answer s (okBay b) (settle (waitExpire s b k))

/-- The object that SYN_SEL selects in a bay. -/
def selObj (s : State) (b : Nat) : Nat := b * 4096 + s.regN (Reg.SYN_SEL b) % 4096

/-- SYN_CTRL create (R378, R389). -/
def synCreate (s : State) (b v : Nat) : State :=
  let o := selObj s b
  if (s.obj o).st ≠ 0 then s.incReg (Reg.SYN_REFUSED b)
  else s.setObj o { val := s.reg64 (Reg.SYN_INIT_LO b) (Reg.SYN_INIT_HI b), owner := s.regN (Reg.SYN_OWNERW b) % 65536, st := 1,
                    anyctx := bit v 3, sat := false, last := none }

/-- SYN_CTRL destroy: waiters are released broken first (R378). -/
def synDestroy (s : State) (b : Nat) : State :=
  let o := selObj s b
  let s := breakObj s o
  retryStalled (s.setObj o {}) b

/-- SYN_CTRL set value (R389). -/
def synSetValue (s : State) (b : Nat) : State :=
  let o := selObj s b
  let x := s.obj o
  if x.st = 0 then s.incReg (Reg.SYN_REFUSED b)
  else
    let s := s.setObj o { x with val := s.reg64 (Reg.SYN_INIT_LO b) (Reg.SYN_INIT_HI b), sat := false }
    if x.st = 1 then retryStalled (settleObj s o) b else s

/-- A write of SYN_CTRL acts by its low bits; other codes are ignored. -/
def synCtrl (s : State) (b v : Nat) : State :=
  if v % 8 = 1 then synCreate s b v else if v % 8 = 2 then synDestroy s b else if v % 8 = 3 then synSetValue s b else s

/-- SYN_CREATE: a write of SYN_CTRL with code 0b001; bit 3 of `v` is ANYCTX. -/
def execSynCreate (b v : Nat) (s : State) : Host.Outcome State Fault Refusal := answer s (okBay b) (whenOpen s (Reg.SYN_CTRL b) (settle (synCreate s b v)))

/-- SYN_DESTROY: a write of SYN_CTRL with code 0b010. -/
def execSynDestroy (b _v : Nat) (s : State) : Host.Outcome State Fault Refusal := answer s (okBay b) (whenOpen s (Reg.SYN_CTRL b) (settle (synDestroy s b)))

/-- SYN_SET_VALUE: a write of SYN_CTRL with code 0b011. -/
def execSynSetValue (b _v : Nat) (s : State) : Host.Outcome State Fault Refusal := answer s (okBay b) (whenOpen s (Reg.SYN_CTRL b) (settle (synSetValue s b)))

end Sys2Proof.Machine
end

