-- ==== Sys2Proof/Machine/Switch.lean ====
section
/-! DEFINITION. The steps of a context switch on one pane (Table 2-8, R65 to R71, R366, R381, R579) and the slot-table windows
(R58, R581, R582). -/

namespace Sys2Proof.Machine

open Sys2Proof

/-- Has step 2 of Table 2-8 ended: no engine command running or reading what it needs (R227, R458), no stream block half written, no addition of a TABULATE on its way
(R210, R211), and no fault that stalls in place (R345)? -/
def drained (s : State) (i : Nat) : Bool :=
  let p := s.pane i
  (match p.sw with | some w => w.step == 2 | none => false) && !p.stalled &&
    [1, 2, 3, 5, 6, 7].all (fun e => runningOf p.seq e == 0 && !reading s i e) &&
    p.seq.streams.all (fun e => e.2.blocks.all (fun x => !x.writing)) &&
    !(s.accs.any (fun a => a.purpose == .line i))

/-- Step 3: the waits of the outgoing task stay registered, marked PARKED (R381). -/
def parkWaits (s : State) (t : Nat) : State :=
  (List.range 16).foldl (fun s b =>
    if (s.bay b).waiters.any (fun w => w.task == t) then
      s.modBay b (fun x => { x with waiters := x.waiters.map (fun w => if w.task = t then { w with parked := true } else w) })
    else s) s

/-- SWITCH_DRAINED: steps 2 and 3 end and step 4 begins. -/
def switchDrained (s : State) (i : Nat) : State :=
  let s := stopStreams s i
  let s := (List.range 8).foldl (fun s e => dropFetched s i e) s
  match (s.pane i).sw with
  | none => s
  | some w =>
    let s := match w.outTask with | some t => parkWaits s t | none => s
    s.modPane i (fun p => { p with sw := some { w with step := 4, laid := false } })

/-- SWITCH_DRAINED. -/
def execSwitchDrained (i : Nat) (s : State) : Host.Outcome State Fault Refusal :=
  answer s (okPane i) (if drained s i then settle (switchDrained s i) else s)

/-- The sequencer block a pane saves (Table 2-9): its sequencer state with the task counters. -/
def saveBlk (s : State) (i : Nat) : SeqBlk :=
  { (s.pane i).seq with counters := (taskCounterOffs.map (fun o => (o, s.reg (paneBase i + o)))).filter (fun e => e.2 != 0) }

/-- Where a task goes as its switch-out completes (Tables 11-1, 11-6 and 10-11). -/
def leaveTo (s : State) (t : Nat) (st : TState) (blk : SeqBlk) : State :=
  let s := s.modTask t (fun x => { x with saved := some blk, st })
  match s.taskOf t with
  | none => s
  | some x =>
    if st = .waiting then
      match blk.waits.find? (fun r => 3 ≤ r.status) with
      | some r => taskFault s t (waitCode r.status) { tag := r.tag }
      | none => if blk.waits.all (fun r => r.status != 0) then makeReady s t else s
    else if st = .parked then (if x.wake then makeReady (s.modTask t (fun y => { y with wake := false })) t else s)
    else makeReady s t

/-- What an incoming claim overlaps is saved: its owner loses it, with the flags of its tiles noted (R69; log entry 17, DESIGN CHOICE). -/
def overlapSaved (p : Pane) (t : Task) : Pane :=
  (overlapOf p t).foldl (fun p o =>
    { p with
      regOwn := o.2.2.foldl tdel p.regOwn
      tileOwn := o.2.1.foldl tdel p.tileOwn
      savedFlags := o.2.1.foldl (fun m k => tset {} (tset {} m (o.1 * 256 + k) (tget {} p.tiles k)) (o.1 * 256 + 128 + k / 20)
        (tget {} p.longTiles (k / 20))) p.savedFlags }) p

/-- What a claim lacked has come from the save area: it is resident, its tiles with their flags (R69; log entry 17, DESIGN CHOICE). -/
def claimRestored (p : Pane) (t : Task) : Pane :=
  let (ts, rs) := missingOf p t
  { p with
    tiles := ts.foldl (fun m k => tset {} m k (tget {} p.savedFlags (t.ctx * 256 + k))) p.tiles
    longTiles := ts.foldl (fun m k => tset {} m (k / 20) (tget {} p.savedFlags (t.ctx * 256 + 128 + k / 20))) p.longTiles
    regOwn := rs.foldl (fun m k => tset 0xFFFF m k t.ctx) p.regOwn
    tileOwn := ts.foldl (fun m k => tset 0xFFFF m k t.ctx) p.tileOwn }

/-- Step 4 ends: the outgoing task's sequencer block is saved and what the incoming claim overlaps. Log entry 111, DESIGN CHOICE. -/
def switchSaved (s : State) (i : Nat) : State :=
  let p := s.pane i
  match p.sw with
  | none => s
  | some w =>
    if !swReady p 4 then s
    else
      let s := match w.inTask.bind s.taskOf with
        | some u => s.modPane i (fun p => overlapSaved p u)
        | none => s
      let s := match w.outTask.bind s.taskOf with
        | some t => leaveTo (idlePane s i false) t.id w.outState (saveBlk s i)
        | none => s
      s.modPane i (fun p => { p with
        sw := if w.inTask.isSome then p.sw.map (fun v => { v with step := 5, outTask := none, laid := false }) else none })

/-- SWITCH_SAVE_DONE. -/
def execSwitchSaveDone (i : Nat) (s : State) : Host.Outcome State Fault Refusal :=
  answer s (okPane i) (settle (switchSaved s i))

/-- Step 5 ends: what the claim lacked is resident, and the sequencer block is as the save area held it where the manual lays it out
(R277). Step 6 follows, at once when the pane holds the slot set already (R57, R366). Log entry 111, DESIGN CHOICE. -/
def switchRestored (s : State) (i : Nat) : State :=
  let p := s.pane i
  match p.sw with
  | none => s
  | some w =>
    if !swReady p 5 then s
    else
      match w.inTask.bind s.taskOf with
      | none => s.modPane i (fun p => { p with sw := none })
      | some t =>
        match runMc (startRecord i t.id t.ctx) s with
        | (.error (.need ns), _) => postNeeds s ns
        | (.error _, s) => s
        | (.ok r, s) =>
          let s := s.modPane i (fun p => claimRestored p t)
          let t := { t with saved := t.saved.map (fun b => restoreStreams b w.got) }
          let s := s.modTask t.id (fun x => { x with saved := t.saved })
          if w.interrupt || p.slotSet == some (t.ctx, slotSetAt t r) then resumeWaits (launch s i t r) i
          else modSw s i (fun v => { v with step := 6, laid := false })

/-- SWITCH_RESTORE_DONE. -/
def execSwitchRestoreDone (i : Nat) (s : State) : Host.Outcome State Fault Refusal :=
  answer s (okPane i) (settle (switchRestored s i))

/-! ### The slot-table windows (R58, R581, R582) -/

/-- Kind, instance and slot that BAY_SLOTSEL selects, when they exist. -/
def slotSel (s : State) (b : Nat) : Option (Nat × Nat × Nat) :=
  let v := s.regN (Reg.BAY_SLOTSEL b)
  let k := bits v 3 0
  let n := bits v 8 4
  let j := bits v 28 16
  if k ≤ 3 ∧ n < kindInsts k ∧ j < frameLen k then some (k, n, j) else none

/-- The slot index after an access to BAY_SLOTDATA. -/
def slotNext (s : State) (b k j : Nat) : State :=
  s.setField (Reg.BAY_SLOTSEL b) 28 16 ((j + 1) % frameLen k)

/-- A write of BAY_SLOTDATA stages an entry. -/
def slotdataWrite (s : State) (b v : Nat) : State :=
  match slotSel s b with
  | none => s
  | some (k, n, j) =>
    slotNext (s.modBay b (fun x => { x with slotStaged := tset none x.slotStaged (slotKey k n j) (some (v % 65536)) })) b k j

/-- A write to a staged register: while a commit of its target is pending the control die holds it (R486). -/
def stageSlot (s : State) (b v : Nat) : State :=
  if s.mgmt.commits.contains (1 + b * 2 ^ 8) then
    { s with mgmt := { s.mgmt with held := s.mgmt.held ++ [{ addr := Reg.BAY_SLOTDATA b, value := v }] } }
  else slotdataWrite s b v

/-- BAY_SLOTDATA_WRITE. -/
def execBaySlotdataWrite (b v : Nat) (s : State) : Host.Outcome State Fault Refusal := answer s (okBay b) (whenOpen s (Reg.BAY_SLOTDATA b) (stageSlot s b v))

/-- A read of BAY_SLOTDATA: the entry in force (Table 0-5). -/
def slotdataRead (s : State) (b : Nat) : Nat × State :=
  match slotSel s b with
  | none => (0, s)
  | some (k, n, j) => (slotEntry s b k n j, slotNext s b k j)

/-- What a read of a register delivered. -/
def State.readOut (s : State) (v : Nat) : State := { s with mgmt := { s.mgmt with lastRead := BitVec.ofNat 32 v } }

/-- BAY_SLOTDATA_READ. -/
def execBaySlotdataRead (b : Nat) (s : State) : Host.Outcome State Fault Refusal :=
  answer s (okBay b) (whenOpen s (Reg.BAY_SLOTDATA b) ((slotdataRead s b).2.readOut (slotdataRead s b).1))

/-- A read of PANE_SLOTDATA: the loaded entry at the selected index. -/
def paneSlotdataRead (s : State) (i : Nat) : Nat × State :=
  let v := s.regN (Reg.PANE_SLOTSEL i)
  let t := bits v 5 0
  let j := bits v 15 8
  if 33 < t then (0, s)
  else (tget 0 (s.pane i).slots (t * 256 + j), s.setField (Reg.PANE_SLOTSEL i) 15 8 ((j + 1) % 256))

/-- PANE_SLOTDATA_READ. -/
def execPaneSlotdataRead (i : Nat) (s : State) : Host.Outcome State Fault Refusal :=
  answer s (okPane i) (whenOpen s (Reg.BAY_SLOTDATA (bayOf i)) ((paneSlotdataRead s i).2.readOut (paneSlotdataRead s i).1))

/-! ### Pane-local slots (R46, R47, R55, R59, R117, R519) -/

/-- The slot of a pane-local table that comes up: its entry and its index; the position then advances. -/
def localSlot (s : State) (i table : Nat) : Nat × Nat × State :=
  let p := s.pane i
  let j := tget 0 p.slotPos table
  (tget 0 p.slots (table * 256 + j), j, s.modPane i (fun p => { p with slotPos := tset 0 p.slotPos table ((j + 1) % 256) }))

/-- Serve an engine's attempt in the slot: refused when the engine holds no slot of the frame, performed when the slot
names it, else it waits. -/
def localServe (s : State) (i table : Nat) (eng : Nat) (act : Mc Unit) : State :=
  let (e, j, s) := localSlot s i table
  if 7 < eng ∨ (s.pane i).task.isNone then s
  else if !holdsLocal (s.pane i) table eng then
    paneFault s i 0x05 { eng, kind := if table < 32 then 4 else 5, slot := j }
  else if bit e 4 && bits e 3 0 == eng then
    match runMc act s with
    | (.ok _, s) => s
    | (.error (.flt f), s) => paneFault s i f.code { eng, addr := f.addr, kind := f.kind, slot := f.slot }
    | (.error _, s) => s
  else s

/-- SCRATCHPAD_BANK_SLOT: one slot of a bank; one 64-byte word is read or written. Stored-bit upsets strike first (log entry
15). An address outside the bank is no access to it. Log entry 15, DESIGN CHOICE. -/
def bankSlot (s : State) (i bank : Nat) (r : SramReq) : State :=
  let s := s.modPane i (fun p => { p with spErr := eccUpset p.spErr (r.upsets.filter (fun u => u.1 / 64 % 32 == bank)) })
  if bankTested s i bank then s
  else if 7 < r.eng ∨ r.addr / 64 % 32 ≠ bank then (localSlot s i bank).2.2
  else
    localServe s i bank r.eng (do
      let a := r.addr / 64 * 64
      if r.wr then spWrite i r.eng a (leBytes 64 r.data)
      else
        let _ ← spRead i r.eng a 64
        pure ())

/-- SCRATCHPAD_BANK_SLOT. -/
def execScratchpadBankSlot (i bank : Nat) (req : SramReq) (s : State) : Host.Outcome State Fault Refusal :=
  answer s (okPane i && decide (bank < 32)) (settle (bankSlot s i bank req))

/-- ACCUMULATOR_PORT_SLOT: one slot of a port; one row of 64 values, 256 B, is read or written (R117). Log entry 15, DESIGN CHOICE. -/
def portSlot (s : State) (i port : Nat) (r : SramReq) : State :=
  let s := s.modPane i (fun p => { p with accErr := eccUpset p.accErr (r.upsets.filter (fun u => u.1 < 0x200000)) })
  localServe s i (32 + port) r.eng (do
    let a := r.addr / 256 * 256
    let t ← curTask i
    failIf (decide (0x200000 ≤ a) || !bit t.accmask (a / 0x4000)) 0x06
    if r.wr then modify (fun s => accStore s i ((leBytes 256 r.data).mapIdx (fun k b => (a + k, b))))
    else
      let _ ← accRead i r.eng a 256
      pure ())

/-- ACCUMULATOR_PORT_SLOT. -/
def execAccumulatorPortSlot (i port : Nat) (req : SramReq) (s : State) : Host.Outcome State Fault Refusal :=
  answer s (okPane i && decide (port < 2)) (settle (portSlot s i port req))

/-- At a table's frame boundary the entries of it that were committed take effect (R58). -/
def dueNow (x : Bay) (kind inst : Nat) : Bay :=
  let (due, rest) := x.slotDue.partition (fun e => e.1 / 2 ^ 13 == kind * 32 + inst)
  if due.isEmpty then x else { x with slotIn := tsetAll none x.slotIn due, slotDue := rest }

/-- A table's slot is over: the next one comes up, and after the last one a new frame begins. -/
def frameStep (x : Bay) (kind inst : Nat) : Bay :=
  let j := (tget 0 x.framePos (kind * 32 + inst) + 1) % frameLen kind
  let x := { x with framePos := tset 0 x.framePos (kind * 32 + inst) j }
  if j = 0 then dueNow x kind inst else x

/-- BAY_ENGINE_COMMAND_SLOT: a slot of a bay engine's command table comes up and names the pane whose command the engine
may accept (R51, R56). -/
def cmdSlot (s : State) (b eng : Nat) : State :=
  let e := slotEntry s b 3 (eng - 5) (tget 0 (s.bay b).framePos (3 * 32 + (eng - 5)))
  s.modBay b (fun x => { frameStep x 3 (eng - 5) with grant := tset none x.grant eng (if bit e 4 then some (bits e 2 0) else none) })

/-- BAY_ENGINE_COMMAND_SLOT. -/
def execBayEngineCommandSlot (b eng : Nat) (s : State) : Host.Outcome State Fault Refusal :=
  answer s (okBay b && decide (5 ≤ eng ∧ eng ≤ 7)) (cmdSlot s b eng)

end Sys2Proof.Machine
end

