-- ==== Sys2Proof/Machine/Stack.lean ====
section
/-! DEFINITION. The memory controller's own steps (R302 to R316, R319): shutters, row remaps, the retirement queue, refused
pages, channel removal and stack temperature. -/

namespace Sys2Proof.Machine

open Sys2Proof

/-! ### The retirement queue (R305) -/

/-- Post a retirement record: it is held, in order, until it is written at MEM_RQHEAD. -/
def postRet (s : State) (b : Nat) (r : RetRec) : State := s.modMem b (fun m => { m with held := m.held ++ [r] })

/-- A record of the device's time. -/
def retRec (s : State) (b typ ch page : Nat) : RetRec := { typ, ch, page, time := s.bayTime b }

/-! ### Removing a channel (R311 to R314) -/

/-- A channel fails for good: its removal starts with VACATE; a second channel of the stack, or one that cannot be read, is
lost, with CHLOST. Log entry 56, DEDUCED. -/
def channelFails (s : State) (b ch : Nat) (readable : Bool) : State :=
  let m := (s.bay b).mem
  let first := m.evac.isNone && m.removed.isNone && m.lost.isEmpty
  if m.lost.contains ch || m.removed == some ch || (match m.evac with | some (c, _, _) => c == ch | none => false) then s
  else
    let s := if readable && first then s
      else
        let s := postRet s b (retRec s b 4 ch 0)
        logE (s.modMem b (fun m => { m with lost := m.lost ++ [ch] })) 0x0C 3 b ch 0 4
    if first then
      postRet (s.modMem b (fun m => { m with evac := some (ch, !readable, false) })) b (retRec s b 3 ch 0)
    else s

/-- A channel fails for good; the command or event does not say whether it can still be read, which is a free choice (R311, R313).
Log entry 121, DESIGN CHOICE. -/
def channelGone (s : State) (b ch : Nat) : State :=
  let (k, s) := s.pick 2
  channelFails s b ch (k == 0)

/-- A page is refused from now on (R307); when the table is full RTFULL is posted and the channel fails. -/
def refusePage (s : State) (b ch page typ : Nat) : State :=
  let m := (s.bay b).mem
  if m.refused.contains page then s
  else if m.refused.length < 1024 then
    logE (s.modMem b (fun m => { m with refused := m.refused ++ [page] })) 0x0B 3 b (page * 4096) 0 typ
  else
    channelFails (postRet (s.modMem b (fun m => { m with rtfull := true })) b (retRec s b 6 ch 0)) b ch true

/-- A page is lost: it is refused at once and the driver is told. -/
def losePage (s : State) (b ch page : Nat) : State :=
  if (s.bay b).mem.refused.contains page then s
  else refusePage (postRet s b (retRec s b 2 ch page)) b ch page 2

/-- Copy bytes through the code (R304, R312), read as any bytes are (R299 to R301): single errors are corrected in the copy, and a
word that cannot be copied stays one that cannot be read. Answers whether there is such a word. -/
def copyBytes (s : State) (pa n : Nat) (hard : Bool) : Bool × State :=
  let (s, f) := readErrors s pa n 0 s.chip hard
  let ws := wordsIn pa n
  let good := ws.filter (fun w => tget 0 s.dramMis (w / 8 * 8) == 0)
  let (d, e) := healWords s.dram s.dramErr good
  (f.isSome, { s with dram := d, dramErr := e })

/-- Copy a line of 64 bytes of a failed channel to its new place; its page is LOST when a word cannot be copied (R312). -/
def evacLine (s : State) (b ch off : Nat) : State :=
  match homeAt s b ch off with
  | none => s
  | some pa =>
    let (lost, s) := copyBytes s pa 64 true
    if lost then losePage s b ch (pa / 4096) else s

/-- Lines of 64 bytes that step 3 of Table 9-10 copies. -/
def evacLines : Nat := 31 * bandBytes / 64

/-- The channel to which the evacuation copies next. -/
def evacTo (m : MemCtl) (ch : Nat) : Nat := (survivors ch).getD (m.evacPos * 64 / bandBytes) 32

/-- Offsets of the lines of a failed channel that are still to be copied and hold an error, ascending. -/
def evacBad (s : State) (b ch : Nat) : List Nat :=
  let at_ := fun (a : Nat) => match mapAddr s a with
    | some (st, c, off) =>
      if st = b ∧ c = ch ∧ (s.bay b).mem.evacPos ≤ off / 64 ∧ off / 64 < evacLines then [off / 64 * 64] else []
    | none => []
  ((s.dramErr.flatMap (fun e => at_ e.1) ++ s.dramMis.flatMap (fun e => at_ e.1)).eraseDups).insertionSort (· ≤ ·)

/-- The bytes of a channel become zero, with valid check bits. -/
def zeroChannel (s : State) (b ch : Nat) : State :=
  let inCh := fun (a : Nat) => match mapAddr s a with | some (st, c, _) => st == b && c == ch | none => false
  { s with dram := s.dram.filter (fun c => !inCh c.1), dramErr := s.dramErr.filter (fun e => !inCh e.1),
           dramMis := s.dramMis.filter (fun e => !inCh e.1) }

/-- EVACUATION_COPY_DONE: step 3 of Table 9-10, in the idle slots that it takes, has copied what was left, and step 4 ends; it does
not end while the channel copied, or one copied to, is shuttered (R317). A lost channel's granules read zero from then on (R313). Log entry 122, DESIGN CHOICE. -/
def evacDone (s : State) (b : Nat) : State :=
  let m := (s.bay b).mem
  match m.evac with
  | some (ch, wasLost, true) =>
    let left := (List.range 31).filter (fun k => m.evacPos * 64 / bandBytes ≤ k)
    let held := match m.shut with
      | some x => m.evacPos < evacLines && (x.ch == ch || left.any (fun k => (survivors ch).getD k 32 == x.ch))
      | none => false
    if held then s
    else
      let s := if wasLost then zeroChannel s b ch else (evacBad s b ch).foldl (fun s off => evacLine s b ch off) s
      let s := s.modMem b (fun m => { m with evac := none, removed := some ch, evacPos := evacLines, evacHeld := false })
      logE (postRet s b (retRec s b 5 ch 0)) 0x0C 3 b ch 0 5
  | _ => s

/-- EVACUATION_COPY_DONE. -/
def execEvacuationCopyDone (b : Nat) (s : State) : Host.Outcome State Fault Refusal := answer s (okBay b) (settle (evacDone s b))

/-- MEM_SVC action 0b011. -/
def execMemSvcDeclareFailed (b ch : Nat) (s : State) : Host.Outcome State Fault Refusal :=
  answer s (okBay b && decide (ch < 32)) (whenOpen s (Reg.MEM_SVC b) (settle (channelGone s b ch)))

/-- A write of MEM_RQTAIL: held records that now have room go to the queue as the bay settles (R305). -/
def rqtailWrite (s : State) (b v : Nat) : State := s.setReg (Reg.MEM_RQTAIL b) (v % 256)

/-- MEM_RQTAIL_WRITE. -/
def execMemRqtailWrite (b v : Nat) (s : State) : Host.Outcome State Fault Refusal := answer s (okBay b) (whenOpen s (Reg.MEM_RQTAIL b) (settle (rqtailWrite s b v)))

/-- A write of MEM_RACK (R306): a RETIRE record's page is refused from now on; a VACATE record starts the evacuation; any
other is ignored. -/
def rack (s : State) (b v : Nat) : State :=
  let k := v % 256
  match tget none (s.bay b).mem.ring k with
  | none => s
  | some r =>
    let used := fun (s : State) => s.modMem b (fun m => { m with ring := tset none m.ring k none })
    if r.typ = 1 then refusePage (used s) b r.ch r.page 1
    else if r.typ = 3 then
      let s := used s
      match (s.bay b).mem.evac with
      | some (ch, l, _) => logE (s.modMem b (fun m => { m with evac := some (ch, l, true) })) 0x0B 3 b 0 0 3
      | none => s
    else s

/-- MEM_RACK. -/
def execMemRack (b v : Nat) (s : State) : Host.Outcome State Fault Refusal := answer s (okBay b) (whenOpen s (Reg.MEM_RACK b) (settle (rack s b v)))

/-! ### Shutters (R308 to R310) -/

/-- A shutter is asked for: cause 0 retraining, 1 lane repair, 2 remap copy, 3 self-test. A channel out of the map needs
none. Log entry 53, DESIGN CHOICE. -/
def askShutter (s : State) (b ch cause : Nat) : State :=
  s.modMem b (fun m =>
    if m.removed = some ch ∨ m.lost.contains ch ∨ m.shutQ.contains (ch, cause) then m
    else { m with shutQ := m.shutQ ++ [(ch, cause)] })

/-- MARGIN_MONITOR_LOW. -/
def execMarginMonitorLow (b ch : Nat) (s : State) : Host.Outcome State Fault Refusal :=
  answer s (okBay b && decide (ch < 32)) (askShutter s b ch 0)

/-- MEM_SVC action 0b001. -/
def execMemSvcRetrain (b ch : Nat) (s : State) : Host.Outcome State Fault Refusal :=
  answer s (okBay b && decide (ch < 32)) (whenOpen s (Reg.MEM_SVC b) (askShutter s b ch 0))

/-- MEM_SVC action 0b010: a self-test of the channel, as a recovery of the stack's domain. -/
def execMemSvcSelfTest (b ch : Nat) (s : State) : Host.Outcome State Fault Refusal :=
  answer s (okBay b && decide (ch < 32)) (whenOpen s (Reg.MEM_SVC b) (settle (strike s (.dramLane b ch) ch 1 false)))

/-- The channel of a DRAM self-test target. -/
def Target.channel : Target → Option (Nat × Nat)
  | .dramRow b ch _ => some (b, ch)
  | .dramLane b ch => some (b, ch)
  | _ => none

/-- A self-test of the domain's current recovery starts running (R521). That of a pane runs under context 0x0000, with a slot set of
the control firmware's (R57), so the pane holds no task's slot set then. -/
def testStarts (s : State) (k : Nat) : State :=
  let d := s.dom k
  match d.cur with
  | some r =>
    if r.phase ≠ 0 then s
    else
      let s := match r.target with | .pane i => s.modPane i (fun p => { p with slotSet := none }) | _ => s
      s.setDom k { d with cur := some { r with phase := 1, start := s.devTime } }
  | none => s

/-- SHUTTER_START: the oldest shutter asked for begins when no channel of the stack is shuttered. -/
def shutterStart (s : State) (b : Nat) : State :=
  let m := (s.bay b).mem
  match m.shut, m.shutQ with
  | none, (ch, cause) :: q =>
    let s := (s.modMem b (fun m => { m with shut := some { ch, cause, start := s.devTime }, shutQ := q })).incReg (Reg.MEM_SHUTCNT b)
    if cause = 3 then testStarts s (3 * 256 + b) else s
  | _, _ => s

/-- SHUTTER_START. -/
def execShutterStart (b : Nat) (s : State) : Host.Outcome State Fault Refusal := answer s (okBay b) (settle (shutterStart s b))

/-- The longest shutter is noted. -/
def noteShut (s : State) (b len : Nat) : State :=
  if s.regN (Reg.MEM_SHUTMAX b) < len then s.setReg (Reg.MEM_SHUTMAX b) (min len 0xFFFFFFFF) else s

/-- Pages that hold bytes of a row: four (R291). -/
def rowPages (s : State) (b ch row : Nat) : List Nat :=
  ((List.range 4).filterMap (fun g => addrAt s b ch (row / 2 * 2048 + g * 512))).map (· / 4096)

/-- The remap copy of a row ends (Table 9-6): its entry is in force, its words are copied through the code, and pages that
lost a word are LOST. -/
def remapDone (s : State) (b : Nat) : State :=
  match (s.bay b).mem.remapDue with
  | none => s
  | some (ch, row, spare, fails) =>
    let pc := row % 2
    let off := row / 2 * 2048
    let bank := Nat.xor (bits off 16 11) (bits off 22 17)
    let rw := off / 2 ^ 17
    let pieces := (List.range 32).filterMap (fun k => addrAt s b ch (off + 64 * k + 32 * pc))
    let (bad, s) := pieces.foldl (fun (x : Bool × State) pa =>
      let r := copyBytes x.2 pa 32 false
      (x.1 || r.1, r.2)) (false, s)
    let s := s.modMem b (fun m => { m with
      remapDue := none
      remaps := m.remaps.map (fun e => if e.ch = ch ∧ e.pc = pc ∧ e.bank = bank ∧ e.row = rw ∧ !e.bad then { e with bad := true } else e)
        ++ [{ ch, pc, bank, row := rw, spare, fails, bad := false }] })
    let s := if bad then (rowPages s b ch row).foldl (fun s p => losePage s b ch p) s else s
    logE s 0x0A 3 b off 0 fails

/-- SHUTTER_END: the shutter's work is done; a retraining resets the channel's failures and training temperature, and a
repair or a copy ends its recovery. -/
def shutterEnd (s : State) (b : Nat) : State :=
  match (s.bay b).mem.shut with
  | none => s
  | some sh =>
    let len := s.devTime - sh.start
    let s := noteShut (s.modMem b (fun m => { m with shut := none })) b len
    let s := logE s 0x08 3 b sh.ch 0 len
    let trained := fun (s : State) => s.modMem b (fun m => { m with
      trainFails := tset 0 m.trainFails sh.ch 0
      trainTemp := tset 0 m.trainTemp sh.ch (s.regN (Reg.MEM_TEMP b) % 256 + 1) })
    if sh.cause = 0 then trained s
    else if sh.cause = 1 then endRecovery (trained s) (3 * 256 + b)
    else if sh.cause = 2 then endRecovery (remapDone s b) (3 * 256 + b)
    else s

/-- SHUTTER_END. -/
def execShutterEnd (b : Nat) (s : State) : Host.Outcome State Fault Refusal := answer s (okBay b) (settle (shutterEnd s b))

/-- RETRAINING_FAILURE: a retraining shutter ends at 40 µs without success (R309): another is asked for at once, or the
third failure in a row makes the channel fail for good. -/
def retrainFails (s : State) (b : Nat) : State :=
  match (s.bay b).mem.shut with
  | none => s
  | some sh =>
    if 2 ≤ sh.cause then s
    else
      let n := tget 0 (s.bay b).mem.trainFails sh.ch + 1
      let s := noteShut (s.modMem b (fun m => { m with shut := none, trainFails := tset 0 m.trainFails sh.ch n })) b (s.devTime - sh.start)
      let s := logE s 0x17 3 b sh.ch 0 n
      let s := if sh.cause = 1 then endRecovery s (3 * 256 + b) else s
      if n < 3 then askShutter s b sh.ch 0 else channelGone s b sh.ch

/-- RETRAINING_FAILURE. -/
def execRetrainingFailure (b : Nat) (s : State) : Host.Outcome State Fault Refusal := answer s (okBay b) (settle (retrainFails s b))

/-- A lasting verdict on a row (Table 9-6): a remap copy while an entry and a spare are free and the row has failed at most
once before, else RETIRE records for its four pages; a row already retiring stays so. -/
def rowFails (s : State) (b ch row : Nat) : State :=
  let m := (s.bay b).mem
  let pc := row % 2
  let off := row / 2 * 2048
  let bank := Nat.xor (bits off 16 11) (bits off 22 17)
  let rw := off / 2 ^ 17
  let es := m.remaps.filter (fun e => e.ch == ch)
  let inBank := es.filter (fun e => e.pc == pc && e.bank == bank)
  let fails := match inBank.find? (fun e => e.row == rw && !e.bad) with | some e => e.fails | none => 0
  if m.retiring.contains (ch, row) then endRecovery s (3 * 256 + b)
  else if fails < 2 ∧ es.length < 64 ∧ inBank.length < 8 then
    askShutter (s.modMem b (fun m => { m with remapDue := some (ch, row, inBank.length, fails + 1) })) b ch 2
  else
    let s := s.modMem b (fun m => { m with retiring := m.retiring ++ [(ch, row)] })
    let s := (rowPages s b ch row).foldl (fun s p => postRet s b (retRec s b 1 ch p)) s
    endRecovery s (3 * 256 + b)

/-! ### Temperature (R315, R316) -/

/-- The hottest of the dies and its index. -/
def hottest (ts : List Nat) : Nat × Nat :=
  (ts.zipIdx).foldl (fun m x => if m.1 < x.1 then (x.1, x.2) else m) (0, 0)

/-- STACK_TEMPERATURE_READ: the actions of Table 9-11 on the hottest reading, and retraining after an 8 °C change since a
channel last trained (Table 9-9). A channel trained before any reading counts from the first one. Log entry 123, DESIGN CHOICE. -/
def stackTemp (s : State) (b : Nat) (ts : List Nat) : State :=
  let (t, d) := hottest (ts.take 12)
  let top := max t (bits (s.regN (Reg.MEM_TEMP b)) 23 16)
  let s := s.setReg (Reg.MEM_TEMP b) (t % 256 + d * 2 ^ 8 + top % 256 * 2 ^ 16)
  let x := s.bay b
  let m := x.mem
  let throttle := decide (93 ≤ t) || (m.throttle && decide (90 ≤ t))
  let hold := decide (95 ≤ t) || (m.hold && decide (93 ≤ t))
  let due := fun (n : Nat) => decide (m.lastStep + n ≤ s.devTime)
  let want := min x.clkPwr x.clkJct
  let m' := { m with hot := decide (90 ≤ t) || (m.hot && decide (88 ≤ t)), throttle, hold }
  let m' :=
    if throttle ∧ (!m.throttle || due 100000) then { m' with clkLimit := min m.clkLimit want - 1, lastStep := s.devTime }
    else if t < 88 ∧ m.clkLimit < 7 ∧ due 1000000 then
      { m' with clkLimit := if want ≤ m.clkLimit + 1 then 7 else m.clkLimit + 1, lastStep := s.devTime }
    else m'
  let s := s.modMem b (fun _ => m')
  let s := if hold && !m.hold then logE s 0x12 3 b 0 0 4 else s
  if m.ready then
    (List.range 32).foldl (fun s ch =>
      let t0 := tget 0 m.trainTemp ch
      if t0 = 0 then s.modMem b (fun m => { m with trainTemp := tset 0 m.trainTemp ch (t + 1) })
      else if t0 + 7 ≤ t ∨ t + 9 ≤ t0 then askShutter s b ch 0 else s) s
  else s

end Sys2Proof.Machine
end

