-- ==== Sys2Proof/Machine/Transl.lean ====
section
/-! DEFINITION. The translation unit's own steps (R328 to R334, R339, R346 to R350, R354, R358): walks, companion replies,
invalidations, resolutions and migration. -/

namespace Sys2Proof.Machine

open Sys2Proof

/-! ### Messages from the companion -/

/-- The first message from the companion for bay `b` with a type, taken out of the queue. Log entry 104, DESIGN CHOICE. -/
def takeFin (s : State) (b mtype : Nat) : Option ((Nat × List Byte) × State) :=
  let p := fun (e : Nat × List Byte) => mType e.2 == mtype && mDbay e.2 == b
  match s.fin.find? p with
  | none => none
  | some e => some (e, { s with fin := eraseFirst p s.fin })

/-! ### Walks -/

/-- A walk starts again from the root or the walk cache (R334). -/
def restartWalk (s : State) (b : Nat) (w : Walk) : State :=
  let s := dropWalk s b w
  startWalk s b (walkStart s b w.ctx w.va w.wr)

/-- A walk goes on to its next line. -/
def nextLine (s : State) (b : Nat) (w v : Walk) : State :=
  let s := dropNeeds s (.bay b (.walk w.ctx w.va))
  let s := s.modXlt b (fun x => { x with walks := x.walks.map (fun u => if u.ctx = w.ctx ∧ u.va = w.va then v else u) })
  postNeed s (walkNeed s b v)

/-- The page-table walks of a bay that are not at the companion. -/
def localWalks (s : State) (b : Nat) : List Walk := (s.bay b).xlt.walks.filter (fun w => w.host.isNone)

/-- The word of a walk's line has come (R328): PTROOT, or the entry of its level. A walk that an invalidation marked caches
nothing and starts again whatever it ends in (R334); a malformed entry is logged (R325). -/
def walkWord (s : State) (b : Nat) (w : Walk) (e : Nat) : State :=
  if w.root then nextLine s b w { w with root := false, tbl := localPa e }
  else
    match walkEntry w.lvl e with
    | .table t => nextLine (if w.stale then s else wcFill s b w.ctx w.lvl w.va e) b w { w with lvl := w.lvl + 1, tbl := t }
    | .ask => hostWalk s b w
    | .leaf e => if w.stale then restartWalk s b w else dropWalk (tlbFill s b w.ctx w.lvl w.va e) b w
    | .page cause hpa => if w.stale then restartWalk s b w else pageWalk s b w cause w.lvl hpa
    | .bad =>
      let s := logE s 0x15 2 b (walkAddr s b w) (detail 0x92 w.ctx) 0x92
      if w.stale then restartWalk s b w else failWalk s b w { code := 0x92, addr := w.va }

/-- PAGE_WALK_LINE: the `k`-th walk goes on once the line that it waits for has come (R328). -/
def walkReturns (s : State) (b k : Nat) : State :=
  match (localWalks s b)[k]? with
  | none => s
  | some w =>
    match s.came (walkNeed s b w) with
    | none => postNeed s (walkNeed s b w)
    | some a =>
      match a.flt with
      | some f => if w.stale then restartWalk s b w else failWalk s b w f
      | none => walkWord s b w (field a.data (walkAddr s b w % 64) 8)

/-- PAGE_WALK_LINE. -/
def execPageWalkLine (b k : Nat) (s : State) : Host.Outcome State Fault Refusal := answer s (okBay b) (settle (walkReturns s b k))

/-- Is a walk reply well formed before its leaf is looked at (R329)? -/
def replyOk (body : List Byte) : Bool :=
  let leaf := field body 0 8
  let lvl := field body 8 1
  let res := field body 9 1
  field body 10 2 == 0 && (res == 1 || (res == 0 && decide (1 ≤ lvl ∧ lvl ≤ 3) && eV leaf && (lvl == 3 || eL leaf)))

/-- The companion walk of a bay that has a TAG. -/
def walkOfTag (s : State) (b tag : Nat) : Option Walk :=
  (s.bay b).xlt.walks.find? (fun w => match w.host with | some (t, _) => t == tag | none => false)

/-- A reply to a companion walk (R329, R334, R440): one whose TAG matches no walk is discarded, and one to a walk that an
invalidation marked ends it, whatever it says, to start again. -/
def walkReply (s : State) (b : Nat) (m : List Byte) : State :=
  match walkOfTag s b (mTag m) with
  | none => s
  | some w =>
    let body := mBody m
    let leaf := field body 0 8
    let lvl := field body 8 1
    let bad := mStatus m == 0 && (!replyOk body || (field body 9 1 == 0 && malformed lvl leaf))
    let s := if bad then logE s 0x15 2 b w.va (detail 0x92 w.ctx) 0x92 else s
    if w.stale then restartWalk s b w
    else if mStatus m ≠ 0 then failWalk s b w { code := statusCode (mStatus m) false, addr := w.va }
    else if bad then failWalk s b w { code := 0x92, addr := w.va }
    else if field body 9 1 = 1 then pageWalk s b w 2 w.lvl 0
    else dropWalk (tlbFill s b w.ctx lvl w.va leaf) b w

/-- WALKRSP: the companion's reply to a walk of the bay arrives. -/
def execWalkrsp (b : Nat) (s : State) : Host.Outcome State Fault Refusal :=
  answer s (okBay b) (match takeFin s b 0x2E with
    | none => s
    | some (e, s) => settle (walkReply s b e.2))

/-- COMPANION_WALK_TIMEOUT: no reply came within 1 ms for the `k`-th companion walk. -/
def walkTimeout (s : State) (b k : Nat) : State :=
  match ((s.bay b).xlt.walks.filter (fun w => w.host.isSome))[k]? with
  | none => s
  | some w => failWalk s b w { code := 0x94, addr := w.va }

/-- COMPANION_WALK_TIMEOUT. -/
def execCompanionWalkTimeout (b k : Nat) (s : State) : Host.Outcome State Fault Refusal :=
  answer s (okBay b) (settle (walkTimeout s b k))

/-! ### Invalidation (R332 to R334) -/

/-- Do [a, a + n) and [c, c + m) overlap? -/
def overlaps (a n c m : Nat) : Bool := decide (a < c + m ∧ c < a + n)

/-- The virtual range of a TLB entry: base and size. -/
def tlbRange (t : TlbEnt) : Nat × Nat := (t.vpn * 2 ^ lvlShift t.lvl, 2 ^ t.run * 2 ^ lvlShift t.lvl)

/-- Owner-cache lines outside a local range of bytes. -/
def dropOwners (s : State) (b base n : Nat) : State :=
  s.modXlt b (fun x => { x with oc := x.oc.filter (fun e => !overlaps base n (e.1 * 0x20000) 0x20000) })

/-- The owner of a local page that the bay's owner cache holds. -/
def cachedOwner (s : State) (b page : Nat) : Option Nat :=
  if bit (s.regN (Reg.XLT_OTCTRL b)) 0 ∧ page < s.regN (Reg.XLT_OTLIMIT b) then
    match tget [] (s.bay b).xlt.oc (page / 32) with
    | [] => none
    | bs => some (field bs (2 * (page % 32)) 2)
  else none

/-- Accesses that the bay's channels have accepted for a local range keep the owner they are checked against (Table 10-11). Log entry 139, DEDUCED. -/
def keepOwners (s : State) (b base n : Nat) : State :=
  { s with accs := s.accs.map (fun a =>
      let page := localPa a.pa / 4096
      if a.stage == .chan && !a.sys && a.oldOwner.isNone && bayOfPa s (localPa a.pa) == b && overlaps base n (page / 32 * 0x20000) 0x20000 then
        { a with oldOwner := cachedOwner s b page }
      else a) }

/-- Was an access of the device's own translated? -/
def translated (a : Access) : Bool :=
  !a.sys && a.stage != .xlate && a.op != .msg && match a.purpose with | .remote _ => false | .host _ _ => false | _ => true

/-- An invalidation of a kind for a context and a range of bytes drops what it names; walks of its pages are marked, and it
waits for the accesses that were translated through what it dropped. Lines of the owner cache go with the acknowledgement: those of the
range for kind 3, all for an unknown kind, which acts as kinds 2 and 3 over everything. Log entry 102, DEDUCED. -/
def invalidate (s : State) (b port tag kind ctx base n : Nat) : State :=
  let hits := fun (c a k : Nat) => kind == 2 || decide (3 < kind) || (c == ctx && (kind == 1 || (kind == 0 && overlaps base n a k)))
  let x := (s.bay b).xlt
  let gone := x.tlb.filter (fun t => hits t.ctx (tlbRange t).1 (tlbRange t).2)
  let waits := (s.accs.filter (fun a => a.bay == b && translated a && a.stage != .got && gone.any (fun t => tlbCovers t a.ctx a.va))).map (·.id)
  s.modXlt b (fun x => { x with
    tlb := x.tlb.filter (fun t => !hits t.ctx (tlbRange t).1 (tlbRange t).2)
    wc := x.wc.filter (fun w => !hits w.ctx (w.pfx * 2 ^ lvlShift w.lvl) (2 ^ lvlShift w.lvl))
    walks := x.walks.map (fun w => if hits w.ctx w.va 4096 then { w with stale := true } else w)
    invs := x.invs ++ [{ tag, port, waits, own := if kind = 3 then some (base, n) else if 3 < kind then some (0, 2 ^ 52) else none }] })

/-- INVAL: an unknown KIND is logged. Log entry 102, DEDUCED. -/
def inval (s : State) (b port : Nat) (m : List Byte) : State :=
  let body := mBody m
  let kind := field body 0 1
  let base := field body 4 8
  let s := invalidate s b port (mTag m) kind (mCtx m) base (4096 * field body 12 8)
  if kind ≤ 3 then s else logE s 0x07 2 b base 0 0x2F

/-- INVAL. -/
def execInval (b : Nat) (s : State) : Host.Outcome State Fault Refusal :=
  answer s (okBay b) (match takeFin s b 0x2F with
    | none => s
    | some (e, s) => settle (inval s b (32 + e.1) e.2))

/-- Lines of the owner cache that an invalidation names are dropped; accesses accepted before keep the old owner (Table 10-11). Log entry 139, DEDUCED. -/
def ownersGo (s : State) (b : Nat) (v : Inv) : State :=
  match v.own with
  | some (base, n) => dropOwners (keepOwners s b base n) b base n
  | none => s

/-- INVACK: the oldest invalidation whose accesses have completed is acknowledged on the port it came by. -/
def invack (s : State) (b : Nat) : State :=
  match (s.bay b).xlt.invs with
  | [] => s
  | v :: vs =>
    if v.waits.any (fun k => s.accs.any (fun a => a.id == k)) then s
    else
      let s := ownersGo (s.modXlt b (fun x => { x with invs := vs })) b v
      (replyHost s b (v.port - 32) 1 (s.hostMsg b 0x30 0 v.tag 0 [])).incReg (Reg.XLT_INVAL b)

/-- INVACK. -/
def execInvack (b : Nat) (s : State) : Host.Outcome State Fault Refusal := answer s (okBay b) (invack s b)

/-- XLT_FLUSH_TLB: every TLB and walk-cache entry of the bay is dropped. -/
def flushTlb (s : State) (b : Nat) : State := s.modXlt b (fun x => { x with tlb := [], wc := [] })
/-- XLT_FLUSH_TLB. -/
def execXltFlushTlb (b : Nat) (s : State) : Host.Outcome State Fault Refusal := answer s (okBay b) (whenOpen s (Reg.XLT_FLUSH b) (flushTlb s b))
/-- XLT_FLUSH_OWNER: every owner-cache line of the bay is dropped. -/
def flushOwner (s : State) (b : Nat) : State := s.modXlt b (fun x => { x with oc := [] })
/-- XLT_FLUSH_OWNER. -/
def execXltFlushOwner (b : Nat) (s : State) : Host.Outcome State Fault Refusal := answer s (okBay b) (whenOpen s (Reg.XLT_FLUSH b) (flushOwner s b))

/-! ### Resolution and migration (R347 to R350) -/

/-- A waiting task is made ready again, at once or when its switch-out completes (Table 10-11). -/
def wakeTask (s : State) (page t : Nat) : State :=
  let s := { s with gx := { s.gx with retried := (t, page) :: s.gx.retried.filter (fun e => e.1 != t) } }
  match s.taskOf t with
  | none => s
  | some x => if x.st = .parked then makeReady s t else s.modTask t (fun y => { y with wake := true })

/-- Does an access hold a table engine's request for the page of an entry (R235)? -/
def heldFor (e : FqEnt) (a : Access) : Bool :=
  a.pg.isSome && a.sent != 0 && a.ctx == e.ctx && a.va / 4096 == e.va / 4096 &&
    match a.purpose with | .fetch (.te _ _) => true | .probe (.te _ _) _ => true | _ => false

/-- An entry is freed with its waiters made ready; requests that table engines hold for it ask again (R347). -/
def freeWake (s : State) (k : Nat) (e : FqEnt) : State :=
  let s := setFq s k none
  let s : State := e.tasks.foldl (fun s t => wakeTask s e.va t) s
  let others := s.gx.retried.filter (fun r => !(e.bays.map (bayWaiter · e.ctx)).contains r.1)
  let s := { s with gx := { s.gx with retried := e.bays.map (fun b => (bayWaiter b e.ctx, e.va)) ++ others } }
  retryStalls { s with accs := s.accs.filter (fun a => !heldFor e a) }

/-- An entry is freed with its waiting tasks faulted; requests that table engines hold for it fail with the same code. -/
def freeFail (s : State) (k : Nat) (e : FqEnt) (code : Nat) : State :=
  let s := setFq s k none
  let s : State := e.tasks.foldl (fun s t => match s.taskOf t with
    | some x => taskFault s t code { eng := x.pf.1, tag := x.pf.2, addr := e.va }
    | none => s) s
  retryStalls { s with accs := s.accs.map (fun a => if heldFor e a then { a with pg := none, flt := some { code, addr := e.va } } else a) }

/-- An entry is resolved: its waiters are made ready, or fault with a code. -/
def freeEnt (s : State) (k : Nat) (code : Option Nat) : State :=
  match tget none s.gx.fq k with
  | none => s
  | some e => (match code with | none => freeWake s k e | some c => freeFail s k e c)

/-- Is a notice not yet written one of an entry? -/
def noticeOf (k : Nat) (e : FqEnt) (n : Notice) : Bool := field n.bytes 0 1 == k && field n.bytes 4 4 == e.seq

/-- A pending entry is freed, or once its notice is written (R346). -/
def freeWhenTold (s : State) (k : Nat) (e : FqEnt) (code : Option Nat) : State :=
  if s.gx.noticeHeld.any (noticeOf k e) then
    { s with gx := { s.gx with noticeHeld := s.gx.noticeHeld.map (fun n => if noticeOf k e n then { n with frees := some (k, code) } else n) } }
  else freeEnt s k code

/-- A write of XLT_FRESOLVE (R348, R358). -/
def fresolve (s : State) (v : Nat) : State :=
  let k := bits v 7 0
  match tget none s.gx.fq k with
  | some e =>
    if e.st = 1 ∧ e.seq % 65536 = bits v 31 16 then freeWhenTold s k e (if bit v 8 then some 0x91 else none)
    else s.incReg Reg.XLT_STALERES
  | none => s.incReg Reg.XLT_STALERES

/-- The oldest notice is in its ring (R346): XLT_FNHEAD advances, the translation interrupt is raised, and the entry whose last
notice it is is freed; the end of a migration is its own. Log entry 124, DESIGN CHOICE. -/
def noticeWritten (s : State) : State :=
  match s.gx.noticeHeld with
  | [] => s
  | n :: ns =>
    let s := { s with gx := { s.gx with noticeHeld := ns } }
    let s := raiseIrq (s.setReg Reg.XLT_FNHEAD ((s.regN Reg.XLT_FNHEAD + 1) % 512)) 48
    let typ := field n.bytes 1 1
    let s := if typ = 1 then s else { s with gx := { s.gx with mig := none } }
    let s := if typ = 2 then s.incReg Reg.XLT_MIGCNT else s
    match n.frees with
    | some (k, code) => freeEnt s k code
    | none => s

/-- XLT_FRESOLVE. -/
def execXltFresolve (v : Nat) (s : State) : Host.Outcome State Fault Refusal := answer s true (whenOpen s Reg.XLT_FRESOLVE (settle (fresolve s v)))

/-- A write of XLT_FNTAIL: notice space may be free (R345, R346). -/
def fntailWrite (s : State) (v : Nat) : State := retryStalls (s.setReg Reg.XLT_FNTAIL (v % 512))
/-- XLT_FNTAIL_WRITE. -/
def execXltFntailWrite (v : Nat) (s : State) : Host.Outcome State Fault Refusal := answer s true (whenOpen s Reg.XLT_FNTAIL (settle (fntailWrite s v)))

/-- A write of XLT_MPTAIL. -/
def mptailWrite (s : State) (v : Nat) : State := s.setReg Reg.XLT_MPTAIL (v % 1024)
/-- XLT_MPTAIL_WRITE. -/
def execXltMptailWrite (v : Nat) (s : State) : Host.Outcome State Fault Refusal := answer s true (whenOpen s Reg.XLT_MPTAIL (mptailWrite s v))

/-- Address of the pool's next entry. -/
def poolAddr (s : State) : Nat := localPa (s.reg64 Reg.XLT_MPBASE_LO Reg.XLT_MPBASE_HI + 8 * s.regN Reg.XLT_MPHEAD)

/-- Is the migration pool empty, as one outside the map is treated (R350, R578)? -/
def poolEmpty (s : State) : Bool := s.regN Reg.XLT_MPHEAD == s.regN Reg.XLT_MPTAIL || outOfMap s (poolAddr s)

/-- The pending CAUSE 0x5 entry with the lowest SEQ. -/
def oldestMigrate (s : State) : Option (Nat × FqEnt) :=
  let es := s.gx.fq.filterMap (fun e => match e.2 with | some x => if x.st = 1 ∧ x.cause = 5 then some (e.1, x) else none | none => none)
  es.foldl (fun o e => match o with | none => some e | some f => if e.2.seq < f.2.seq then some e else some f) none

/-- Write the owner entry of a page, whose word must be readable (Table 10-9). -/
def ownerWrite (u : Use) (page owner : Nat) : Mc Unit := do
  let s ← get
  let b := bayOfPa s (page * 4096)
  let a := s.reg64 (Reg.XLT_OTBASE_LO b) (Reg.XLT_OTBASE_HI b) + 2 * page
  let _ ← sysRead (.ctl u) (a / 4 * 4) 4
  modify (fun s => sysPost s (.ctl u) a (leBytes 2 owner) (.mig 0))

/-- The kind-3 invalidation of a page that the device makes itself (R340): every bay drops its owner-cache line. -/
def dropOwnerAll (s : State) (page : Nat) : State := (List.range 16).foldl (fun s b => dropOwners s b (page * 4096) 4096) s

/-- Is an access part of the running migration? -/
def ofMig (a : Access) : Bool := match a.purpose with | .mig _ => true | _ => false

/-- The accesses of a migration's step are used up. -/
def dropMig (s : State) : State := { s with accs := s.accs.filter (fun a => !ofMig a) }

/-- A migration stands at a step: 2 owner write, 3 its end, 4 page read, 5 page write, 6 leaf write, 7 its end's notice, 8 the owner
entry to be taken back, 9 its end. -/
def migAt (s : State) (m : Mig) (step : Nat) : State := { s with gx := { s.gx with mig := some { m with step } } }

/-- A migration ends with a notice (R346, R350): 0x2 migrated; 0x3 failed, its waiting tasks faulted with 0x95. The entry is freed once
the notice is written. Log entry 124, DESIGN CHOICE. -/
def migNotice (s : State) (m : Mig) (typ : Nat) : State :=
  match tget none s.gx.fq m.entry with
  | none => { s with gx := { s.gx with mig := none } }
  | some e => migAt (postNotice s m.entry typ { e with newpa := m.newpa } (some (if typ = 2 then none else some 0x95))) m 7

/-- The migration fails (R350): it is logged, and the page goes back to owner 0x0000, where a step has written its owner entry. Log entry 55, DEDUCED. -/
def migFail (s : State) (m : Mig) (undo : Bool) : State :=
  match tget none s.gx.fq m.entry with
  | none => { dropMig s with gx := { s.gx with mig := none } }
  | some e =>
    let s := logE (dropMig s) 0x07 8 0 e.va (detail 0x95 e.ctx)
    if undo then migAt s m 8 else migNotice s m 3

/-- Can a pool page be used (Table 10-9, step 1)? -/
def poolPageOk (s : State) (pa : Nat) : Bool :=
  (mapAddr s pa).isSome && (paRefusal s pa).isNone && decide (pa / 4096 < s.regN (Reg.XLT_OTLIMIT (bayOfPa s pa)))

/-- MIGRATION_START: the oldest CAUSE 0x5 entry takes a page of the pool; a pool outside the map is empty (R578). -/
def migStart (s : State) : State :=
  match s.gx.mig, oldestMigrate s with
  | none, some (k, e) =>
    if s.regN Reg.XLT_MPHEAD = s.regN Reg.XLT_MPTAIL then s
    else if poolEmpty s then notMade s 0 (poolAddr s)
    else
      let m0 : Mig := { entry := k, step := 2, newpa := 0 }
      let begin := fun (s : State) (m : Mig) =>
        migAt ((setFq (dropNeeds s (.ctl .pool)) k (some { e with st := 2, newpa := m.newpa })).setReg Reg.XLT_MPHEAD
          ((s.regN Reg.XLT_MPHEAD + 1) % 1024)) m 2
      match runMc (sysRead (.ctl .pool) (poolAddr s) 8) s with
      | (.ok bs, s) =>
        let pa := localPa (leNat bs) / 4096 * 4096
        if poolPageOk s pa then begin s { m0 with newpa := pa }
        else migFail (begin s m0) m0 false
      | (.error (.need ns), _) => postNeeds s ns
      | (.error _, s) => migFail (begin s m0) m0 false
  | _, _ => s

/-- MIGRATION_START. -/
def execMigrationStart (s : State) : Host.Outcome State Fault Refusal := answer s true (settle (migStart s))

/-- Where the level-3 entry of a page lies in the mirror. -/
def leafAddr (ctx va : Nat) : Nat → Nat → Nat → Mc Nat
  | 0, _, tbl => pure tbl
  | n + 1, lvl, tbl => do
    let a := tbl + 8 * (va / 2 ^ lvlShift lvl % 512)
    if lvl = 3 then pure a
    else
      let e := leNat (← sysRead (.ctl .leaf) a 8)
      failIf (malformed lvl e || !eV e || isLeaf lvl e) 0x92 va
      leafAddr ctx va n (lvl + 1) (ePa e)

/-- Write the mirror leaf of a migrated page: W = MW, DEV = 1, HOST = 0, RUN = 0, own chip (Table 10-9, step 4). -/
def writeLeaf (b ctx va newpa : Nat) : Mc Unit := do
  let s ← get
  let root ← sysRead (.ctl .leaf) (ctxRecordAt s b ctx + 16) 8
  let a ← leafAddr ctx va 4 0 (localPa (leNat root))
  let e := leNat (← sysRead (.ctl .leaf) a 8)
  modify (fun s => sysPost s (.ctl .leaf) a (leBytes 8 (1 + b2n (bit e 3) * 2 + 8 + newpa + s.chip * 2 ^ 52)) (.mig 0))

/-- The four reads of the companion page that a migration makes in step 3. -/
def migReads (s : State) (b hpa : Nat) : State :=
  (List.range 4).foldl (fun s k =>
    pushAcc s { owner := b, eng := 8, bay := b, sys := true, pa := hpa + 1024 * k, len := 1024, cls := 2, stage := .reqOut,
                purpose := .mig (1024 * k), host := true }) s

/-- Run the part of a migration's step that reads a structure and posts one write; what it lacks is asked for. -/
def migWrite (s : State) (m : Mig) (u : Use) (act : Mc Unit) (next : Nat) (onFail : State → State) : State :=
  match runMc act s with
  | (.ok _, s) => migAt (dropNeeds s (.ctl u)) m next
  | (.error (.need ns), _) => postNeeds s ns
  | (.error _, s) => onFail (dropNeeds s (.ctl u))

/-- MIGRATION_STEP_DONE: the part of Table 10-9 that is under way ends, when its accesses have, and the next begins. Log entry 124, DESIGN CHOICE. -/
def migStep (s : State) : State :=
  match s.gx.mig with
  | none => s
  | some m =>
    match tget none s.gx.fq m.entry with
    | none => { dropMig s with gx := { s.gx with mig := none } }
    | some e =>
      let b := bayOfPa s m.newpa
      let as := s.accs.filter ofMig
      let bad := as.any (fun a => a.stage == .got && a.flt.isSome)
      let open_ := as.any (fun a => a.stage != .got)
      if m.step = 2 then migWrite s m .pool (ownerWrite .pool (m.newpa / 4096) e.ctx) 3 (fun s => migFail s m true)
      else if m.step = 7 then s
      else if m.step = 8 then
        migWrite s m .undo (ownerWrite .undo (m.newpa / 4096) 0) 9 (fun s => migNotice s m 3)
      else if open_ then s
      else if m.step = 9 then migNotice (dropOwnerAll (dropMig s) (m.newpa / 4096)) m 3
      else if bad then migFail s m true
      else if m.step = 3 then migAt (migReads (dropOwnerAll (dropMig s) (m.newpa / 4096)) b e.hpa) m 4
      else if m.step = 4 then
        migAt (as.foldl (fun s a => match a.purpose with
          | .mig off => sysPost s (.bay b .undo) (m.newpa + off) a.data (.mig off)
          | _ => s) (dropMig s)) m 5
      else if m.step = 5 then migWrite (dropMig s) m .leaf (writeLeaf b e.ctx e.va m.newpa) 6 (fun s => migFail s m true)
      else migNotice (dropMig s) m 2

/-- MIGRATION_STEP_DONE. -/
def execMigrationStepDone (s : State) : Host.Outcome State Fault Refusal := answer s true (settle (migStep s))

end Sys2Proof.Machine
end

