-- ==== Sys2Proof/Machine/Link.lean ====
section
/-! DEFINITION. Optical ports (R392 to R406, R408, R409, R420 to R422, R430 to R432): states, lane maps, flits, replay, credits,
shutters and failover. Ports 0-31 are P0-P31; 32 and 33 are the Follux ports of F0 and F1. -/

namespace Sys2Proof.Machine

open Sys2Proof

/-! ### Port registers -/

/-- A per-port counter register: its WIN and its FLX address. -/
def portReg (p : Nat) (win : Nat → Nat) (flx : Nat → Nat) : Nat := if p < 32 then win p else flx (p - 32)
def rCorr (p : Nat) : Nat := portReg p Reg.WIN_PCWCORR Reg.FLX_PCWCORR
def rUnc (p : Nat) : Nat := portReg p Reg.WIN_PCWUNC Reg.FLX_PCWUNC
def rReplay (p : Nat) : Nat := portReg p Reg.WIN_PREPLAY Reg.FLX_PREPLAY
def rSwap (p : Nat) : Nat := portReg p Reg.WIN_PSWAP Reg.FLX_PSWAP
def rCtrl (p : Nat) : Nat := portReg p Reg.WIN_PCTRL Reg.FLX_PCTRL
def rShut (p : Nat) : Nat := portReg p Reg.WIN_PSHUT Reg.FLX_PSHUT

/-- Count in a register that exchange ports alone have. -/
def winInc (s : State) (p : Nat) (r : Nat → Nat) : State := if p < 32 then s.incReg (r p) else s

/-- The rim bay nearest a window die, whose XE forwards what the die receives for other chips (R412; log entry 23, DESIGN CHOICE). -/
def rimBay (p : Nat) : Nat := [1, 2, 7, 11, 14, 13, 8, 4].getD (p / 4) 0

/-- Log an event of a port. -/
def logPort (s : State) (ev p detail1 : Nat) : State := logE s ev 5 p p 0 detail1

/-- Every vector that is pending and unmasked is sent (R445). -/
def sendPending (s : State) : State := (List.range 51).foldl sendMsi s

/-- What is on its way to a port that is no longer Up is routed again. -/
def unroute (s : State) (p : Nat) : State :=
  { s with accs := s.accs.map (fun a =>
      if a.rim.isSome && a.dst == p && (leaves a || a.stage == .away && !((s.bay a.bay).xe.reqs.any (fun r => r.access == a.id))) then
        { a with rim := none, sent := 0, stage := if a.stage = .away then .reqOut else a.stage }
      else a) }

/-- Change a port's state. A Follux port's change raises vector 50 (Table 13-4). -/
def setPortSt (s : State) (p st : Nat) : State :=
  if (s.port p).st = st then s
  else
    let s := if (s.port p).st = 8 then unroute s p else s
    let s := s.modPort p (fun x => { x with st })
    if 32 ≤ p then raiseIrq s 50 else s

/-- The Follux link is lost (R445): requests fault, companion walks and a running migration fail, and every directory line
becomes Invalid. -/
def hostLost (s : State) : State :=
  let s := (List.range 16).foldl (fun s b =>
    let ws := (s.bay b).xlt.walks.filter (fun w => w.host.isSome)
    let s := ws.foldl (fun s w => failWalk s b w { code := 0x94, addr := w.va }) s
    let ids := ((s.bay b).xe.reqs.filter (fun r => r.host)).map (·.access)
    let lines := (s.bay b).dir
    let s := lines.foldl (fun s d => (logE s 0x16 3 b d.line).incReg Reg.FLX_LOSTLN) s
    let s := s.modBay b (fun x => { x with dir := [], snoops := [], xe := { x.xe with reqs := x.xe.reqs.filter (fun r => !r.host) } })
    { s with accs := s.accs.map (fun (a : Access) => if ids.contains a.id then { a with stage := .got, flt := some { code := 0xC0, addr := a.pa } } else a) }) s
  let s := { s with accs := s.accs.filter (fun (a : Access) => !(a.host && a.op == AccOp.msg)) }
  match s.gx.mig with
  | some m => if m.step = 4 then migFail s m true else s
  | none => s

/-- After a Follux port left Up: is the link lost? -/
def checkHost (s : State) (p : Nat) : State :=
  if 32 ≤ p && !s.portUp 32 && !s.portUp 33 then hostLost s else s

/-! ### Failover (R421, R422) -/

/-- An Up port that reaches the same peer, other than `p`. -/
def altPort (s : State) (p : Nat) : Option Nat :=
  if 32 ≤ p then (if s.portUp (65 - p) then some (65 - p) else none)
  else
    let c := (s.port p).peer.map (·.1)
    (List.range 32).find? (fun q => q != p && s.portUp q && (s.port q).peer.map (·.1) == c && c.isSome)

/-- The bay whose XE counts a port's failovers and losses. Log entry 110, DEDUCED. -/
def portBay (p : Nat) : Nat := if p < 32 then rimBay p else 0

/-- A message is lost with its link: an outstanding request faults its requester with 0xB3; signals and chain records are
logged. Log entry 110, DEDUCED. -/
def loseMsg (s : State) (p : Nat) (m : List Byte) : State :=
  let s := s.incReg (Reg.XE_LOST (portBay p))
  let t := mType m
  if t = 0x0B ∨ t = 0x0C then logE s 0x07 5 p (field (mBody m) 0 2) (detail 0xB3 (mCtx m)) t
  else if mSchip m = s.chip ∧ (t = 1 ∨ t = 2 ∨ t = 3) then failReq s (mSbay m) t (mTag m) 0xB3
  else if mSchip m = s.chip ∧ (t = 7 ∨ t = 9 ∨ t = 0x0D) then failTeReq s (mSbay m) (mTag m) 0xB3
  else s

/-- The messages of a lost port in order: those not acknowledged whole, then those not begun. -/
def lostMsgs (x : Port) : List (Nat × Nat × List Byte) :=
  x.sent ++ (x.txq.filter (fun q => q.2.1 == 0)).map (fun q => (q.1, 2 ^ 48, q.2.2))

/-- A port leaves Up without a drain: each side tells the other what it delivered and resends the rest, or everything is
lost when no other port reaches the peer. Log entry 110, DEDUCED. -/
def failover (s : State) (p : Nat) : State :=
  let x := s.port p
  let msgs := lostMsgs x
  let clear := fun (y : Port) => { y with replay := [], resend := [], txq := [], sent := [], drain := none, rxSwap := none,
                                          txSwap := none, laneWait := [], peerHold := false }
  let s := logPort (s.incReg (Reg.XE_FAILOVER (portBay p))) 0x06 p 0xFF
  match altPort s p with
  | some q =>
    let body := leBytes 4 (if p < 32 then p else p - 32) ++ (x.delivered.map (leBytes 4)).flatten
    let peer := if p < 32 then (x.peer.map (·.1)).getD 0 else s.chip
    let s := s.modPort p (fun y => { clear y with lost := msgs })
    s.queueTx q 3 (mkMsg 0x0E 3 peer 0 s.chip (portBay p) 0 0 0x7F 6 0 body)
  | none =>
    let others := (List.range 34).filter (fun q => q != p && decide (32 ≤ p) == decide (32 ≤ q) && (s.port q).peer.map (·.1) == x.peer.map (·.1))
    let s := msgs.foldl (fun s m => loseMsg s p m.2.2) (s.modPort p clear)
    others.foldl (fun s q =>
      (s.port q).lost.foldl (fun s m => loseMsg s q m.2.2) (s.modPort q (fun y => { y with lost := [] }))) s

/-- Put messages at the head of a port's queue for their channels, ahead of anything not begun. -/
def queueFront (s : State) (p vc : Nat) (ms : List (List Byte)) : State :=
  s.modPort p (fun x =>
    let started := x.txq.filter (fun q => q.2.1 != 0)
    let rest := x.txq.filter (fun q => q.2.1 == 0)
    { x with txq := started ++ ms.map (fun m => (vc, 0, m)) ++ rest })

/-- FAILOVER received on port `p`: the messages of the port it names that the peer did not deliver are sent again, in order
and ahead of newer ones, which the port holds back from another (R411). Log entry 110, DEDUCED. -/
def failoverIn (s : State) (p : Nat) (m : List Byte) : State :=
  let q := field (mBody m) 0 4
  let cnt := fun vc => field (mBody m) (4 + 4 * vc) 4
  let mine := if 32 ≤ p then (if (s.port (32 + (1 - (p - 32)))).lost.isEmpty then none else some (65 - p))
    else (List.range 32).find? (fun r => (s.port r).peer == some (mSchip m, q) && !(s.port r).lost.isEmpty)
  match mine with
  | none => s
  | some r =>
    let ls := (s.port r).lost
    let s := s.modPort r (fun x => { x with lost := [] })
    let s := (List.range 16).foldl (fun s b =>
      s.modXe b (fun x => { x with flows := x.flows.map (fun f => if f.port = r then { f with port := p } else f) })) s
    (List.range 4).foldl (fun s vc =>
      queueFront s p vc ((ls.filter (fun l => l.1 == vc && decide (cnt vc < l.2.1))).map (fun l => l.2.2))) s

/-! ### Shutters (R420) -/

/-- Retrain from Tune: what a link-up sets anew is cleared. -/
def toTune (s : State) (p : Nat) : State :=
  setPortSt (s.modPort p (fun x => { x with drain := none, initTx := false, initRx := false, aligned := 0, clean := 0, rxSwap := none,
                                            txSwap := none, peerHold := false, laneWait := [] })) p 2

/-- A shutter of an Up port starts with its drain: cause 1 repeated replay, 2 no spare lane, 3 service, 4 firmware. -/
def startShutter (s : State) (p cause : Nat) : State :=
  if s.portUp p then
    let s := setPortSt (s.modPort p (fun x => { x with drain := some (cause, s.devTime) })) p 9
    checkHost (logPort (s.incReg (rShut p)) 0x06 p cause) p
  else s

/-- Flows of a drained port move to other ports: its messages not begun are routed again. -/
def reroute (s : State) (p : Nat) : State :=
  let qs := (s.port p).txq
  let s := s.modPort p (fun x => { x with txq := [] })
  qs.foldl (fun s q =>
    if 32 ≤ p then
      match s.hostPort (mSbay q.2.2) with
      | some r => s.queueTx r q.1 q.2.2
      | none => s.queueTx p q.1 q.2.2
    else sendX s (if mSchip q.2.2 = s.chip then mSbay q.2.2 else rimBay p) q.1 q.2.2) s

/-- Is a draining port drained: every flit it holds acknowledged, no message half sent? -/
def drainedPort (x : Port) : Bool := x.drain.isSome && x.replay.isEmpty && x.txq.all (fun q => q.2.1 == 0)

/-- DRAIN_DONE: the flows move and the port retrains. -/
def drainDone (s : State) (p : Nat) : State :=
  if drainedPort (s.port p) then toTune (reroute s p) p else s

/-- DRAIN_TIMEOUT: a drain not finished within 2 µs ends in failover. -/
def drainTimeout (s : State) (p : Nat) : State :=
  if (s.port p).drain.isSome then toTune (failover s p) p else s

/-! ### Bringing a port up (R398 to R400) -/

/-- WIN_PCTRL enable: lasers and rings are powered. -/
def portEnable (s : State) (p : Nat) : State :=
  if (s.port p).st = 0 then
    setPortSt (s.modPort p (fun x => { x with laser := !x.laserHot, light := 0, attempts := 0, darkLogged := false })) p 1
  else s

/-- WIN_PCTRL disable. -/
def portDisable (s : State) (p : Nat) : State :=
  let x := s.port p
  let was := x.st == 8 || x.drain.isSome
  let s := setPortSt (s.modPort p (fun x => { x with laser := false })) p 0
  if was then checkHost (failover s p) p else s

/-- A port that loses its light or lock goes Dark. -/
def toDark (s : State) (p : Nat) : State :=
  setPortSt (s.modPort p (fun x => { x with attempts := x.attempts + 1, initTx := false, initRx := false, aligned := 0, clean := 0 })) p 1

/-- LIGHT_DETECTED: a Dark port whose lasers are on, with light on 16 or more lanes, tunes its rings. -/
def lightDetected (s : State) (p lanes : Nat) : State :=
  let s := s.modPort p (fun x => { x with light := lanes % 2 ^ 18 })
  if (s.port p).st = 1 ∧ (s.port p).laser ∧ 16 ≤ popcount 18 lanes then setPortSt s p 2 else s

/-- DARK_RETRY: a Dark port retries; the first time is logged. Log entry 52, DEDUCED. -/
def darkRetry (s : State) (p : Nat) : State :=
  let x := s.port p
  if x.st = 1 ∧ popcount 18 x.light < 16 then
    let s := s.modPort p (fun x => { x with attempts := x.attempts + 1, darkLogged := true })
    if x.darkLogged then s else logPort s 0x17 p (x.attempts + 1)
  else s

/-- RINGS_TUNED. -/
def ringsTuned (s : State) (p : Nat) : State := if (s.port p).st = 2 then setPortSt s p 3 else s

/-- CLOCK_LOCK: on 16 or more lanes the port sends TS2 with GOOD; a lane marked bad is not good. -/
def clockLock (s : State) (p lanes : Nat) : State :=
  if (s.port p).st = 3 ∧ 16 ≤ popcount 18 lanes then
    setPortSt (s.modPort p (fun x => { x with good := (setBitsOf 18 lanes).foldl (fun a k => if bit x.bad k then a else a + 2 ^ k) 0 })) p 4
  else s

/-- A training failure returns the port to Dark and is logged. Log entry 52, DEDUCED. -/
def trainFail (s : State) (p : Nat) : State := logPort (toDark s p) 0x17 p ((s.port p).attempts + 1)

/-- LOCK_TIMEOUT. -/
def lockTimeout (s : State) (p : Nat) : State := if (s.port p).st = 3 then trainFail s p else s

/-- Is a training word of a port's own kind whole (R398, R430)? -/
def trainOk (w : Nat) : Bool :=
  let bs := leBytes 16 w
  crc16 (bs.take 14) == field bs 14 2 && bits (field bs 2 1) 7 5 == 0 && bits (field bs 3 1) 7 5 == 0
    && bits (field bs 4 2) 15 12 == 0 && bits (field bs 6 3) 23 18 == 0 && bits (field bs 10 1) 7 1 == 0 && field bs 11 3 == 0

/-- TRAINING_WORD: TS2 gives the lane map and the peer; TS3 on every active lane starts the codeword count. -/
def trainingWord (s : State) (p w : Nat) : State :=
  let x := s.port p
  let bs := leBytes 16 w
  let id := field bs 0 2
  let ts := fun k => (if p < 32 then 0xA1C0 else 0xA1D0) + k
  if !trainOk w then s
  else if x.st = 4 ∧ id = ts 2 then
    let g := field bs 6 3
    let common := (setBitsOf 18 g).filter (bit x.good)
    if field bs 9 1 ≠ 1 ∨ common.length < 16 then trainFail s p
    else
      let s := s.modPort p (fun x => { x with peerGood := g })
      if bit (field bs 10 1) 0 then
        setPortSt (s.modPort p (fun x => { x with
          lanes := common.take 16, txLanes := common.take 16, spares := common.drop 16, aligned := 0
          peer := some (if p < 32 then field bs 4 2 % 4096 else 0, field bs 3 1 % 32) })) p 5
      else s
  else if x.st = 5 ∧ id = ts 3 then
    let k := field bs 2 1 % 32
    let al := if x.lanes.contains k && !bit x.aligned k then x.aligned + 2 ^ k else x.aligned
    let s := s.modPort p (fun x => { x with aligned := al })
    if x.lanes.all (bit al) then setPortSt (s.modPort p (fun x => { x with rxCw := 0, clean := 0, txFlits := 0 })) p 6 else s
  else s

/-- What a link-up sets: SEQ 0 and all credit counts 0 (R406). -/
def linkUp (x : Port) : Port :=
  { x with txSeq := 0, rxSeq := 0, nakDue := false, nakArmed := true, replay := [], resend := [], vcSent := [0, 0, 0, 0],
           vcFreed := [0, 0, 0, 0], rxFreed := [0, 0, 0, 0], rxGot := [0, 0, 0, 0], sent := [], sentCnt := [0, 0, 0, 0], rxBuf := [[], [], [], []],
           delivered := [0, 0, 0, 0], attempts := 0, darkLogged := false, laneErr := [], sinceSwap := 0 }

/-- Init is complete once INIT has been received and sent: the port is Up. -/
def initDone (s : State) (p : Nat) : State :=
  let x := s.port p
  if x.st = 7 ∧ x.initTx ∧ x.initRx then
    let s := setPortSt s p 8
    if 32 ≤ p then sendPending s else s
  else s

/-! ### Lanes (R397, R408, R409) -/

/-- The receiver names a swap, at the codeword 256 after the last it received (the count of those received is one more than its number), of the logical lane that a physical lane carries, or shutters the port when no spare is
left. Log entry 108, DEDUCED. -/
def nameSwap (s : State) (p phys : Nat) : State :=
  let x := s.port p
  match x.lanes.idxOf? phys with
  | none => s
  | some l =>
    match x.spares with
    | [] => startShutter s p 2
    | k :: _ => s.modPort p (fun x => { x with rxSwap := some (l, k, x.rxCw + 255, false), sinceSwap := 0 })

/-- A lane must be replaced: at once, after the swap that runs, or with the spare that failed while it was being swapped
in (Table 12-14). Log entry 108, DEDUCED. -/
def replaceLane (s : State) (p phys : Nat) : State :=
  let x := s.port p
  if x.st ≠ 8 then s
  else match x.rxSwap with
  | some (l, k, _, moved) =>
    if k = phys ∧ !moved then
      let s := s.modPort p (fun x => { x with spares := x.spares.erase k, rxSwap := none })
      nameSwap s p (x.lanes.getD l 0)
    else if x.lanes.contains phys && x.lanes.getD l 99 != phys && !x.laneWait.contains phys then
      s.modPort p (fun x => { x with laneWait := x.laneWait ++ [phys] })
    else s
  | none =>
    if x.lanes.contains phys then nameSwap s p phys else s.modPort p (fun x => { x with spares := x.spares.erase phys })

/-- LANE_FAULT: a loss of light or lock, or too many corrected symbols, replaces the lane; a loss on the lane under
self-test is an error of the resource under recovery (R523). Log entry 108, DEDUCED. -/
def laneFault (s : State) (p lane : Nat) (lost : Bool) : State :=
  let s := if lost then s.modPort p (fun x => { x with light := if bit x.light lane then x.light - 2 ^ lane else x.light }) else s
  let k := 5 * 256 + p
  let s := match (s.dom k).cur with
    | some r => if r.target = .optLane p lane ∧ r.phase = 1 ∧ lost then strike s (.optLane p lane) lane 0 true else s
    | none => s
  replaceLane s p lane

/-- The receiver's lane has moved and 16 clean codewords have arrived: the swap ends with NAK, the old lane is tested, and a
waiting swap follows. -/
def swapEnds (s : State) (p : Nat) : State :=
  let x := s.port p
  let s := s.modPort p (fun x => { x with rxSwap := none, nakDue := true, nakArmed := false })
  match x.laneWait with
  | [] => s
  | w :: ws => nameSwap (s.modPort p (fun x => { x with laneWait := ws })) p w

/-- A clean or dirty codeword counts toward the swap that this side named. -/
def swapCount (s : State) (p : Nat) (isClean : Bool) : State :=
  let x := s.port p
  match x.rxSwap with
  | none => s
  | some (l, k, cw, moved) =>
    if moved then
      let n := if isClean then x.clean else 0
      if 16 ≤ n then swapEnds s p else s
    else if cw ≤ x.rxCw then
      let old := x.lanes.getD l 0
      let s := s.modPort p (fun x => { x with lanes := x.lanes.set l k, spares := x.spares.erase k, rxSwap := some (l, k, cw, true), clean := 0 })
      let s := logE (s.incReg (rSwap p)) 0x05 5 p (l + old * 2 ^ 8 + k * 2 ^ 16)
      strike s (.optLane p old) old 0 false
    else s

/-- CODEWORD: errors are (symbol, value) pairs; up to 15 symbols are corrected (R395). In Lock, 4,096 correctable codewords
in a row bring the port to Init. -/
def codeword (s : State) (p : Nat) (errs : List (Nat × Nat)) : State :=
  let x := s.port p
  let syms := ((errs.filter (fun e => e.1 < 544 && e.2 % 1024 != 0)).map (·.1)).eraseDups
  let ok := syms.length ≤ 15
  if x.st < 6 then s
  else
    let s := if !ok then s.incReg (rUnc p) else if syms.isEmpty then s else s.incReg (rCorr p)
    let lane := fun (j : Nat) => x.lanes.getD (j % 16) 0
    let err0 := if x.laneWin + 1000000 ≤ s.devTime then [] else x.laneErr
    let win := if x.laneWin + 1000000 ≤ s.devTime then s.devTime else x.laneWin
    let err := if ok then syms.foldl (fun t j => tset 0 t (lane j) (tget 0 t (lane j) + 1)) err0 else err0
    let s := s.modPort p (fun x => { x with rxCw := x.rxCw + 1, clean := (if ok then x.clean + 1 else 0), laneErr := err, laneWin := win })
    if x.st = 6 then
      if !ok then setPortSt s p 3
      else if x.clean + 1 ≥ 4096 then setPortSt (s.modPort p linkUp) p 7 else s
    else
      let s := if !ok && (s.port p).nakArmed then s.modPort p (fun x => { x with nakDue := true, nakArmed := false }) else s
      swapCount s p ok

/-- LIGHT_LOST: on 3 or more lanes an Up port goes Dark with failover. -/
def lightLost (s : State) (p lanes : Nat) : State :=
  let x := s.port p
  let gone := setBitsOf 18 lanes
  let s := s.modPort p (fun x => { x with light := gone.foldl (fun a k => if bit a k then a - 2 ^ k else a) x.light })
  if (x.st = 8 ∨ x.drain.isSome) ∧ 3 ≤ gone.length then
    let s := toDark s p
    checkHost (failover s p) p
  else s

/-! ### Flits (R402 to R406) -/

/-- A flit: header fields of Table 12-5, payload and CRC. -/
def mkFlit (x : Port) (ftype vc seq first : Nat) (payload : List Byte) : Nat :=
  let hdr := ftype + vc * 2 ^ 4 + seq * 2 ^ 6 + (x.rxSeq + 1023) % 1024 * 2 ^ 16 + b2n x.nakDue * 2 ^ 26
    + b2n x.rxSwap.isSome * 2 ^ 27 + x.cvc * 2 ^ 28 + x.rxFreed.getD x.cvc 0 % 512 * 2 ^ 30 + first * 2 ^ 39
  let body := leBytes 11 hdr ++ payload ++ List.replicate (241 - payload.length) 0
  leNat (body ++ leBytes 4 (crc32 body))

/-- Entries of a port that wait to cross from its line to the lintel fabric (Table 1-8). -/
def queueLine (s : State) (p : Nat) : Nat :=
  (s.accs.map (fun a => match a.stage, a.purpose with | .reqIn _, .parcel (.xin q _ m) => if q = p then (m.length + 63) / 64 else 0 | _, _ => 0)).foldl (· + ·) 0

/-- The receiver frees the flits whose payload has passed on toward the lintels (R405): all it has accepted, while the crossing queue of
64 entries has room. -/
def freeFlits (s : State) (p : Nat) : State :=
  if queueLine s p < 64 then s.modPort p (fun x => { x with rxFreed := x.rxGot }) else s

/-- Put a flit on the line: NAK is said once, CVC moves on. -/
def emit (s : State) (p flit : Nat) : State :=
  s.modPort p (fun x => { x with txFlit := flit, txFlits := x.txFlits + 1, nakDue := false, cvc := (x.cvc + 1) % 4 })

/-- Fill a payload of `room` bytes from a channel's messages: payload, FIRST, the messages left, messages begun, messages
ended. -/
def fillPayload (vc : Nat) : Nat → Nat → Nat → List (Nat × Nat × List Byte) →
    List Byte × Nat × List (Nat × Nat × List Byte) × List (List Byte) × Nat
  | 0, _, _, q => ([], 0xFF, q, [], 0)
  | fuel + 1, room, off, q =>
    match q.find? (fun e => e.1 == vc) with
    | none => ([], 0xFF, q, [], 0)
    | some e =>
      if room = 0 then ([], 0xFF, q, [], 0)
      else
        let left := e.2.2.drop e.2.1
        let k := min room left.length
        let rest := eraseFirst (fun d => d.1 == vc) q
        let begun := if e.2.1 = 0 then [e.2.2] else []
        if left.length ≤ room then
          let (pl, f, q', bs, n) := fillPayload vc fuel (room - k) (off + k) rest
          (left ++ pl, if e.2.1 = 0 then off else f, q', begun ++ bs, n + 1)
        else
          (left.take k, if e.2.1 = 0 then off else 0xFF, q.mapIdx (fun j d => if some j = q.findIdx? (fun d => d.1 == vc) then (d.1, d.2.1 + k, d.2.2) else d), begun, 0)

/-- The channels in the order a data flit is filled: VC3 first, then VC0, VC1 and VC2 in turn. Log entry 108, DEDUCED. -/
def vcOrder (x : Port) : List Nat := [3, x.vcTurn % 3, (x.vcTurn + 1) % 3, (x.vcTurn + 2) % 3]

/-- May a channel send: data waiting (only a message already begun while the port drains) and a credit (R405)? -/
def vcReady (x : Port) (vc : Nat) : Bool :=
  (match x.txq.find? (fun e => e.1 == vc) with
   | some e => x.drain.isNone || e.2.1 != 0
   | none => false) && decide (x.vcSent.getD vc 0 < 256 + x.vcFreed.getD vc 0)

/-- Send a new data flit of a channel. -/
def sendData (s : State) (p vc : Nat) : State :=
  let x := s.port p
  let q0 := if x.drain.isSome then x.txq.filter (fun e => e.1 == vc && e.2.1 != 0) else x.txq
  let (pl, first, q, begun, ends) := fillPayload vc (x.txq.length + 1) 241 0 q0
  let q := if x.drain.isSome then q ++ x.txq.filter (fun e => !(e.1 == vc && e.2.1 != 0)) else q
  let f : RFlit := { seq := x.txSeq, vc, payload := pl, first, ends, resends := 0, begins := begun.length }
  let n := x.sentCnt.getD vc 0
  let s := emit s p (mkFlit x 1 vc x.txSeq first pl)
  let s := s.modPort p (fun y => { y with
    txq := q, txSeq := (x.txSeq + 1) % 1024, replay := y.replay ++ [f]
    vcSent := modAt y.vcSent vc (· + 1), sentCnt := modAt y.sentCnt vc (· + begun.length)
    sent := y.sent ++ begun.mapIdx (fun j m => (vc, n + j + 1, m))
    vcTurn := if vc = 3 then y.vcTurn else (vc + 1) % 3 })
  winInc s p Reg.WIN_PTXFLIT

/-- Payload of a swap flit: logical lane, spare, codeword (log entry 24, DESIGN CHOICE). -/
def swapPayload (l k cw : Nat) : List Byte := leBytes 1 l ++ leBytes 1 k ++ leBytes 6 cw

/-- The sender moves its lane at the named codeword: 5,140 bits of the flit stream to a codeword (R395, R408). Log entry 108, DEDUCED. -/
def txSwapMove (s : State) (p : Nat) : State :=
  let x := s.port p
  match x.txSwap with
  | some (l, k, cw) =>
    if cw ≤ x.txFlits * 2048 / 5140 then
      (s.modPort p (fun x => { x with txLanes := x.txLanes.set l k, txSwap := none })).incReg (rSwap p)
    else s
  | none => s

/-- Flits acknowledged and still kept: on a channel, that in which a message starts that has not ended in an acknowledged flit (R403). -/
def keptFlits (x : Port) : Nat :=
  ((List.range 4).filter (fun vc =>
    decide (((x.replay.filter (fun f => f.vc == vc)).map (·.begins)).foldl (· + ·) 0 < (x.sent.filter (fun m => m.1 == vc)).length))).length

/-- The flit that a port in service sends next: a swap that this side named, repeated every 64 flits; an idle flit while the
peer holds or a swap of the sent lanes is pending; a flit to resend; new data; else idle. Log entry 108, DEDUCED. -/
def sendNext (s : State) (p : Nat) : State :=
  let x := s.port p
  let idle := fun (s : State) => emit s p (mkFlit x 0 0 0 0xFF [])
  let rest := fun (s : State) =>
    if x.peerHold || x.txSwap.isSome then idle s
    else match x.resend with
    | r :: rs =>
      let s := s.modPort p (fun y => { y with resend := rs })
      match x.replay.find? (fun f => f.seq == r) with
      | some f => winInc (emit s p (mkFlit x 1 f.vc f.seq f.first f.payload)) p Reg.WIN_PTXFLIT
      | none => idle s
    | [] =>
      if x.replay.length + keptFlits x < 256 then
        match (vcOrder x).find? (vcReady x) with
        | some vc => sendData s p vc
        | none => idle s
      else idle s
  match x.rxSwap with
  | some (l, k, cw, false) => if x.sinceSwap % 64 = 0 then emit s p (mkFlit x 2 0 0 0xFF (swapPayload l k cw)) else rest s
  | _ => rest s

/-- FLIT_SEND: the next flit of the stream; Init sends INIT. -/
def flitSend (s : State) (p : Nat) : State :=
  let s := freeFlits s p
  let x := s.port p
  if x.st = 7 then
    initDone ((emit s p (mkFlit x 3 0 0 0xFF [])).modPort p (fun x => { x with initTx := true })) p
  else if x.st = 8 ∨ x.drain.isSome then
    txSwapMove ((sendNext s p).modPort p (fun y => { y with sinceSwap := y.sinceSwap + 1 })) p
  else s

/-- Resend the unacknowledged flits from one point: a replay. The eighth resend of one flit starts a shutter (R404). -/
def replayFrom (s : State) (p : Nat) : State :=
  let x := s.port p
  if x.replay.isEmpty || x.peerHold then s
  else
    let s := s.modPort p (fun y => { y with replay := y.replay.map (fun f => { f with resends := f.resends + 1 }), resend := y.replay.map (·.seq) })
    let s := s.incReg (rReplay p)
    if x.replay.any (fun f => 7 ≤ f.resends) then startShutter s p 1 else s

/-- REPLAY_TIMEOUT: the sender resends from its oldest flit; a receiver still waiting for the expected flit says NAK again. -/
def replayTimeout (s : State) (p : Nat) : State :=
  let x := s.port p
  if x.st = 8 ∨ x.drain.isSome then
    let s := if x.nakArmed then s else s.modPort p (fun x => { x with nakDue := true })
    replayFrom s p
  else s

/-- ACK frees the flits up to its SEQ, and the messages that end in them are delivered. -/
def applyAck (s : State) (p ack : Nat) : State :=
  let x := s.port p
  match x.replay.findIdx? (fun f => f.seq == ack) with
  | none => s
  | some j =>
    let done := x.replay.take (j + 1)
    let sent := done.foldl (fun l f => (List.range f.ends).foldl (fun l _ => eraseFirst (fun m => m.1 == f.vc) l) l) x.sent
    s.modPort p (fun y => { y with replay := (y.replay.drop (j + 1)).map (fun f => { f with resends := 0 }), sent,
                                   resend := y.resend.filter (fun r => !(done.any (fun f => f.seq == r))) })

/-- A flit with a bad CRC or the wrong SEQ is discarded: NAK on the first discard after an accepted flit. -/
def discard (s : State) (p : Nat) : State :=
  if (s.port p).nakArmed then s.modPort p (fun x => { x with nakDue := true, nakArmed := false }) else s

/-- Is a message type of an exchange port, and of a Follux port, defined (Tables 12-11 and 13-2)? -/
def mtypeOk (p t : Nat) : Bool :=
  if p < 32 then decide (1 ≤ t ∧ t ≤ 0x0E) else decide (4 ≤ t ∧ t ≤ 6) || t == 0x0E || decide (0x20 ≤ t ∧ t ≤ 0x2F ∧ t ≠ 0x26 ∧ t ≠ 0x27 ∧ t ≠ 0x2C ∧ t ≠ 0x2D)

/-- Is a message well formed (R414)? -/
def msgOk (p : Nat) (m : List Byte) : Bool :=
  mtypeOk p (mType m) && bits (field m 0 4) 31 26 == 0 && bits (field m 12 4) 31 15 == 0

/-- A message for another chip is sent on by the rim bay (R412); at HOPS = 7 a request is answered and anything else is logged. -/
def forward (s : State) (b p vc : Nat) (m : List Byte) : State :=
  if mHops m = 7 then
    if isRequest (mType m) && vc == 0 then answerReq s b m 0xB
    else logE s 0x07 5 p (field (mBody m) 0 8) (detail 0xB0 (mCtx m)) (mType m)
  else sendX s b vc (leBytes 4 (field m 0 4 + 2 ^ 23) ++ m.drop 4)

/-- The bay to which a message for this device is delivered (R414). Log entry 46, DEDUCED. Log entry 104, DESIGN CHOICE. -/
def deliverBay (s : State) (m : List Byte) : Nat :=
  let t := mType m
  if t = 1 ∨ t = 2 ∨ t = 3 then
    match mapAddr s (localPa (field (mBody m) 0 8)) with | some (b, _, _) => b | none => mDbay m
  else if t = 0x0B then field (mBody m) 0 1 % 128 / 8
  else if t = 0x0C then field (mBody m) 0 2 / 4096
  else mDbay m

/-- What a port has received whole enters a bay over the lintel of the port's die, in the remote class of its XE's slots (R62, R414,
R576). A response to an access crosses as that access's own (R56). -/
def bringIn (s : State) (b p vc : Nat) (m : List Byte) : State :=
  pushAcc s { parcelOut b (.xin p vc m) m.length with stage := .reqIn (portLintel p), dst := b }

/-- Is a message the response to an access of this device? -/
def isAnswer (m : List Byte) : Bool := decide (4 ≤ mType m ∧ mType m ≤ 6)

/-- The bay to which a message from the companion is delivered: that of the line it names, else DBAY (R432). -/
def finBay (s : State) (m : List Byte) : Nat :=
  let t := mType m
  if 0x20 ≤ t ∧ t ≤ 0x25 then (match mapAddr s (localPa (field (mBody m) 0 8)) with | some (b, _, _) => b | none => mDbay m % 16)
  else mDbay m

/-- A message that came in has reached its bay: it is for the bay, or is sent on. -/
def arrived (s : State) (b p vc : Nat) (m : List Byte) : State :=
  if 32 ≤ p then { s with fin := s.fin ++ [(p - 32, m)] }
  else if mDchip m ≠ s.chip then forward s b p vc m
  else (s.incReg (Reg.XE_RXMSG b)).modXe b (fun x => { x with xin := x.xin ++ [m] })

/-- A whole message arrives on a port. -/
def deliver (s : State) (p vc : Nat) (m : List Byte) : State :=
  let s := s.modPort p (fun x => { x with delivered := modAt x.delivered vc (· + 1) })
  if !msgOk p m then logE s 0x07 5 p 0 0 (mType m)
  else if mType m = 0x0E then s.modPort p (fun x => { x with failIn := x.failIn ++ [m] })
  else if 32 ≤ p then if isAnswer m then arrived s (mDbay m) p vc m else bringIn s (finBay s m) p vc m
  else if mDchip m ≠ s.chip then bringIn s (rimBay p) p vc m
  else if isAnswer m then arrived s (mDbay m) p vc m
  else if !s.boot.ready && isRequest (mType m) && vc == 0 then answerReq (s.incReg (Reg.XE_RXMSG (deliverBay s m))) (deliverBay s m) m 0xA
  else bringIn s (deliverBay s m) p vc m

/-- The payload of an accepted flit goes into its channel's byte stream, and whole messages are delivered (R406). -/
def takeBytes (s : State) (p vc : Nat) : Nat → List Byte → State
  | 0, _ => s
  | fuel + 1, bs =>
    let buf := (s.port p).rxBuf.getD vc []
    let put := fun (s : State) (l : List Byte) => s.modPort p (fun x => { x with rxBuf := modAt x.rxBuf vc (fun _ => l) })
    if bs.isEmpty then s
    else if buf.isEmpty && bs.headD 0 == 0 then s
    else
      let all := buf ++ bs
      if all.length < 4 then put s all
      else
        let len := 16 + mBlen all
        if all.length < len then put s all
        else takeBytes (deliver (put s []) p vc (all.take len)) p vc fuel (all.drop len)

/-- A swap flit names a lane that this side's sender moves (R408). Log entry 24, DESIGN CHOICE. -/
def swapIn (s : State) (p : Nat) (pl : List Byte) : State :=
  s.modPort p (fun x => if x.txLanes.getD (field pl 0 1) 99 = field pl 1 1 then x
    else { x with txSwap := some (field pl 0 1, field pl 1 1, field pl 2 6) })

/-- A data flit in order is accepted. -/
def acceptData (s : State) (p vc : Nat) (pl : List Byte) : State :=
  let s := s.modPort p (fun x => { x with rxSeq := (x.rxSeq + 1) % 1024, nakArmed := true, rxGot := modAt x.rxGot vc (· + 1) })
  takeBytes (winInc s p Reg.WIN_PRXFLIT) p vc 242 pl

/-- FLIT_RECEIVE: CRC, then ACK, HOLD, credits and NAK of any flit, then the flit by its type. -/
def flitReceive (s : State) (p flit : Nat) : State :=
  let x := s.port p
  if !(x.st == 7 || x.st == 8 || x.drain.isSome) then s
  else
    let bs := leBytes 256 flit
    let h := field bs 0 11
    let pl := (bs.drop 11).take 241
    let ft := bits h 3 0
    if crc32 (bs.take 252) ≠ field bs 252 4 then discard s p
    else if 4 ≤ ft then s
    else if ft = 3 then
      if x.st = 7 then initDone (s.modPort p (fun x => { x with initRx := true })) p else s
    else if x.st = 7 then s
    else
      let vc := bits h 29 28
      let cred := bits h 38 30
      let s := s.modPort p (fun x =>
        let old := x.vcFreed.getD vc 0
        { x with peerHold := bit h 27, vcFreed := modAt x.vcFreed vc (fun n => n + (cred + 512 - old % 512) % 512) })
      let s := applyAck s p (bits h 25 16)
      let s := if bit h 26 then replayFrom s p else s
      if ft = 2 then swapIn s p pl
      else if ft = 1 then
        if bits h 15 6 = (s.port p).rxSeq then acceptData s p (bits h 5 4) pl else discard s p
      else s

/-! ### Flows (R411) -/

/-- FLOW_RELEASE: flows of a bay that are held, and whose old port holds nothing of them any more, go on. -/
def flowRelease (s : State) (b : Nat) : State :=
  s.modXe b (fun x => { x with flows := x.flows.map (fun f =>
    if f.held && !portHolds s f.port f.vc f.dchip f.schip f.sbay then { f with held := false } else f) })

/-! ### Port control (R426) -/

/-- A write of WIN_PCTRL or FLX_PCTRL: other actions are ignored. -/
def portCtrl (s : State) (p v : Nat) : State :=
  let a := v % 8
  if a = 1 then startShutter s p 3
  else if a = 2 then replaceLane s p (bits v 7 3)
  else if a = 3 then portDisable s p
  else if a = 4 then portEnable s p
  else s

/-- A port whose domain is to be reset gives its traffic to failover first (Table 17-4). -/
def portFall (s : State) (p : Nat) : State := if (s.dom (5 * 256 + p)).due != 0 then portDisable s p else s

/-- Ports of the package. -/
def okPort (p : Nat) : Bool := decide (p < 34)

/-- WIN_PCTRL_RETRAIN. -/
def execWinPctrlRetrain (p : Nat) (s : State) : Host.Outcome State Fault Refusal := answer s (okPort p) (whenOpen s (rCtrl p) (settle (startShutter s p 3)))
/-- WIN_PCTRL_REPLACE_LANE: the physical lane named is replaced as R408 states. -/
def execWinPctrlReplaceLane (p lane : Nat) (s : State) : Host.Outcome State Fault Refusal :=
  answer s (okPort p) (whenOpen s (rCtrl p) (settle (replaceLane s p lane)))
/-- WIN_PCTRL_DISABLE. -/
def execWinPctrlDisable (p : Nat) (s : State) : Host.Outcome State Fault Refusal := answer s (okPort p) (whenOpen s (rCtrl p) (settle (portDisable s p)))
/-- WIN_PCTRL_ENABLE. -/
def execWinPctrlEnable (p : Nat) (s : State) : Host.Outcome State Fault Refusal := answer s (okPort p) (whenOpen s (rCtrl p) (settle (portEnable s p)))
/-- LIGHT_DETECTED. -/
def execLightDetected (p lanes : Nat) (s : State) : Host.Outcome State Fault Refusal := answer s (okPort p) (lightDetected s p lanes)
/-- DARK_RETRY. -/
def execDarkRetry (p : Nat) (s : State) : Host.Outcome State Fault Refusal := answer s (okPort p) (darkRetry s p)
/-- RINGS_TUNED. -/
def execRingsTuned (p : Nat) (s : State) : Host.Outcome State Fault Refusal := answer s (okPort p) (ringsTuned s p)
/-- CLOCK_LOCK. -/
def execClockLock (p lanes : Nat) (s : State) : Host.Outcome State Fault Refusal := answer s (okPort p) (clockLock s p lanes)
/-- LOCK_TIMEOUT. -/
def execLockTimeout (p : Nat) (s : State) : Host.Outcome State Fault Refusal := answer s (okPort p) (lockTimeout s p)
/-- TRAINING_WORD: the word arrives on a physical lane; its own PLANE field says which. -/
def execTrainingWord (p _lane w : Nat) (s : State) : Host.Outcome State Fault Refusal := answer s (okPort p) (trainingWord s p w)
/-- CODEWORD. -/
def execCodeword (p : Nat) (errs : List (Nat × Nat)) (s : State) : Host.Outcome State Fault Refusal :=
  answer s (okPort p) (settle (portFall (codeword s p errs) p))
/-- REPLAY_TIMEOUT. -/
def execReplayTimeout (p : Nat) (s : State) : Host.Outcome State Fault Refusal := answer s (okPort p) (settle (replayTimeout s p))
/-- LANE_FAULT. -/
def execLaneFault (p lane : Nat) (lost : Bool) (s : State) : Host.Outcome State Fault Refusal :=
  answer s (okPort p) (settle (portFall (laneFault s p lane lost) p))
/-- LIGHT_LOST. -/
def execLightLost (p lanes : Nat) (s : State) : Host.Outcome State Fault Refusal := answer s (okPort p) (settle (lightLost s p lanes))
/-- DRAIN_DONE. -/
def execDrainDone (p : Nat) (s : State) : Host.Outcome State Fault Refusal := answer s (okPort p) (settle (drainDone s p))
/-- DRAIN_TIMEOUT. -/
def execDrainTimeout (p : Nat) (s : State) : Host.Outcome State Fault Refusal := answer s (okPort p) (settle (drainTimeout s p))
/-- FLOW_RELEASE. -/
def execFlowRelease (b : Nat) (s : State) : Host.Outcome State Fault Refusal := answer s (okBay b) (settle (flowRelease s b))
/-- FAILOVER: the oldest FAILOVER that arrived by the port. -/
def execFailover (p : Nat) (s : State) : Host.Outcome State Fault Refusal :=
  answer s (okPort p) (match (s.port p).failIn with
    | [] => s
    | m :: ms => settle (failoverIn (s.modPort p (fun x => { x with failIn := ms })) p m))

end Sys2Proof.Machine
end

