-- ==== Sys2Proof/Machine/Accum.lean ====
section
/-! DEFINITION. The transom chain (R131 to R137, R143 to R146): chain records, the step of a position, and the landing of a
record at its successor. -/

namespace Sys2Proof.Machine

open Sys2Proof

/-! ### Records (R133, R134) -/

/-- Bytes of a record element of a kind (Table 4-8). -/
def chainElem (kind : Nat) : Nat := if kind ≤ 1 then 4 else if kind ≤ 3 then 80 else 16

/-- Is it a sum kind? -/
def chainSum (kind : Nat) : Bool := decide (kind ≤ 3)

/-- A length padded to 64 bytes. -/
def pad64 (n : Nat) : Nat := (n + 63) / 64 * 64

/-- Bytes of a record with `n` entries. -/
def recordLen (kind nelem n : Nat) : Nat :=
  64 + (if chainSum kind then pad64 (2 * nelem) else 0) + n * pad64 (chainElem kind * nelem)

/-- A chain record: positions combined, class, kind, elements, the exponent codes, and the entries by level. -/
structure ChainRec where
  pos : Nat
  cls : Nat
  kind : Nat
  nelem : Nat
  srcctx : Nat
  codes : List Nat
  entries : List (Nat × List Nat)
deriving DecidableEq, Repr

/-- Zero padding up to a multiple of 64 bytes. -/
def padTo64 (bs : List Byte) : List Byte := bs ++ List.replicate (pad64 bs.length - bs.length) 0

/-- The LVLMASK that R134 gives for a class, a kind and a count of positions. -/
def levelMask (cls kind pos : Nat) : Nat := if cls = 1 ∧ kind ≤ 1 then pos else 1

/-- The bytes of a record (Table 4-9). -/
def ChainRec.toBytes (r : ChainRec) : List Byte :=
  leBytes 4 (r.pos + r.cls * 2 ^ 24 + r.kind * 2 ^ 26) ++ leBytes 4 ((r.entries.map (fun e => 2 ^ e.1)).foldl (· + ·) 0)
    ++ leBytes 4 r.nelem ++ leBytes 4 r.srcctx ++ leBytes 48 0
    ++ (if chainSum r.kind then padTo64 ((r.codes.map (leBytes 2)).flatten) else [])
    ++ r.entries.flatMap (fun e => padTo64 ((e.2.map (leBytes (chainElem r.kind))).flatten))

/-- Elements of a byte string. -/
def elemsOf (w n : Nat) (bs : List Byte) : List Nat := (List.range n).map (fun k => field bs (w * k) w)

/-! ### Nodes (R123, R131) -/

/-- The winner of a max or min of two (value, index) elements (R131). -/
def winner (kind x y : Nat) : Nat :=
  let v := fun (z : Nat) => z % 2 ^ 32
  let ix := fun (z : Nat) => z / 2 ^ 64
  let first := if ix x ≤ ix y then x else y
  if kind ≤ 5 then
    let a := f32 (v x)
    let b := f32 (v y)
    let nan := fun (z : Nat) => fnan fp32 + ix z * 2 ^ 64
    if a = .nan then (if b = .nan then nan first else nan x)
    else if b = .nan then nan y
    else if FV.lt a b then (if kind = 4 then y else x)
    else if FV.lt b a then (if kind = 4 then x else y)
    else first
  else
    let a := toSigned 32 (v x)
    let b := toSigned 32 (v y)
    if a < b then (if kind = 6 then y else x) else if b < a then (if kind = 6 then x else y) else first

/-- node(x, y) of a chain kind, and whether it saturated. -/
def chainNode (kind x y : Nat) : Nat × Bool :=
  if kind ≤ 1 then nodeNorm (kind == 1) x y
  else if kind ≤ 3 then
    let r := LongEl.add (LongEl.ofBits x) (LongEl.ofBits y)
    (r.1.toBits, r.2)
  else (winner kind x y, false)

/-- The exponent code of an element of a sum kind. -/
def chainCode (kind x : Nat) : Nat :=
  if kind ≤ 1 then expCode (normFin (kind == 1) x) (normDy (kind == 1) x)
  else expCode ((LongEl.ofBits x).spec == 0) ⟨(LongEl.ofBits x).v, -316⟩

/-- What a step has formed so far: exponent codes and saturated element nodes. -/
structure StepAcc where
  codes : List Nat
  sats : Nat
deriving DecidableEq, Repr

/-- Raise the exponent codes to cover elements. -/
def StepAcc.cover (a : StepAcc) (kind : Nat) (es : List Nat) : StepAcc :=
  { a with codes := (a.codes.zip es).map (fun x => max x.1 (chainCode kind x.2)) }

/-- A node over all elements. -/
def StepAcc.node (a : StepAcc) (kind : Nat) (xs ys : List Nat) : List Nat × StepAcc :=
  let rs := (xs.zip ys).map (fun p => chainNode kind p.1 p.2)
  let out := rs.map (·.1)
  (out, { StepAcc.cover a kind out with sats := a.sats + (rs.filter (·.2)).length })

/-- Carry `x` up the levels that are present, from level `l` (class S). -/
def carry (kind : Nat) : Nat → Nat → List Nat → List (Nat × List Nat) → StepAcc → List (Nat × List Nat) × StepAcc
  | 0, _, _, es, a => (es, a)
  | fuel + 1, l, x, es, a =>
    match es.find? (fun e => e.1 == l) with
    | none => ((l, x) :: es, a)
    | some e =>
      let (y, a) := a.node kind e.2 x
      carry kind fuel (l + 1) y (es.filter (fun d => d.1 != l)) a

/-- The step of R135 on the entries. -/
def stepEntries (cls kind : Nat) (es : List (Nat × List Nat)) (own : List Nat) (a : StepAcc) : List (Nat × List Nat) × StepAcc :=
  let a := a.cover kind own
  if cls = 1 ∧ kind ≤ 1 then carry kind 25 0 own es a
  else match es with
    | [] => ([(0, own)], a)
    | e :: _ =>
      let (y, a) := a.node kind e.2 own
      ([(0, y)], a)

/-- finish(rec): the entries from level 0 upward. -/
def finishRec (kind : Nat) (es : List (Nat × List Nat)) (a : StepAcc) : List Nat × StepAcc :=
  match es with
  | [] => ([], a)
  | e :: rest => rest.foldl (fun (r : List Nat × StepAcc) (d : Nat × List Nat) => r.2.node kind d.2 r.1) (e.2, a)

/-- Entries in ascending level. -/
def sortEntries (es : List (Nat × List Nat)) : List (Nat × List Nat) :=
  (List.range 25).filterMap (fun l => es.find? (fun e => e.1 == l))

/-! ### CHSTEP (R132, R135) -/

/-- The row of CHSTEP. -/
def chstepRow : CmdRow := { eng := 6, op := 0x20, len := 48, lenCode := 0x36, opCode := 0x01, immCode := some 0x36 }

/-- Read and check the incoming record (R135, items 5 to 7). -/
def readRecord (i inaddr posn cls kind nelem acct : Nat) (long : Bool) : Mc ChainRec := do
  let bad := fun (p : Bool) => if p then accFault i 0x34 acct long true else (pure () : Mc Unit)
  let h ← spRead i 6 inaddr 64
  bad (bits (field h 0 4) 31 30 != 0 || bits (field h 4 4) 31 24 != 0 || bits (field h 8 4) 31 13 != 0
    || bits (field h 12 4) 31 16 != 0 || field h 16 48 != 0)
  failIf (bits (field h 0 4) 25 24 != cls) 0x08
  let mask := field h 4 4 % 2 ^ 24
  let lvls := setBitsOf 24 mask
  bad (field h 0 4 % 2 ^ 24 != posn || bits (field h 0 4) 29 26 != kind || bits (field h 8 4) 12 0 != nelem
    || mask != levelMask cls kind posn)
  let body ← spRead i 6 (inaddr + 64) (recordLen kind nelem lvls.length - 64)
  let w := chainElem kind
  let mapLen := if chainSum kind then pad64 (2 * nelem) else 0
  pure { pos := posn, cls, kind, nelem, srcctx := field h 12 2, codes := elemsOf 2 nelem body,
         entries := (lvls.zipIdx).map (fun x => (x.1, elemsOf w nelem (body.drop (mapLen + x.2 * pad64 (w * nelem))))) }

/-- Send a chain record to its successor: in another bay of this device in the write class of the XE's lintel-port slots (R137), on
another device as one CHREC on virtual channel 2, with no route 0xB0. A record for another device that exceeds the 4,096 bytes of a
message body is lost and logged (log entry 26, DESIGN CHOICE). -/
def sendRecord (i task cls dpane dchip daddr dsync dctx : Nat) (bs : List Byte) : Mc Unit := do
  let s ← get
  let b := bayOf i
  let body := leBytes 1 dpane ++ leBytes 1 0 ++ leBytes 2 dsync ++ leBytes 4 daddr ++ bs
  let m := mkMsg 0x0B cls dchip (dpane / 8) s.chip b dctx 0 0x7F 6 0 body
  if dchip = s.chip then
    if dpane / 8 = b then set (s.modXe b (fun x => { x with chain := x.chain ++ [(task, m)] }))
    else set (pushAcc s { parcelOut b (.chain task m) bs.length with cls := 1, dst := dpane / 8 })
  else if 4096 < body.length then set (logE s 0x07 2 b daddr (detail 0 dctx) 0x0B)
  else if ← sendRouted b 2 m then pure () else fault 0xB0

/-- Bytes of a chain step's record at a position, by its command, and of its result. -/
def stepRecord (cls kind nelem pos : Nat) : Nat := recordLen kind nelem (popcount 25 (levelMask cls kind pos))
def stepResult (kind rfmt nelem : Nat) : Nat := if chainSum kind then (nelem * fmtBits rfmt + 7) / 8 else 16 * nelem

/-- The body of a CHSTEP: its own checks, its claims, then those of R135 in their order. A fault with OWNACC = 0 shows tile 0, and a
claim is tested for tile ACCT mod 8 when LONG = 1. A predicted tile may not be read (R109). Log entry 119, DESIGN CHOICE. Log entry 130, DESIGN CHOICE. Log entry 131, DESIGN CHOICE. -/
def chstepBody (i c : Nat) : Mc Bool := do
  let own := cbits c 8 23 0
  let ownacc := cbits c 8 24 24 == 1
  let first := cbits c 8 25 25 == 1
  let last := cbits c 8 26 26 == 1
  let inaddr := cbits c 12 23 0
  let nelem := cbits c 16 12 0
  let kind := cbits c 16 19 16
  let rfmt := cbits c 16 23 20
  let out := cbits c 20 23 0
  let posn := cbits c 24 23 0
  let (acct, long) := chTile c
  let bad := fun (p : Bool) (code : Nat) => if p then accFault i code acct long true else (pure () : Mc Unit)
  bad (cbits c 8 31 27 != 0 || (ownacc && own / 256 != 0) || cbits c 12 31 24 != 0 || cbits c 16 15 13 != 0
    || cbits c 16 31 24 != 0 || cbits c 20 31 24 != 0 || cbits c 24 31 24 != 0 || cbits c 28 7 7 != 0 || cbits c 28 31 20 != 0
    || cbits c 32 31 24 != 0 || cbytes c 40 8 != 0) 0x36
  bad (decide (8 ≤ kind) || nelem == 0 || decide (4096 < nelem) || (ownacc && nelem != 4096) || (!ownacc && own % 64 != 0)
    || (!first && inaddr % 64 != 0) || out % 64 != 0 || (last && chainSum kind && decide (8 ≤ rfmt))) 0x36
  let t ← curTask i
  let w := chainElem kind
  failIf ((if ownacc then !tileClaimed t acct long else !inClaim t own (w * nelem))
    || (!first && !inClaim t inaddr (stepRecord t.dclass kind nelem posn))
    || !inClaim t out (if last then stepResult kind rfmt nelem else stepRecord t.dclass kind nelem (if first then 1 else posn + 1))) 0x06
  bad (first && posn != 0) 0x34
  failIf (t.dclass == 2 && decide (kind ≤ 1)) 0x08
  let s ← get
  let f := tileFlags (s.pane i) acct long
  bad (ownacc && (f.kind != kind || f.inprog || long != decide (2 ≤ kind))) 0x32
  failIf (ownacc && f.pred) 0x25
  let ownEs ← if ownacc then readTile i 6 acct long else (do
    let bs ← spRead i 6 own (w * nelem)
    pure (elemsOf w nelem bs))
  let rec0 ← if first then
      pure { pos := 0, cls := t.dclass, kind, nelem, srcctx := t.ctx, codes := List.replicate nelem 0, entries := [] }
    else readRecord i inaddr posn t.dclass kind nelem acct long
  bad (decide (2 ^ 24 ≤ rec0.pos + 1)) 0x35
  let (es, a) := stepEntries t.dclass kind rec0.entries ownEs { codes := rec0.codes, sats := 0 }
  let es := sortEntries es
  if last then
    let (r, a) := finishRec kind es a
    let res := if chainSum kind then
        packElems (fmtBits rfmt) (r.map (fun x => (convert rfmt true false 0 (elemVal kind (decide (2 ≤ kind)) x)).out))
      else (r.map (leBytes 16)).flatten
    spWrite i 6 out res
    let fails := (r.zip a.codes).filter (fun x =>
      if kind ≤ 1 then normFin (kind == 1) x.1 && cancels (normDy (kind == 1) x.1) x.2
      else (LongEl.ofBits x.1).spec == 0 && cancels ⟨(LongEl.ofBits x.1).v, -316⟩ x.2)
    cnt i 0x234 (if chainSum kind then fails.length else 0)
    cnt i 0x238 a.sats
    pure true
  else
    let r : ChainRec := { rec0 with pos := rec0.pos + 1, srcctx := t.ctx, codes := a.codes, entries := es }
    spWrite i 6 out r.toBytes
    cnt i 0x238 a.sats
    sendRecord i t.id t.dclass (cbits c 28 6 0) (cbits c 28 19 8) (cbits c 32 23 0) (cbytes c 36 2) (cbytes c 38 2) r.toBytes
    pure true

/-- CHSTEP combines the pane's own partial with the incoming record and sends or writes the result. -/
def execChstep (i c : Nat) (s : State) : Host.Outcome State Fault Refusal :=
  answer s (okPane i) (runCmd s i c chstepRow (fun _ => false) (chstepBody i c))

/-! ### Landing (R136, R419) -/

/-- Where a context's region of a pane number is: resident in the scratchpad, or in the save area of a task that is switched
out. Log entry 44, DEDUCED. -/
def regionHome (s : State) (i pn ctx k : Nat) : Option Bool :=
  if regOwner (s.pane i) k = ctx then some true
  else if s.tasks.any (fun t => t.ctx == ctx && t.saved.isSome && t.ranOn == some pn && (claimRegions t).contains k) then some false
  else none

/-- Pieces of a range that lie in one region each. -/
def regionPieces : Nat → Nat → Nat → List (Nat × Nat)
  | 0, _, _ => []
  | fuel + 1, a, n =>
    if n = 0 then []
    else
      let k := min n (0x10000 - a % 0x10000)
      (a, k) :: regionPieces fuel (a + k) (n - k)

/-- The pieces of a record's place, each in one region, and whether it is resident; none when the context does not own them all on the
pane number. No region is of context 0x0000 or 0xFFFF (R37). -/
def landPieces (s : State) (i pn ctx addr n : Nat) : Option (List (Nat × Nat × Bool)) :=
  if ctx = 0 ∨ ctx = 0xFFFF ∨ 0xC00000 < addr + n then none
  else (regionPieces (n / 0x10000 + 2) addr n).mapM (fun p => (regionHome s i pn ctx (p.1 / 0x10000)).map (fun r => (p.1, p.2, r)))

/-- Land bytes within the regions a context owns on a pane number: what lies in its save area is translated, posted and waited for,
then what is resident is written. Answers whether all of it has landed. Log entry 44, DEDUCED. -/
def landBytes (w : Who) (i pn ctx addr : Nat) (bs : List Byte) : Mc Bool := do
  let s ← get
  match landPieces s i pn ctx addr bs.length with
  | none => fault 0x93
  | some ps =>
    let va := fun (a : Nat) => saveArea (s.pane i) ctx + 0x201000 + a
    let part := fun (p : Nat × Nat × Bool) => (bs.drop (p.1 - addr)).take p.2.1
    let posted := s.accs.filter (fun a => a.purpose == .fetch w && a.op == .write)
    match ps.filter (fun p => !p.2.2 && !(posted.any (fun a => a.va == va p.1))) with
    | p :: todo =>
      (p :: todo).forM (fun p => vaWrite w (bayOf i) ctx (va p.1) (part p) (.fetch w))
      pure false
    | [] =>
      if posted.any (fun a => a.stage != .got) then pure false
      else
        match posted.findSome? (fun a => a.stop true) with
        | some e => throw e
        | none =>
          modify (fun s => s.modPane i (fun x => (ps.filter (·.2.2)).foldl (fun x p =>
            { x with sp := rawWrite x.sp 0 p.1 (part p), spErr := eccClear x.spErr p.1 p.2.1 }) x))
          pure true

/-- A chain record arrives at its successor: it lands and DSYNC is signalled behind it, or it is discarded and logged; `pop` takes it
from its queue. Log entry 44, DEDUCED. -/
def landRecord (s : State) (b : Nat) (w : Who) (task : Option Nat) (m : List Byte) (pop : State → State) : State :=
  let body := mBody m
  let pn := field body 0 1 % 128
  let ctx := mCtx m
  let gone := fun (s : State) => pop (logE (dropNeeds s w) 0x07 2 b (field body 4 4) (detail 0 ctx) 0x0B)
  match s.instOf pn with
  | none => gone s
  | some i =>
    if s.ctxReset = some ctx then gone s
    else
      match runMc (landBytes w i pn ctx (field body 4 4) (body.drop 8)) s with
      | (.ok true, s) =>
        pop (sendSignal (dropNeeds s w) { obj := field body 2 2, amount := 1, pane := mSpane m, chip := mSchip m, ctx, task,
                                          completes := false, guards := [] })
      | (.ok false, s) => s
      | (.error (.need ns), _) => postNeeds s ns
      | (.error _, s) => gone s

/-- CHAIN_RECORD_LAND: the oldest chain record of this device that has come to the bay. -/
def chainLand (s : State) (b : Nat) : State :=
  match (s.bay b).xe.chain with
  | [] => s
  | (t, m) :: _ => landRecord s b (.bay b (.land false)) (some t) m (fun s => s.modXe b (fun x => { x with chain := x.chain.drop 1 }))

/-- CHAIN_RECORD_LAND. -/
def execChainRecordLand (b : Nat) (s : State) : Host.Outcome State Fault Refusal := answer s (okBay b) (settle (chainLand s b))

/-- The first message of bay `b` from another device with a type, which no earlier message of its flow precedes: the flow is
its source chip, source bay and request or response channel (R411, R419). Log entry 104, DESIGN CHOICE. -/
def takeX (s : State) (b mtype : Nat) : Option (List Byte × State) :=
  match (s.bay b).xe.xin.find? (fun m => mType m == mtype) with
  | none => none
  | some m =>
    let before := (s.bay b).xe.xin.takeWhile (fun x => x != m)
    let chan := fun (t : Nat) => if t = 0x0B then 2 else if t = 4 ∨ t = 5 ∨ t = 6 ∨ t = 8 ∨ t = 0x0A then 1 else 0
    if before.any (fun x => mSchip x == mSchip m && mSbay x == mSbay m && chan (mType x) == chan mtype) then none
    else some (m, s.modXe b (fun x => { x with xin := x.xin.erase m }))

/-- CHREC: a chain record from another device. -/
def chrec (s : State) (b : Nat) : State :=
  match takeX s b 0x0B with
  | none => s
  | some (m, _) => landRecord s b (.bay b (.land true)) none m (fun s => s.modXe b (fun x => { x with xin := x.xin.erase m }))

/-- CHREC. -/
def execChrec (b : Nat) (s : State) : Host.Outcome State Fault Refusal := answer s (okBay b) (settle (chrec s b))

end Sys2Proof.Machine
end

