-- ==== Sys2Proof/Machine/Elem.lean ====
section
/-! DEFINITION. Element operations of the vector engine (R194, R195) and the exponential of SEQSOFT (R177): exact results
rounded once. The exponential and the logarithm are evaluated to more than 200 bits before the one rounding (log entry
13). -/

namespace Sys2Proof.Machine

/-- ln 2 * 2^256, remainder discarded. Log entry 13, UNVERIFIED. -/
def ln2Fix : Nat := 80260960185991308862233904206310070533990667611589946606122867505419956976171

/-- The Taylor sum of e^r for 0 ≤ r < 1 in units of 2^-256: term `t` is the k-th. Log entry 13, UNVERIFIED. -/
def expTaylor (r : Nat) : Nat → Nat → Nat → Nat → Nat
  | 0, _, _, acc => acc
  | n + 1, k, t, acc => expTaylor r n (k + 1) (t * r / 2 ^ 256 / k) (acc + t)

/-- e^a, with a sticky bit below. Log entry 13, UNVERIFIED. -/
def FV.exp : FV → FV
  | .nan => .nan
  | .inf neg => if neg then .fin false 0 0 else .inf false
  | .fin neg m e =>
    if m = 0 then .fin false 1 0
    else
      let d := FV.dy (.fin neg m e)
      if 8 ≤ d.exp then (if neg then .fin false 1 (-400) else .fin false 1 400)
      else
        let x : Int := if 0 ≤ e + 256 then d.v * pow2 (e + 256) else d.v / pow2 (-(e + 256))
        let k : Int := x / ln2Fix
        let r := (x - k * ln2Fix).toNat
        .fin false (2 * expTaylor r 70 1 (2 ^ 256) 0 + 1) (k - 257)

/-- The sum of z^(2n+1) / (2n+1) in units of 2^-256. Log entry 13, UNVERIFIED. -/
def logSeries (z2 : Nat) : Nat → Nat → Nat → Nat → Nat
  | 0, _, _, acc => acc
  | n + 1, k, t, acc => logSeries z2 n (k + 2) (t * z2 / 2 ^ 256) (acc + t / k)

/-- The natural logarithm, with a sticky bit below. Log entry 13, UNVERIFIED. -/
def FV.log : FV → FV
  | .nan => .nan
  | .inf neg => if neg then .nan else .inf false
  | .fin neg m e =>
    if m = 0 then .inf true
    else if neg then .nan
    else
      let k := Nat.log2 m
      let f := m * 2 ^ 256 / 2 ^ k
      let ex : Int := e + k
      if f = 2 ^ 256 ∧ ex = 0 then .fin false 0 0
      else
        let z := (f - 2 ^ 256) * 2 ^ 256 / (f + 2 ^ 256)
        let l : Int := ex * ln2Fix + 2 * (logSeries (z * z / 2 ^ 256) 90 1 z 0 : Nat)
        .fin (decide (l < 0)) (2 * l.natAbs + 1) (-257)

/-- 1 / √a, with a sticky bit below. Log entry 13, UNVERIFIED. -/
def FV.rsqrt : FV → FV
  | .nan => .nan
  | .inf neg => if neg then .nan else .fin false 0 0
  | .fin neg m e =>
    if m = 0 then .inf neg
    else if neg then .nan
    else
      let (m, e) := if e % 2 = 0 then (m, e) else (2 * m, e - 1)
      let k := 100 + Nat.log2 m
      let r := Nat.sqrt (2 ^ (2 * k) / m)
      .fin false (2 * r + (if r * r * m = 2 ^ (2 * k) then 0 else 1)) (-(e / 2) - k - 1)

/-- Is the value -0? -/
def FV.negZero : FV → Bool
  | .fin true 0 _ => true
  | _ => false

/-- IEEE sum: two negative zeros give -0. -/
def FV.sum (a b : FV) : FV := if a.negZero && b.negZero then .fin true 0 0 else FV.add a b

/-- FP32 bits of a stage result: one rounding, infinity on overflow, the canonical NaN. -/
def roundF32 (v : FV) : Nat := (fround fp32 false v).1

/-- The larger, or the smaller, of two values under R131, values only. -/
def pickMax (big : Bool) (x y : Nat) : Nat :=
  let a := f32 x
  let b := f32 y
  if a = .nan ∨ b = .nan then fnan fp32
  else if FV.lt a b then (if big then y else x)
  else if FV.lt b a then (if big then x else y)
  else x

/-- A stage in the FP32 domain (Table 6-6); `sb` is the SB field, the format of RND. -/
def stageF (op sb a b c : Nat) : Nat :=
  let x := f32 a
  let y := f32 b
  let one := 0x3F800000
  if op = 0x00 then roundF32 x
  else if op = 0x01 then roundF32 (FV.sum x y)
  else if op = 0x02 then roundF32 (FV.sum x y.neg)
  else if op = 0x03 then roundF32 (FV.mul x y)
  else if op = 0x04 then roundF32 (FV.sum (FV.mul x y) (f32 c))
  else if op = 0x05 then pickMax true a b
  else if op = 0x06 then pickMax false a b
  else if op = 0x07 then (if x = .nan then fnan fp32 else a % 2 ^ 31)
  else if op = 0x08 then roundF32 x.neg
  else if op = 0x09 then (if x = .nan then fnan fp32 else if 2 ^ 31 ≤ a then 0 else a)
  else if op = 0x0A then (if FV.lt x y then one else 0)
  else if op = 0x0B then (if x != .nan && y != .nan && !(FV.lt x y) && !(FV.lt y x) then one else 0)
  else if op = 0x0C then roundF32 (if x.isZero then f32 c else y)
  else if op = 0x0D then roundF32 (FV.div x y)
  else if op = 0x0E then roundF32 (FV.sqrt x)
  else if op = 0x0F then roundF32 (FV.rsqrt x)
  else if op = 0x10 then roundF32 (FV.div (f32 one) x)
  else if op = 0x11 then roundF32 (FV.exp x)
  else if op = 0x12 then roundF32 (FV.log x)
  else roundF32 (fdecode (fmtOf sb) (fround (fmtOf sb) false x).1)

/-- Clamp to INT32; the flag says that it clamped. -/
def clamp32 (x : Int) : Int × Bool := (max (-(2 ^ 31)) (min (2 ^ 31 - 1) x), decide (x < -(2 ^ 31) ∨ 2 ^ 31 - 1 < x))

/-- A stage in the INT32 domain and whether it clamped. -/
def stageI (op : Nat) (a b c : Int) : Int × Bool :=
  let u := fun (x : Int) => ofSigned 32 x
  let sh := u b % 32
  let ok := fun (n : Nat) => (toSigned 32 n, false)
  if op = 0x00 then (a, false)
  else if op = 0x01 then clamp32 (a + b)
  else if op = 0x02 then clamp32 (a - b)
  else if op = 0x03 then clamp32 (a * b)
  else if op = 0x04 then clamp32 (a * b + c)
  else if op = 0x05 then (max a b, false)
  else if op = 0x06 then (min a b, false)
  else if op = 0x07 then clamp32 a.natAbs
  else if op = 0x08 then clamp32 (-a)
  else if op = 0x09 then (max a 0, false)
  else if op = 0x0A then (if a < b then 1 else 0, false)
  else if op = 0x0B then (if a = b then 1 else 0, false)
  else if op = 0x0C then (if a = 0 then c else b, false)
  else if op = 0x0D then (if b = 0 then (0, false) else clamp32 (Int.tdiv a b))
  else if op = 0x14 then ok (Nat.land (u a) (u b))
  else if op = 0x15 then ok (Nat.lor (u a) (u b))
  else if op = 0x16 then ok (Nat.xor (u a) (u b))
  else if op = 0x17 then ok (u a * 2 ^ sh % 2 ^ 32)
  else if op = 0x18 then (a / (2 ^ sh : Nat), false)
  else ok (u a / 2 ^ sh)

end Sys2Proof.Machine
end

