-- ==== Sys2Proof/Machine/Vec.lean ====
section
/-! DEFINITION. The vector engine (R185 to R216): SASH, REDUCE and TABULATE. -/

namespace Sys2Proof.Machine

open Sys2Proof

/-! ### Sums over lists (R122, R202) -/

/-- The value, the largest exponent code and the saturating nodes of a sum. -/
structure SumOut where
  v : Nat
  top : Nat
  sats : Nat
deriving DecidableEq, Repr

/-- A leaf of a sum. -/
def sumLeaf (int : Bool) (x : Nat) : SumOut := ⟨x, expCode (normFin int x) (normDy int x), 0⟩

/-- A node over two sums. -/
def sumNode (int : Bool) (a b : SumOut) : SumOut :=
  let r := nodeNorm int a.v b.v
  ⟨r.1, max (max a.top b.top) (expCode (normFin int r.1) (normDy int r.1)), a.sats + b.sats + b2n r.2⟩

/-- The tree of R122 over a list of leaves; an empty list gives +0. -/
def treeSum (int : Bool) : Nat → List Nat → SumOut
  | 0, _ => ⟨0, 0, 0⟩
  | fuel + 1, xs =>
    match xs with
    | [] => ⟨0, 0, 0⟩
    | [x] => sumLeaf int x
    | _ =>
      let h := (xs.length + 1) / 2
      sumNode int (treeSum int fuel (xs.take h)) (treeSum int fuel (xs.drop h))

/-- A running sum in list order. -/
def runSum (int : Bool) (xs : List SumOut) : SumOut :=
  match xs with
  | [] => ⟨0, 0, 0⟩
  | x :: rest => rest.foldl (sumNode int) x

/-- Runs of 128 values. -/
def runs128 (xs : List Nat) : List (List Nat) :=
  (List.range ((xs.length + 127) / 128)).map (fun k => (xs.drop (128 * k)).take 128)

/-- An exact sum of long elements and the largest exponent code of its leaves. -/
def longSum (xs : List LongEl) : LongEl × Nat × Nat :=
  xs.foldl (fun (a : LongEl × Nat × Nat) x =>
    let r := LongEl.add a.1 x
    (r.1, max a.2.1 (expCode (x.spec == 0) ⟨x.v, -316⟩), a.2.2 + b2n r.2)) (⟨0, 0⟩, 0, 0)

/-! ### Shapes and descriptors (R187 to R190) -/

/-- A tensor descriptor (Table 6-2). -/
structure VDesc where
  addr : Nat
  fmt : Nat
  bc : Nat
  uns : Bool
  s1 : Nat
  s2 : Nat
  s3 : Nat
  rsv : Bool
deriving DecidableEq, Repr

/-- The descriptor at a byte of a command. -/
def vdesc (c off : Nat) : VDesc :=
  { addr := cbits c off 23 0, fmt := cbits c off 27 24, bc := cbits c off 29 28, uns := cbits c off 30 30 == 1,
    s1 := cbits c (off + 4) 23 0, s2 := cbits c (off + 8) 23 0, s3 := cbits c (off + 12) 23 0,
    rsv := cbits c off 31 31 != 0 || cbits c (off + 4) 31 24 != 0 || cbits c (off + 8) 31 24 != 0 || cbits c (off + 12) 31 24 != 0 }

/-- A position of a shape. -/
structure VPos where
  i0 : Nat
  i1 : Nat
  i2 : Nat
  i3 : Nat
deriving DecidableEq, Repr

/-- Bit address of the element used at a position (Table 6-3). -/
def VDesc.bit (d : VDesc) (p : VPos) : Nat :=
  let lin := if d.bc ≤ 1 then p.i0 else if d.bc = 2 then p.i1 else 0
  (d.addr + (if d.bc = 0 then p.i1 * d.s1 else 0) + p.i2 * d.s2 + p.i3 * d.s3) * 8 + lin * fmtBits d.fmt

/-- First byte and number of bytes of that element. -/
def VDesc.bytes (d : VDesc) (p : VPos) : Nat × Nat := (d.bit p / 8, (fmtBits d.fmt + 7) / 8)

/-- Does a descriptor break R188 for a shape's N0 and N1? -/
def VDesc.bad (d : VDesc) (n0 n1 : Nat) (out : Bool) : Bool :=
  let w := fmtBits d.fmt
  decide (8 ≤ d.fmt) || (d.uns && d.fmt != 5 && d.fmt != 6) || d.addr % max (w / 8) 1 != 0
    || (d.bc == 1 && decide (65536 * 8 < n0 * w)) || (d.bc == 2 && decide (65536 * 8 < n1 * w))
    || (d.fmt == 6 && ((decide (d.bc ≤ 1) && n0 % 2 == 1) || (d.bc == 2 && n1 % 2 == 1)))
    || (out && d.bc != 0)

/-- Read an element's bits from the scratchpad, as they stood in `q` when the command started: what it writes meanwhile changes no
element that it has still to read, but where the manual leaves the result open (R190). -/
def readElem (i : Nat) (q : Pane) (d : VDesc) (p : VPos) : Mc Nat := do
  let (a, n) := d.bytes p
  let _ ← spRead i 2 a n
  pure (leNat (eccBytes q.sp q.spErr a n) / 2 ^ (d.bit p % 8) % 2 ^ fmtBits d.fmt)

/-- Would an access of the vector engine fault: outside the claim, in a bank where it holds no slot, or, as a read, with an
uncorrectable word (R200)? -/
def wouldFault (p : Pane) (t : Task) (a n : Nat) (rd : Bool) : Bool :=
  !inClaim t a n || (banksIn a n).any (fun k => !holdsLocal p k 2)
    || rd && (readWords 2 a n).any (fun w => tget 0 p.spErr w != 0 && (eccRead (tget 0 p.spErr w)).isNone)

/-- Free bits in place of a result that the manual leaves open. -/
def freeResult (n v : Nat) (isFree : Bool) : Mc Nat := do
  if isFree then
    let (fs, s) := (← get).freeBytes n
    set s
    pure (leNat fs)
  else pure v

/-- Write `w` bits at a bit address of the scratchpad; the rest of the byte is kept. -/
def pokeBits (p : Pane) (bitAddr w v : Nat) : Pane :=
  let a := bitAddr / 8
  let n := (w + 7) / 8
  let old := leNat (rawRead p.sp 0 a n)
  let lo := bitAddr % 8
  { p with
    sp := rawWrite p.sp 0 a (leBytes n (setBits old (lo + w - 1) lo v))
    spErr := eccClear p.spErr a n }

/-- Write an element within the claim and the engine's bank slots. -/
def writeElem (i : Nat) (d : VDesc) (p : VPos) (v : Nat) : Mc Unit := do
  let (a, n) := d.bytes p
  spUse i 2 a n
  modify (fun s => s.modPane i (fun q => pokeBits q (d.bit p) (fmtBits d.fmt) v))

/-- The row of a vector-engine command. -/
def vecRow (op len : Nat) (imm : Option Nat) : CmdRow := { eng := 2, op, len, lenCode := 0x50, opCode := 0x50, immCode := imm }

/-! ### SASH (R191 to R200) -/

/-- Sources an operation uses. -/
def stageArity (op : Nat) : Nat :=
  if op = 0x04 ∨ op = 0x0C then 3
  else if op = 0x00 ∨ (0x07 ≤ op ∧ op ≤ 0x09) ∨ (0x0E ≤ op ∧ op ≤ 0x13) then 1 else 2

/-- Does a stage word break R192? -/
def badStage (dom imm : Bool) (k w : Nat) : Bool :=
  let op := bits w 5 0
  let sa := bits w 9 6
  let sb := bits w 13 10
  let sc := bits w 17 14
  let n := stageArity op
  let src := fun x => x == 7 || decide (12 ≤ x) || (x == 0 && k == 0) || (decide (8 ≤ x) && !imm)
  decide (0x19 < op) || (dom && decide (0x0E ≤ op ∧ op ≤ 0x13)) || (!dom && decide (0x14 ≤ op)) || bits w 31 18 != 0
    || src sa
    || (if op == 0x13 then decide (4 < sb) else if 2 ≤ n then src sb else sb != 0)
    || (if 3 ≤ n then src sc else sc != 0)

/-- Inputs 1 to 3 that the stages name. -/
def namedInputs (ws : List Nat) : List Nat :=
  [1, 2, 3].filter (fun x => ws.any (fun w =>
    let n := stageArity (bits w 5 0)
    bits w 9 6 == x || (decide (2 ≤ n) && bits w 13 10 == x) || (decide (3 ≤ n) && bits w 17 14 == x)))

/-- An input element in the domain: FP32 bits, or an integer. -/
def toDomain (dom : Bool) (d : VDesc) (x : Nat) : Int :=
  if dom then intDecode d.fmt d.uns x
  else if d.fmt ≤ 4 then (roundF32 (fdecode (fmtOf d.fmt) x) : Nat)
  else (roundF32 (Dy.fv ⟨intDecode d.fmt d.uns x, 0⟩) : Nat)

/-- The stages of an element: the last V and the clamps. -/
def runStages (dom : Bool) (ws : List Nat) (ins imms : Nat → Int) (i0 : Nat) : Int × Nat :=
  ws.foldl (fun (v : Int × Nat) w =>
    let src := fun (x : Nat) => if x = 0 then v.1 else if x ≤ 3 then ins x else if x = 4 then 0
      else if x = 5 then (if dom then 1 else 0x3F800000)
      else if x = 6 then (if dom then (i0 : Int) else (roundF32 (Dy.fv ⟨i0, 0⟩) : Nat))
      else imms (x - 8)
    let op := bits w 5 0
    if dom then
      let r := stageI op (src (bits w 9 6)) (src (bits w 13 10)) (src (bits w 17 14))
      (r.1, v.2 + b2n r.2)
    else
      ((stageF op (bits w 13 10) (src (bits w 9 6)).toNat (src (bits w 13 10)).toNat (src (bits w 17 14)).toNat : Nat), v.2)) (0, 0)

/-- Rows of a shape: (i1, i2, i3). -/
def rowsOf (n1 n2 n3 : Nat) : List (Nat × Nat × Nat) :=
  (List.range n3).flatMap (fun i3 => (List.range n2).flatMap (fun i2 => (List.range n1).map (fun i1 => (i1, i2, i3))))

/-- The body of a SASH: its checks in the order of R580, then row by row (R189, R199, R200). -/
def sashBody (i c : Nat) : Mc Bool := do
  let n0 := cbits c 8 15 0
  let n1 := cbits c 8 31 16
  let n2 := cbits c 12 15 0
  let n3 := cbits c 12 31 16
  let ns := cbits c 16 2 0 + 1
  let dom := cbits c 16 3 3 == 1
  let sat := cbits c 16 4 4 == 1
  let maddr := cbits c 20 23 0
  let men := cbits c 20 24 24 == 1
  let mstride := cbits c 24 23 0
  let ws := (List.range ns).map (fun k => cbytes c (96 + 4 * k) 4)
  let named := namedInputs ws
  let din := fun x => vdesc c (16 + 16 * x)
  let out := vdesc c 80
  failIf (cbits c 16 31 5 != 0 || cbits c 20 31 25 != 0 || cbits c 24 31 24 != 0 || cbytes c 28 4 != 0 || out.rsv
    || named.any (fun x => (din x).rsv)) 0x50
  failIf (n0 == 0 || n1 == 0 || n2 == 0 || n3 == 0) 0x51
  failIf (out.bad n0 n1 true || named.any (fun x => (din x).bad n0 n1 false)) 0x52
  match (ws.zipIdx).find? (fun x => badStage dom (hImm c) x.2 x.1) with
  | some x => throw (.flt { code := 0x53, pos := x.2 })
  | none => pure ()
  failIf (dom && named.any (fun x => decide ((din x).fmt ≤ 4))) 0x52
  let t ← curTask i
  let rows := rowsOf n1 n2 n3
  let mlen := (n0 + 7) / 8
  let ridx := fun (r : Nat × Nat × Nat) => r.1 + n1 * (r.2.1 + n2 * r.2.2)
  failIf (men && rows.any (fun r => !inClaim t (maddr + ridx r * mstride) mlen)) 0x06
  let masks ← rows.mapM (fun r => if men then spRead i 2 (maddr + ridx r * mstride) mlen else pure [])
  let isOn := fun (m : List Byte) i0 => !men || bit (field m (i0 / 8) 1) (i0 % 8)
  let poss := (rows.zip masks).flatMap (fun x => (List.range n0).map (fun i0 => (isOn x.2 i0, (⟨i0, x.1.1, x.1.2.1, x.1.2.2⟩ : VPos))))
  let q := (← get).pane i
  let ds := (named.map (fun x => (din x, true))) ++ [(out, false)]
  failIf (poss.any (fun x => x.1 && ds.any (fun d => !inClaim t (d.1.bytes x.2).1 (d.1.bytes x.2).2))) 0x06
  cnt i 0x1014 ((poss.filter (fun x => !x.1)).map (fun x =>
    (ds.filter (fun d => wouldFault q t (d.1.bytes x.2).1 (d.1.bytes x.2).2 d.2)).length)).sum
  let act := (poss.filter (·.1)).map (·.2)
  let span := fun (d : VDesc) => act.flatMap (fun p => (List.range (d.bytes p).2).map (fun k => (d.bytes p).1 + k))
  let same := fun (d : VDesc) => d.addr == out.addr && d.s1 == out.s1 && d.s2 == out.s2 && d.s3 == out.s3
    && fmtBits d.fmt == fmtBits out.fmt
  let clash := named.any (fun x => !same (din x) && (span (din x)).any (fun a => (span out).contains a))
  for (r, m) in rows.zip masks do
    let ps := ((List.range n0).filter (isOn m)).map (fun i0 => (⟨i0, r.1, r.2.1, r.2.2⟩ : VPos))
    let vs ← ps.mapM (fun p => do
      let xs ← named.mapM (fun x => do
        let e ← readElem i q (din x) p
        pure (x, toDomain dom (din x) e))
      let ins := fun k => ((xs.find? (fun e => e.1 == k)).map (·.2)).getD 0
      let imms := fun k => if dom then toSigned 32 (cbytes c (128 + 4 * k) 4) else (cbytes c (128 + 4 * k) 4 : Nat)
      let (v, clamps) := runStages dom ws ins imms p.i0
      let cv := if dom then CV.int v else CV.flt (f32 v.toNat)
      let res := convert out.fmt sat out.uns 0 cv
      cnt i 0x100C (clamps + b2n res.sat)
      pure res.out)
    for (p, v) in ps.zip vs do
      writeElem i out p (← freeResult 4 v clash)
    modify (fun s => s.incReg64 (Reg.VEC_ELEM_LO i) (Reg.VEC_ELEM_HI i) ps.length)
  pure true

/-- SASH applies a chain of stages to every element of a shape; with IMM = 1 it is 144 B long. -/
def execSash (i c : Nat) (s : State) : Host.Outcome State Fault Refusal :=
  answer s (okPane i) (settle (runCmdLen s i c (vecRow 1 128 none) (if hImm c then 144 else 128) (engBusy i 2) (sashBody i c)))

/-! ### REDUCE (R201 to R205) -/

/-- What one result of a REDUCE is: element bits or a long element's 640 bits, a winner index, saturations, failures of the
cancellation test. -/
structure RedOut where
  v : Nat
  idx : Nat
  sats : Nat
  canc : Nat
deriving DecidableEq, Repr

/-- Reduce the values along one axis. -/
def reduceOne (cls rop : Nat) (lout sat : Bool) (ofmt : Nat) (ouns : Bool) (d : VDesc) (ibase : Nat) (xs : List Nat) : RedOut :=
  let int := decide (5 ≤ d.fmt)
  let leaves := xs.map (fun x => if int then ofSigned 32 (intDecode d.fmt d.uns x) else roundF32 (fdecode (fmtOf d.fmt) x))
  if rop = 0 then
    if lout ∨ cls = 2 then
      let r := longSum (leaves.map (fun x => if int then LongEl.ofInt (toSigned 32 x) else LongEl.ofFV (f32 x)))
      if lout then ⟨r.1.toBits, 0, r.2.2, 0⟩
      else
        let o := convert ofmt sat ouns 0 (elemVal (if int then 3 else 2) true r.1.toBits)
        ⟨o.out, 0, r.2.2 + b2n o.sat, b2n (r.1.spec == 0 && cancels ⟨r.1.v, -316⟩ r.2.1)⟩
    else
      let r := if cls = 1 then treeSum int 25 leaves else runSum int ((runs128 leaves).map (treeSum int 8))
      let o := convert ofmt sat ouns 0 (elemVal (b2n int) false r.v)
      ⟨o.out, 0, r.sats + b2n o.sat, b2n (normFin int r.v && cancels (normDy int r.v) r.top)⟩
  else
    let kind := (if int then 6 else 4) + (rop - 1)
    let es := (leaves.zipIdx).map (fun x => x.1 + (ibase + x.2) * 2 ^ 64)
    let w := match es with | [] => 0 | e :: rest => rest.foldl (winner kind) e
    let o := convert ofmt sat ouns 0 (elemVal (b2n int) false (w % 2 ^ 32))
    ⟨o.out, w / 2 ^ 64, b2n o.sat, 0⟩

/-- The body of a REDUCE. -/
def reduceBody (i c : Nat) : Mc Bool := do
  let n0 := cbits c 8 15 0
  let n1 := cbits c 8 31 16
  let n2 := cbits c 12 15 0
  let n3 := cbits c 12 31 16
  let rop := cbits c 16 1 0
  let raxis := cbits c 16 2 2
  let lout := cbits c 16 3 3 == 1
  let ofmt := cbits c 16 7 4
  let sat := cbits c 16 8 8 == 1
  let idx := cbits c 20 23 0
  let ibase := cbits c 24 39 0
  let din := vdesc c 32
  let out := vdesc c 48
  let j := if raxis = 0 then n1 else n0
  let n := if raxis = 0 then n0 else n1
  failIf (cbits c 16 31 9 != 0 || cbits c 20 31 24 != 0 || cbits c 24 63 40 != 0 || din.rsv || out.rsv) 0x50
  failIf (n0 == 0 || n1 == 0 || n2 == 0 || n3 == 0) 0x51
  let od : VDesc := { out with fmt := ofmt, s1 := 0 }
  failIf (din.bad n0 n1 true || (if lout then out.bc != 0 else od.bad j 1 true)) 0x52
  failIf (rop == 3 || (lout && rop != 0) || (rop != 0 && idx % 64 != 0) || (lout && out.addr % 64 != 0)
    || (rop != 0 && ofmt != din.fmt && ofmt != 0)) 0x55
  let t ← curTask i
  let outAt := fun k i2 i3 => out.addr + i2 * out.s2 + i3 * out.s3 + (if lout then 80 * k else 0)
  let opos := fun k i2 i3 => (⟨k, 0, i2, i3⟩ : VPos)
  let cells := rowsOf j n2 n3
  failIf (cells.any (fun r =>
    !(if lout then inClaim t (outAt r.1 r.2.1 r.2.2) 80 else inClaim t (od.bytes (opos r.1 r.2.1 r.2.2)).1 (od.bytes (opos r.1 r.2.1 r.2.2)).2)
    || (List.range n).any (fun k =>
      let p : VPos := if raxis = 0 then ⟨k, r.1, r.2.1, r.2.2⟩ else ⟨r.1, k, r.2.1, r.2.2⟩
      !inClaim t (din.bytes p).1 (din.bytes p).2))
    || (rop != 0 && !inClaim t idx (8 * j * n2 * n3))) 0x06
  let q := (← get).pane i
  let bytesOf := fun (x : Nat × Nat) => (List.range x.2).map (fun k => x.1 + k)
  let ins := cells.flatMap (fun r => (List.range n).flatMap (fun k =>
    bytesOf (din.bytes (if raxis = 0 then ⟨k, r.1, r.2.1, r.2.2⟩ else ⟨r.1, k, r.2.1, r.2.2⟩))))
  let outs := cells.flatMap (fun r =>
    bytesOf (if lout then (outAt r.1 r.2.1 r.2.2, 80) else od.bytes (opos r.1 r.2.1 r.2.2))) ++ (if rop != 0 then bytesOf (idx, 8 * j * n2 * n3) else [])
  let clash := outs.any (fun a => ins.contains a)
  for r in cells do
    let xs ← (List.range n).mapM (fun k =>
      readElem i q din (if raxis = 0 then ⟨k, r.1, r.2.1, r.2.2⟩ else ⟨r.1, k, r.2.1, r.2.2⟩))
    let o := reduceOne t.dclass rop lout sat ofmt out.uns din ibase xs
    let v ← freeResult 80 o.v clash
    let ix ← freeResult 8 o.idx clash
    if lout then spWrite i 2 (outAt r.1 r.2.1 r.2.2) (leBytes 80 v) else writeElem i od (opos r.1 r.2.1 r.2.2) (v % 2 ^ fmtBits ofmt)
    if rop != 0 then spWrite i 2 (idx + 8 * (r.1 + j * (r.2.1 + n2 * r.2.2))) (leBytes 8 ix) else pure ()
    cnt i 0x100C o.sats
    cnt i 0x1010 o.canc
    modify (fun s => s.incReg64 (Reg.VEC_ELEM_LO i) (Reg.VEC_ELEM_HI i) n)
  pure true

/-- REDUCE sums, or takes the max or min, along one axis. -/
def execReduce (i c : Nat) (s : State) : Host.Outcome State Fault Refusal :=
  answer s (okPane i) (runCmd s i c (vecRow 2 64 (some 0x50)) (engBusy i 2) (reduceBody i c))

/-! ### TABULATE (R206 to R211) -/

/-- A line update that a TABULATE will send: its target, its address, the lanes it adds to, and their addends; or a long
cell and its addend. -/
structure TabLine where
  tgt : Tgt
  addr : Nat
  lanes : List Nat
  long : LongEl
deriving DecidableEq, Repr

/-- What the records so far add: the lines in the add buffer, and those that have left it, in order. -/
structure TabAcc where
  lines : List TabLine
  out : List TabLine
  read : Nat
  added : Nat
  oor : Nat
  msup : Nat
deriving DecidableEq, Repr

/-- Merge an addition into the line it belongs to in the 256-line add buffer (R209). When the buffer is full a line of the device's
choice leaves it. Log entry 14, DESIGN CHOICE. -/
def mergeLine (acc : TabAcc) (l : TabLine) : Mc TabAcc := do
  if acc.lines.any (fun x => x.addr == l.addr) then
    pure { acc with lines := acc.lines.map (fun x => if x.addr = l.addr then
      { x with
        lanes := (x.lanes.zip l.lanes).map (fun p => (p.1 + p.2) % 2 ^ 64)
        long := (LongEl.add x.long l.long).1 } else x) }
  else if acc.lines.length < 256 then pure { acc with lines := acc.lines ++ [l] }
  else
    let (k, s) := (← get).pick 256
    set s
    pure { acc with lines := acc.lines.eraseIdx k ++ [l], out := acc.out ++ (acc.lines[k]?).toList }

/-- The fields of a TABULATE. -/
structure TabCmd where
  tbase : Nat
  nrec : Nat
  mode : Nat
  tloc : Bool
  ndim : Nat
  waddr : Nat
  wfmt : Nat
  maddr : Nat
  men : Bool
  dims : List (Nat × Nat × Nat)
deriving DecidableEq, Repr

/-- The command's fields. -/
def tabCmd (c : Nat) : TabCmd :=
  let nd := cbits c 16 29 27
  { tbase := cbytes c 8 8, nrec := cbits c 16 23 0, mode := cbits c 16 25 24, tloc := cbits c 16 26 26 == 1, ndim := nd,
    waddr := cbits c 20 23 0, wfmt := cbits c 20 27 24, maddr := cbits c 24 23 0, men := cbits c 24 24 24 == 1,
    dims := (List.range nd).map (fun d => (cbits c (32 + 8 * d) 23 0, cbits c (32 + 8 * d) 25 24, cbytes c (36 + 8 * d) 4)) }

/-- Scratchpad ranges that record `r` reads: its codes and its weight. -/
def TabCmd.ranges (m : TabCmd) (r : Nat) : List (Nat × Nat) :=
  m.dims.map (fun d => (d.1 + r * 2 ^ d.2.1, 2 ^ d.2.1))
    ++ (if m.mode = 0 then [] else [(m.waddr + r * (fmtBits m.wfmt / 8), fmtBits m.wfmt / 8)])

/-- Cells of the table. -/
def TabCmd.cells (m : TabCmd) : Nat := (m.dims.map (fun d => d.2.2)).foldl (· * ·) 1

/-- Size of a cell. -/
def TabCmd.cellSize (m : TabCmd) : Nat := if m.mode = 2 then 128 else 8

/-- One record: none when masked off, and else its cell and its weight; a cell of none is out of range (R207). -/
def readRecordCell (i : Nat) (m : TabCmd) (r : Nat) : Mc (Option (Option Nat × Nat)) := do
  let on ← if m.men then (do
      let bs ← spRead i 2 (m.maddr + r / 8) 1
      pure (bit (leNat bs) (r % 8)))
    else pure true
  if !on then pure none
  else
    let codes ← m.dims.mapM (fun d => do
      let bs ← spRead i 2 (d.1 + r * 2 ^ d.2.1) (2 ^ d.2.1)
      pure (leNat bs, d.2.2))
    let w ← if m.mode = 0 then pure 1 else (do
      let bs ← spRead i 2 (m.waddr + r * (fmtBits m.wfmt / 8)) (fmtBits m.wfmt / 8)
      pure (leNat bs))
    if codes.any (fun x => decide (x.2 ≤ x.1)) then pure (some (none, w))
    else pure (some (some (codes.foldl (fun a x => a * x.2 + x.1) 0), w))

/-- A weight as a 64-bit addend, and as a long element. -/
def addendOf (m : TabCmd) (w : Nat) : Nat := if m.mode = 1 then ofSigned 64 (toSigned 32 w) else w
def longOf (m : TabCmd) (w : Nat) : LongEl := LongEl.ofFV (fdecode (fmtOf m.wfmt) w)

/-- Add a record into a scratchpad cell. -/
def addCell (i : Nat) (m : TabCmd) (cell w : Nat) : Mc Unit := do
  let a := m.tbase + m.cellSize * cell
  if m.mode = 2 then
    let bs ← spRead i 2 a 80
    spWrite i 2 a (leBytes 80 (LongEl.add (LongEl.ofBits (leNat bs)) (longOf m w)).1.toBits)
  else
    let bs ← spRead i 2 a 8
    spWrite i 2 a (leBytes 8 ((leNat bs + addendOf m w) % 2 ^ 64))

/-- The record loop: the additions of the records so far, and the record and stop that ended it early (R211). -/
def tabLoop (i b ctx : Nat) (m : TabCmd) : Nat → Nat → TabAcc → Mc (TabAcc × Option (Nat × Stop))
  | 0, _, acc => pure (acc, none)
  | n + 1, r, acc => do
    let t ← curTask i
    let p := (← get).pane i
    match ← readRecordCell i m r with
    | none => tabLoop i b ctx m n (r + 1) { acc with msup := acc.msup + ((m.ranges r).filter (fun x => wouldFault p t x.1 x.2 true)).length }
    | some (none, _) => tabLoop i b ctx m n (r + 1) { acc with read := acc.read + 1, oor := acc.oor + 1 }
    | some (some cell, w) =>
      let acc' := { acc with read := acc.read + 1, added := acc.added + 1 }
      if !m.tloc then
        addCell i m cell w
        tabLoop i b ctx m n (r + 1) acc'
      else
        let a := m.tbase + m.cellSize * cell
        let la := if m.mode = 2 then a else a / 64 * 64
        let res : Except Stop Tgt ← tryCatch (do
          let x ← xlate (.cmd i 2) b ctx la true
          pure (.ok x)) (fun (e : Stop) => pure (.error e))
        match res with
        | .error e => pure (acc, some (r, e))
        | .ok tg =>
          let l : TabLine := { tgt := tg, addr := la, lanes := (List.range 8).map (fun k => if m.mode != 2 && k == a % 64 / 8 then addendOf m w else 0),
                               long := if m.mode = 2 then longOf m w else ⟨0, 0⟩ }
          let acc ← mergeLine acc' l
          tabLoop i b ctx m n (r + 1) acc

/-- Send line updates of a pane's TABULATE. -/
def sendLines (s : State) (i : Nat) (m : TabCmd) (ls : List TabLine) : State :=
  ls.foldl (fun s l =>
    let a : Access :=
      { isPane := true, owner := (s.pane i).number.getD 0, eng := 2, bay := bayOf i, ctx := (s.pane i).ctx,
        op := if m.mode = 2 then .addLong else .add ((l.lanes.zipIdx).foldl (fun a x => if x.1 = 0 then a else a + 2 ^ x.2) 0),
        va := l.addr, len := if m.mode = 2 then 80 else 64,
        data := if m.mode = 2 then leBytes 80 l.long.toBits else (l.lanes.map (leBytes 8)).flatten,
        cls := 1, purpose := .line i }
    pushAcc s (routeAcc s a l.tgt)) s

/-- A TABULATE completes when none of the pane's line updates is outstanding (R210). -/
def vecDone (s : State) (i : Nat) : State :=
  match (s.pane i).vec with
  | none => s
  | some j =>
    if s.accs.any (fun a => a.purpose == .line i) then s
    else cmdDone (s.modPane i (fun p => { p with vec := none })) i 2 3 j.tag

/-- The body of a TABULATE: records are added up to the first whose line is not translated; from there the command goes on when the
translation has come (R211). Log entry 42, DEDUCED. -/
def tabulateBody (i c : Nat) : Mc Bool := do
  let m := tabCmd c
  failIf (cbits c 16 31 30 != 0 || cbits c 20 31 28 != 0 || cbits c 24 31 25 != 0 || cbytes c 28 4 != 0
    || (List.range 6).any (fun d => if d < m.ndim then cbits c (32 + 8 * d) 31 26 != 0 else cbytes c (32 + 8 * d) 8 != 0)) 0x50
  failIf (m.ndim == 0 || decide (6 < m.ndim) || m.dims.any (fun d => d.2.2 == 0) || decide (2 ^ 32 < m.cells) || m.nrec == 0) 0x51
  failIf (m.mode == 3 || (m.mode == 1 && m.wfmt != 7) || (m.mode == 2 && decide (2 < m.wfmt)) || m.dims.any (fun d => d.2.1 == 3)
    || m.tbase % (if m.mode = 2 then 128 else 64) != 0) 0x54
  let t ← curTask i
  let s ← get
  let start := tget 0 (s.pane i).seq.progress 2
  failIf ((!m.tloc && !inClaim t m.tbase (m.cellSize * m.cells)) || (m.men && !inClaim t m.maddr ((m.nrec + 7) / 8))) 0x06
  let recs := (List.range (m.nrec - start)).map (· + start)
  let ons ← recs.mapM (fun r => if m.men then (do
      let bs ← spRead i 2 (m.maddr + r / 8) 1
      pure (bit (leNat bs) (r % 8))) else pure true)
  failIf ((recs.zip ons).any (fun x => x.2 && (m.ranges x.1).any (fun e => !inClaim t e.1 e.2))) 0x06
  let (acc, stop) ← tabLoop i (bayOf i) t.ctx m (m.nrec - start) start ⟨[], [], 0, 0, 0, 0⟩
  match stop with
  | some (r, .need ns) => if r = start then throw (.need ns)
  | _ => pure ()
  modify (fun s => sendLines s i m (acc.out ++ acc.lines))
  modify (fun s => (s.incReg64 (Reg.VEC_ELEM_LO i) (Reg.VEC_ELEM_HI i) acc.read).incReg64 (Reg.VEC_TABREC_LO i) (Reg.VEC_TABREC_HI i) acc.added)
  cnt i 0x1020 acc.oor
  cnt i 0x1014 acc.msup
  let goesOn := fun (r stopped : Nat) (s : State) => s.modPane i (fun p => { p with seq := { p.seq with
    unstarted := (2, c) :: p.seq.unstarted, progress := tset 0 (tset 0 p.seq.progress 2 r) 102 stopped } })
  match stop with
  | some (r, .page ctx cause lvl va hpa wr) =>
    modify (fun s => parkOn (goesOn r 1 s) i ctx cause lvl va hpa wr (2, hTag c))
    pure false
  | some (r, .need _) =>
    modify (goesOn r 0)
    pure false
  | some (_, e) => throw e
  | none =>
    modify (fun s => s.modPane i (fun p => { p with
      vec := some { tag := hTag c }
      seq := { p.seq with progress := tset 0 (tset 0 p.seq.progress 2 0) 102 0 } }))
    let s ← get
    if s.accs.any (fun a => a.purpose == .line i) then pure false
    else
      modify (fun s => s.modPane i (fun p => { p with vec := none }))
      pure true

/-- TABULATE adds records into the cells of an exact cross-tabulation. -/
def execTabulate (i c : Nat) (s : State) : Host.Outcome State Fault Refusal :=
  answer s (okPane i) (runCmd s i c (vecRow 3 80 (some 0x50)) (engBusy i 2) (tabulateBody i c))

end Sys2Proof.Machine
end

