-- ==== Sys2Proof/Machine/Nge.lean ====
section
/-! DEFINITION. The neighbour-gather engine (R147 to R184): GATHER, SEGGATHER, DEGSCAN, SEQSTAGE, SEQSOFT and the return of
narrow reads. Pointers, indices, weights, hub lists and partials are read line by line as a unit enters the window (log entry 6, DESIGN CHOICE);
feature rows are read by narrow reads. Addresses are virtual; what bits [63:52] name is the translated address (log entry 27, DEDUCED). -/

namespace Sys2Proof.Machine

open Sys2Proof

/-! ### Descriptor and commands -/

/-- A graph descriptor (Table 5-1). -/
structure GDesc where
  ptr : Nat
  idx : Nat
  wt : Nat
  feat : Nat
  nv : Nat
  nsrc : Nat
  stride : Nat
  felem : Nat
  ffmt : Nat
  idxw : Bool
  wten : Bool
  wtfmt : Nat
  ordered : Bool
  rsv : Bool
deriving DecidableEq, Repr

/-- The descriptor's fields. -/
def gdesc (d : List Byte) : GDesc :=
  let w := field d 48 4
  let x := field d 52 4
  { ptr := field d 0 8, idx := field d 8 8, wt := field d 16 8, feat := field d 24 8, nv := field d 32 5, nsrc := field d 40 5,
    stride := bits w 15 0, felem := bits w 25 16, ffmt := bits w 29 26, idxw := bit x 0, wten := bit x 1, wtfmt := bits x 5 2,
    ordered := bit x 6,
    rsv := field d 37 3 != 0 || field d 45 3 != 0 || bits w 31 30 != 0 || bits x 31 7 != 0 || field d 56 8 != 0 }

/-- The row size in bytes. -/
def GDesc.row (d : GDesc) : Nat := d.felem * (fmtBits d.ffmt / 8)

/-- Does a descriptor break R148? -/
def GDesc.bad (d : GDesc) : Bool :=
  d.ptr % 8 != 0 || d.idx % (if d.idxw then 8 else 4) != 0 || decide (4 < d.ffmt) || (d.wten && decide (2 < d.wtfmt))
    || (d.wten && d.wt % (fmtBits d.wtfmt / 8) != 0) || d.feat % 32 != 0 || d.felem == 0 || decide (512 < d.felem)
    || decide (1024 < d.row) || d.stride % 32 != 0 || decide (d.stride < d.row) || d.rsv

/-- Fields of a command that its units need, whatever its opcode (Tables 5-4, 5-8 and 5-11). -/
structure NgeCmd where
  agg : Nat
  idxsel : Bool
  tlog : Nat
  vwin : Nat
  filt : Nat
  flog : Nat
  out : Nat
  ostride : Nat
  ofmt : Nat
  osat : Bool
  panels : Bool
  idxout : Nat
  aggaddr : Nat
  epoch : Nat
  hublist : Nat
  hubpart : Nat
  vbeg : Nat
  num : Nat
deriving DecidableEq, Repr

/-- The effective TLOG: 0 selects 16. -/
def tlogOf (t : Nat) : Nat := if t = 0 then 16 else t
/-- Is a TLOG refused? -/
def badTlog (t : Nat) : Bool := t != 0 && (decide (t < 10) || decide (20 < t))

/-- The fields of a GATHER, a SEGGATHER or a SEQSTAGE. -/
def ngeCmd (op c : Nat) : NgeCmd :=
  if op = 1 then
    { agg := cbits c 28 3 0, idxsel := cbits c 28 10 10 == 1, tlog := tlogOf (cbits c 28 15 11), vwin := cbits c 28 21 16 + 1,
      filt := cbits c 44 23 0, flog := cbits c 44 27 24, out := cbits c 32 23 0, ostride := cbits c 36 23 0,
      ofmt := cbits c 28 7 4, osat := cbits c 28 8 8 == 1, panels := cbits c 28 9 9 == 1, idxout := cbits c 48 23 0,
      aggaddr := cbits c 40 23 0, epoch := cbytes c 52 4, hublist := cbytes c 56 8, hubpart := cbytes c 64 8,
      vbeg := cbits c 16 39 0, num := cbits c 24 23 0 }
  else if op = 2 then
    { agg := cbits c 32 3 0, idxsel := cbits c 32 4 4 == 1, tlog := 16, vwin := 1, filt := cbits c 44 23 0,
      flog := cbits c 44 27 24, out := 0, ostride := 0, ofmt := 0, osat := false, panels := false, idxout := 0,
      aggaddr := cbits c 40 23 0, epoch := cbytes c 48 4, hublist := cbytes c 16 8, hubpart := cbytes c 24 8, vbeg := 0, num := 0 }
  else
    { agg := 0, idxsel := false, tlog := 16, vwin := 64, filt := cbits c 40 23 0, flog := cbits c 40 27 24,
      out := cbits c 32 23 0, ostride := cbits c 36 23 0, ofmt := cbits c 28 18 15, osat := false,
      panels := cbits c 28 13 13 == 1, idxout := 0, aggaddr := 0, epoch := 0, hublist := 0, hubpart := 0,
      vbeg := cbits c 16 39 0, num := cbits c 28 12 0 }

/-- Is it max or min? -/
def NgeCmd.pick (m : NgeCmd) : Bool := m.agg == 3 || m.agg == 4
/-- KIND of a partial (Table 5-9). -/
def NgeCmd.kind (m : NgeCmd) (cls : Nat) : Nat := if m.agg = 3 then 4 else if m.agg = 4 then 5 else if cls = 2 then 2 else 0
/-- Bytes of a filter row. -/
def GDesc.filtRow (d : GDesc) : Nat := pad64 d.row
/-- PSIZE (R168). -/
def partSize (kind felem : Nat) : Nat :=
  64 + (if chainSum kind then pad64 (2 * felem) else 0) + pad64 (chainElem kind * felem)

/-- Report the faults of an operation at a vertex. Log entry 43, DESIGN CHOICE. -/
def atVertex {α : Type} (v : Nat) (hub : Bool) (m : Mc α) : Mc α :=
  tryCatch m (fun (e : Stop) => match e with
    | .flt f => throw (.flt { f with pos := v, hub })
    | e => throw e)

/-- Read the graph descriptor and check it (R148). -/
def readDesc (i ctx a : Nat) : Mc (List Byte) := do
  failIf (a % 64 != 0) 0x41
  let bs ← vaRead (.cmd i 3) ctx a 64
  failIf (gdesc bs).bad 0x41
  pure bs

/-- A vertex's first edge position and degree (R149). -/
def readPtr (i ctx : Nat) (d : GDesc) (v : Nat) : Mc (Nat × Nat) := do
  let bs ← vaRead (.cmd i 3) ctx (d.ptr + 8 * v) 16
  let p := field bs 0 8
  let q := field bs 8 8
  failIf (decide (2 ^ 40 ≤ p) || decide (2 ^ 40 ≤ q) || decide (q < p)) 0x43
  pure (p, q - p)

/-- Neighbours and weights of `n` edge positions from `lo`, each index checked (R149). -/
def readEdges (i ctx : Nat) (d : GDesc) (weighted : Bool) (lo n : Nat) : Mc (List NgeRow) := do
  let w := if d.idxw then 8 else 4
  let is ← vaRead (.cmd i 3) ctx (d.idx + w * lo) (w * n)
  let ww := fmtBits d.wtfmt / 8
  let ws ← if weighted then vaRead (.cmd i 3) ctx (d.wt + ww * lo) (ww * n) else pure []
  let rows : List NgeRow := (List.range n).map (fun k => { u := field is (w * k) w, w := field ws (ww * k) ww, edge := lo + k })
  failIf (rows.any (fun r => decide (d.nsrc ≤ r.u))) 0x42
  pure rows

/-! ### Combining (R153 to R159, R169) -/

/-- A combined element: FP32 bits, a long element's bits or a winner entry, and its largest exponent code. -/
structure Comb where
  raw : Nat
  top : Nat
deriving DecidableEq, Repr

/-- The neighbour value of element `e` (R154). -/
def neighbourValue (d : GDesc) (weighted : Bool) (r : NgeRow) (bs : List Byte) (e : Nat) : FV :=
  let x := fdecode (fmtOf d.ffmt) (elemAt d.ffmt bs e)
  if weighted then FV.mul (fdecode (fmtOf d.wtfmt) r.w) x else x

/-- The winner entry of a neighbour. -/
def winnerEntry (m : NgeCmd) (d : GDesc) (r : NgeRow) (bs : List Byte) (e : Nat) : Nat :=
  roundF32 (neighbourValue d false r bs e) + (if m.idxsel then r.u else r.edge) * 2 ^ 64

/-- Its FP32 bits; a weighted product that overflows FP32 becomes infinite or the largest value, a free choice for its operands (log
entry 28, DESIGN CHOICE). -/
def neighbourBits (d : GDesc) (weighted : Bool) (r : NgeRow) (bs : List Byte) (e : Nat) : Nat :=
  (fround fp32 (Config.overflowMax (d.wtfmt * 16 + d.ffmt) r.w (elemAt d.ffmt bs e)) (neighbourValue d weighted r bs e)).1

/-- An exact sum in list order: the sum, the largest exponent code of its terms and nodes, and the saturating nodes (R159). -/
def exactSum (xs : List LongEl) : LongEl × Nat × Nat :=
  let code := fun (x : LongEl) => expCode (x.spec == 0) ⟨x.v, -316⟩
  xs.foldl (fun (a : LongEl × Nat × Nat) x =>
    let r := LongEl.add a.1 x
    (r.1, max a.2.1 (max (code x) (code r.1)), a.2.2 + b2n r.2)) (⟨0, 0⟩, 0, 0)

/-- The combined elements of a unit and the saturating nodes. -/
def combineUnit (m : NgeCmd) (d : GDesc) (cls : Nat) (u : NgeUnit) : List Comb × Nat :=
  let stored := (u.rows.zipIdx).filterMap (fun x => (u.got.find? (fun g => g.1 == x.2)).map (fun g => (x.1, g.2)))
  let arrived := u.got.filterMap (fun g => (u.rows[g.1]?).map (fun r => (r, g.2)))
  let wtd := m.agg == 1
  let outs : List (Comb × Nat) := (List.range d.felem).map (fun e =>
    let bits32 := fun (x : NgeRow × List Byte) => neighbourBits d wtd x.1 x.2 e
    if m.pick then
      match stored.map (fun x => winnerEntry m d x.1 x.2 e) with
      | [] => (⟨(2 ^ 64 - 1) * 2 ^ 64, 0⟩, 0)
      | w :: ws => (⟨ws.foldl (winner (m.kind cls)) w, 0⟩, 0)
    else if cls = 2 then
      let r := exactSum (stored.map (fun x => LongEl.ofFV (neighbourValue d wtd x.1 x.2 e)))
      (⟨r.1.toBits, r.2.1⟩, r.2.2)
    else
      let r := if cls = 1 then treeSum false (stored.length + 1) (stored.map bits32)
        else runSum false (arrived.map (fun x => sumLeaf false (bits32 x)))
      (⟨r.v, r.top⟩, r.sats))
  (outs.map (·.1), (outs.map (·.2)).foldl (· + ·) 0)

/-- The value of a combined element. -/
def combValue (m : NgeCmd) (cls raw : Nat) : FV :=
  if m.pick then f32 (raw % 2 ^ 32) else if cls = 2 then (LongEl.ofBits raw).fv else f32 raw

/-- Output bits of the combined elements of a vertex of degree `n`, winner indices, elements that fail the cancellation test,
and conversions that saturate (R156, R157, R159). -/
def finalRow (m : NgeCmd) (cls n : Nat) (cs : List Comb) : List Nat × List Nat × Nat × Nat :=
  let outs := cs.map (fun x =>
    let v := combValue m cls x.raw
    convert m.ofmt m.osat false 0 (.flt (if m.agg = 2 ∧ n ≠ 0 then FV.div v (.fin false n 0) else v)))
  let canc := if m.pick then 0 else (cs.filter (fun x =>
    if cls = 2 then (LongEl.ofBits x.raw).spec == 0 && cancels ⟨(LongEl.ofBits x.raw).v, -316⟩ x.top
    else (f32 x.raw).isFin && cancels (FV.dy (f32 x.raw)) x.top)).length
  (outs.map (·.out), if m.pick then cs.map (fun x => x.raw / 2 ^ 64) else [], canc,
    if m.pick then 0 else (outs.filter (·.sat)).length)

/-! ### Hubs (R165 to R170) -/

/-- Header and entries of a hub list (Table 5-7). -/
def hubHead (i ctx a : Nat) : Mc (List Byte) := vaRead (.cmd i 3) ctx a 64
/-- Entry `h`: vertex, degree, first segment. -/
def hubEntry (i ctx a h : Nat) : Mc (Nat × Nat × Nat) := do
  let bs ← vaRead (.cmd i 3) ctx (a + 0x40 + 16 * h) 16
  pure (field bs 0 5, field bs 5 5, field bs 10 4)

/-- Binary search of a hub list for the first entry whose vertex is at least `v`. -/
def hubSearch (i ctx a v : Nat) : Nat → Nat → Nat → Mc Nat
  | 0, lo, _ => pure lo
  | fuel + 1, lo, hi => do
    if hi ≤ lo then pure lo
    else
      let mid := (lo + hi) / 2
      let (x, _, _) ← hubEntry i ctx a mid
      if x < v then hubSearch i ctx a v fuel (mid + 1) hi else hubSearch i ctx a v fuel lo mid

/-- Segments of a vertex of degree `n` under a threshold (R165). -/
def segCount (n tlog : Nat) : Mc Nat := do
  let k := (n + 2 ^ tlog - 1) / 2 ^ tlog
  failIf (decide (2 ^ 24 ≤ k)) 0x46
  pure k

/-- Combine the partials of a hub as a chain of the task's class would (R169). -/
def combineHub (i ctx cls : Nat) (m : NgeCmd) (d : GDesc) (v segs seg0 : Nat) : Mc (List Comb × Nat) := do
  let kind := m.kind cls
  let size := partSize kind d.felem
  let mapLen := if chainSum kind then pad64 (2 * d.felem) else 0
  let w := chainElem kind
  let (es, a) ← (List.range segs).foldlM (fun (r : List (Nat × List Nat) × StepAcc) sg => do
    let p := m.hubpart + (seg0 + sg) * size
    let h ← vaRead (.cmd i 3) ctx p 64
    failIf (bits (field h 0 4) 25 24 != cls) 0x08
    failIf (field h 0 3 != sg || field h 4 4 != m.epoch || field h 8 5 != v || bits (field h 16 4) 12 0 != d.felem
      || bits (field h 8 8) 43 40 != m.agg || bits (field h 0 4) 29 26 != kind) 0x45
    let body ← vaRead (.cmd i 3) ctx (p + 64) (size - 64)
    let codes := if chainSum kind then elemsOf 2 d.felem body else List.replicate d.felem 0
    let own := elemsOf w d.felem (body.drop mapLen)
    let acc : StepAcc := { r.2 with codes := (r.2.codes.zip codes).map (fun x => max x.1 x.2) }
    pure (stepEntries cls kind r.1 own acc)) (([], { codes := List.replicate d.felem 0, sats := 0 }) : List (Nat × List Nat) × StepAcc)
  let (r, a) := finishRec kind (sortEntries es) a
  cnt i 0x2014 1
  pure ((r.zip a.codes).map (fun x => ⟨x.1, x.2⟩), a.sats)

/-- A GATHER meets a vertex of degree above its threshold: the entry of its hub list, the partials, the output. -/
def gatherHub (i ctx cls : Nat) (m : NgeCmd) (d : GDesc) (h v n : Nat) : Mc (List Nat × List Nat × Nat × Nat) := do
  let segs ← segCount n m.tlog
  failIf (m.hublist == 0) 0x44
  let hd ← hubHead i ctx m.hublist
  failIf (decide (field hd 12 4 ≤ h)) 0x44
  let (ev, en, seg0) ← hubEntry i ctx m.hublist h
  let lb := field hd 0 5
  failIf (ev != v || en != n || bits (field hd 8 4) 28 24 != m.tlog || decide (m.vbeg < lb)
    || decide (lb + bits (field hd 8 4) 23 0 < m.vbeg + m.num)) 0x44
  let (cs, sats) ← combineHub i ctx cls m d v segs seg0
  let (outs, idxs, canc, cv) := finalRow m cls n cs
  pure (outs, idxs, canc, sats + cv)

/-! ### Outputs -/

/-- Bytes of an operand panel of a format and a depth in steps (Table 3-2). -/
def panelBytes (fmt depth : Nat) : Nat := 8 * fmtBits fmt * depth
/-- A count rounded up to 64. -/
def up64 (n : Nat) : Nat := (n + 63) / 64 * 64

/-- Write elements of panels, each at a bit address, once every one may be written. -/
def putElems (i eng fmt : Nat) (es : List (Nat × Nat)) : Mc Unit := do
  es.forM (fun e => spUse i eng (e.1 / 8) (fmtBits fmt / 8))
  modify (fun s => s.modPane i (fun p => es.foldl (fun p e => pokeBits p e.1 (fmtBits fmt) e.2) p))

/-- A lane of a panel: its elements, then +0 to the padded depth. -/
def laneElems (fmt a lane : Nat) (vs : List Nat) : List (Nat × Nat) :=
  (List.range (up64 vs.length)).map (fun k => (8 * a + denseOff fmt 64 lane k, vs.getD k 0))

/-- Write a lane of a panel. -/
def lanePut (i fmt a lane : Nat) (vs : List Nat) (eng : Nat := 3) : Mc Unit := putElems i eng fmt (laneElems fmt a lane vs)

/-- Write depth step `k` over all lanes of the panels of a SEQSTAGE with lanes for features; the rest of the lanes is +0. -/
def stepPut (i fmt out ostride panels k : Nat) (vs : List Nat) : Mc Unit := do
  putElems i 3 fmt ((List.range (64 * panels)).map (fun l => (8 * (out + l / 64 * ostride) + denseOff fmt 64 (l % 64) k, vs.getD l 0)))

/-- Write a vertex's output and winner indices at the place of unit `k` (R162); nothing is written when part of it may not be (R174). -/
def putVertex (i : Nat) (m : NgeCmd) (d : GDesc) (k : Nat) (outs idxs : List Nat) : Mc Unit := do
  let xa := m.idxout + 8 * d.felem * k
  if m.pick then spUse i 3 xa (8 * idxs.length)
  if m.panels then
    let a := m.out + k / 64 * m.ostride
    let rest := if k + 1 = m.num then
        ((List.range 64).drop (m.num - k / 64 * 64)).flatMap (fun l => laneElems m.ofmt a l (List.replicate d.felem 0))
      else []
    putElems i 3 m.ofmt (laneElems m.ofmt a (k % 64) outs ++ rest)
  else spWrite i 3 (m.out + k * m.ostride) (packElems (fmtBits m.ofmt) outs)
  if m.pick then spWrite i 3 xa ((idxs.map (leBytes 8)).flatten)

/-- Post a write of a running command for vertex `v`; `part` is one more than the class that a segment partial carries (R74). -/
def postPart (i ctx v op part a : Nat) (bs : List Byte) : Mc Unit := do
  let s ← get
  match (s.pane i).task with
  | none => throw .wait
  | some t =>
    vaWrite (.cmd i 3) (bayOf i) ctx a bs (.put i t)
    modify (fun s' => { s' with accs := s'.accs.map (fun a =>
      if s.accSeq ≤ a.id then { a with grp := v + op * 2 ^ 40 + part * 2 ^ 48 } else a) })

/-- The bytes of a segment partial (Table 5-9). -/
def partBytes (m : NgeCmd) (d : GDesc) (cls seg v : Nat) (cs : List Comb) : List Byte :=
  let kind := m.kind cls
  leBytes 4 (seg + cls * 2 ^ 24 + kind * 2 ^ 26) ++ leBytes 4 m.epoch ++ leBytes 8 (v + m.agg * 2 ^ 40) ++ leBytes 4 d.felem
    ++ leBytes 44 0 ++ (if chainSum kind then padTo64 ((cs.map (fun x => leBytes 2 x.top)).flatten) else [])
    ++ padTo64 ((cs.map (fun x => leBytes (chainElem kind) x.raw)).flatten)

/-- Conversion of a staged feature to OFMT; an overflow has no stated result and takes a free choice for its operand (log entry 28, DESIGN CHOICE). -/
def stageElems (m : NgeCmd) (d : GDesc) (bs : List Byte) : List CRes :=
  (List.range d.felem).map (fun e =>
    let x := elemAt d.ffmt bs e
    convert m.ofmt (Config.overflowMax (m.ofmt * 16 + d.ffmt) x 0) false 0 (.flt (fdecode (fmtOf d.ffmt) x)))

/-- Write the complete unit at the head of the window. -/
def writeUnit (i ctx : Nat) (j : NgeJob) (u : NgeUnit) : Mc Unit := do
  let m := ngeCmd j.op j.cmd
  let d := gdesc j.desc
  if j.op = 4 then
    let cs := stageElems m d ((u.got.map (·.2)).headD [])
    let vs := cs.map (·.out)
    if m.panels then
      let ones := cbits j.cmd 28 14 14 == 1
      let one := (fround (fmtOf m.ofmt) false (.fin false 1 0)).1
      stepPut i m.ofmt m.out m.ostride ((d.felem + b2n ones + 63) / 64) u.no (if ones then vs ++ [one] else vs)
    else lanePut i m.ofmt (m.out + u.no / 64 * m.ostride) (u.no % 64) vs
    cnt i 0x2020 (cs.filter (·.sat)).length
  else if j.op = 2 then
    let (cs, sats) := combineUnit m d j.cls u
    let g := ((j.segs[u.no]?).map (fun x => x.2.2)).getD 0
    postPart i ctx u.vertex 2 (j.cls + 1) (m.hubpart + g * partSize (m.kind j.cls) d.felem) (partBytes m d j.cls u.seg u.vertex cs)
    cnt i 0x2020 sats
    cnt i 0x2018 1
  else
    let (outs, idxs, canc, sats) :=
      match u.res with
      | some r => r
      | none =>
        let (cs, sats) := combineUnit m d j.cls u
        let (outs, idxs, canc, cv) := finalRow m j.cls u.deg cs
        (outs, idxs, canc, sats + cv)
    putVertex i m d u.no outs idxs
    cnt i 0x201C canc
    cnt i 0x2020 sats
    cnt i 0x2010 1

/-- What follows the last unit: the rest of a SEQSTAGE's panels holds +0; a SEGGATHER signals DSYNC behind its partials: on another
device once those that travel another way are in memory and those to that device are on their way before it in one flow (R373, R419). -/
def finishJob (i ctx : Nat) (j : NgeJob) : Mc Unit := do
  let m := ngeCmd j.op j.cmd
  let d := gdesc j.desc
  if j.op = 4 then
    if m.panels then
      let panels := (d.felem + cbits j.cmd 28 14 14 + 63) / 64
      for k in (List.range (up64 m.num)).drop j.last do stepPut i m.ofmt m.out m.ostride panels k []
    else
      for k in (List.range (up64 m.num)).drop j.last do
        lanePut i m.ofmt (m.out + k / 64 * m.ostride) (k % 64) (List.replicate d.felem 0)
  else if j.op = 2 then
    let obj := cbits j.cmd 52 15 0
    let chip := cbits j.cmd 52 27 16
    let s ← get
    let b := bayOf i
    if chip = s.chip then set (paneSignal s i obj 1 false (paneWrites s i))
    else
      let sent := fun (a : Access) => a.dev && a.pa / 2 ^ 52 == chip && (s.bay b).xe.reqs.any (fun r => r.access == a.id)
      if s.accs.any (fun a => writeOf i a && !sent a) then throw .wait
      let body := leBytes 2 obj ++ leBytes 2 0 ++ leBytes 4 1
      if ← sendRouted b 0 (reqMsg s b 0x0C 3 chip (obj / 4096) ctx 0 ((s.pane i).number.getD 0x7F) 3 body) then pure () else fault 0xB0

/-! ### The pump: window, requests, reads -/

/-- The job of a pane. -/
def jobOf (i : Nat) : Mc NgeJob := do
  let s ← get
  match (s.pane i).nge with
  | some j => pure j
  | none => throw .wait

/-- Put the job back. -/
def putJob (i : Nat) (j : NgeJob) : Mc Unit := modify (fun s => s.modPane i (fun p => { p with nge := some j }))

/-- The next unit enters the window (R152). -/
def enterUnit (i ctx : Nat) : Mc Unit := do
  let j ← jobOf i
  let m := ngeCmd j.op j.cmd
  let d := gdesc j.desc
  let k := j.next
  if j.op = 1 then
    let v := m.vbeg + k
    let (p, n) ← atVertex v false (readPtr i ctx d v)
    if 2 ^ m.tlog < n then
      let r ← atVertex v true (gatherHub i ctx j.cls m d j.hub v n)
      let u : NgeUnit := { no := k, vertex := v, seg := 0, deg := n, rows := [], asked := 0, got := [], res := some r }
      putJob i { j with next := k + 1, hub := j.hub + 1, units := j.units ++ [u] }
    else
      let rows ← atVertex v false (readEdges i ctx d (m.agg == 1) p n)
      let u : NgeUnit := { no := k, vertex := v, seg := 0, deg := n, rows, asked := 0, got := [], res := none }
      putJob i { j with next := k + 1, units := j.units ++ [u] }
  else if j.op = 2 then
    let (v, sg, _) := (j.segs[k]?).getD (0, 0, 0)
    let t := 2 ^ j.hub
    let (p, n) ← atVertex v false (do
      failIf (decide (d.nv ≤ v)) 0x43
      readPtr i ctx d v)
    let rows ← atVertex v false (readEdges i ctx d (m.agg == 1) (p + sg * t) (min ((sg + 1) * t) n - sg * t))
    let u : NgeUnit := { no := k, vertex := v, seg := sg, deg := rows.length, rows, asked := 0, got := [], res := none }
    putJob i { j with next := k + 1, units := j.units ++ [u] }
  else
    let (p, _) ← atVertex m.vbeg false (readPtr i ctx d m.vbeg)
    let rows ← atVertex m.vbeg false (readEdges i ctx d false (p + cbits j.cmd 24 23 0 + k) 1)
    let u : NgeUnit := { no := k, vertex := m.vbeg, seg := 0, deg := 1, rows, asked := 0, got := [], res := none }
    putJob i { j with next := k + 1, units := j.units ++ [u] }

/-- Fill the window. -/
def fillWindow (i ctx : Nat) : Nat → Mc Unit
  | 0 => pure ()
  | fuel + 1 => do
    let j ← jobOf i
    if j.next < j.last && decide (j.units.length < (ngeCmd j.op j.cmd).vwin) then
      enterUnit i ctx
      fillWindow i ctx fuel
    else pure ()

/-- Narrow reads outstanding. -/
def outReads (j : NgeJob) : Nat := (j.fetches.map (fun f => f.pend.length)).foldl (· + ·) 0

/-- A row arrives for a unit. Log entry 16, DEDUCED. -/
def giveRow (us : List NgeUnit) (unit row : Nat) (bs : List Byte) : List NgeUnit :=
  us.map (fun u => if u.no = unit then { u with got := u.got ++ [(row, bs)] } else u)

/-- Request the next row of the window (R172): a filter hit, a row already on its way, or a read. -/
def askRow (i : Nat) (j : NgeJob) (u : NgeUnit) (r : NgeRow) : Mc Unit := do
  let m := ngeCmd j.op j.cmd
  let d := gdesc j.desc
  let e := r.u % 2 ^ m.flog
  let units := j.units.map (fun x => if x.no = u.no then { x with asked := x.asked + 1 } else x)
  if m.flog ≠ 0 ∧ tget 0 j.filt e = r.u + 1 then
    let bs ← spRead i 3 (m.filt + e * d.filtRow) d.row
    cnt i 0x200C 1
    putJob i { j with units := giveRow units u.no u.asked bs }
  else if m.flog ≠ 0 ∧ j.fetches.any (fun f => f.u == r.u) then
    cnt i 0x200C 1
    putJob i { j with
      units
      fetches := j.fetches.map (fun f => if f.u = r.u then { f with wants := f.wants ++ [(u.no, u.asked)] } else f) }
  else
    putJob i { j with units, fetches := j.fetches ++ [{ u := r.u, next := 0, pend := [], parts := [], wants := [(u.no, u.asked)] }] }

/-- Issue the next narrow read of a row (R150). -/
def issueRead (i ctx : Nat) (j : NgeJob) (f : NgeFetch) : Mc Unit := do
  let d := gdesc j.desc
  let s ← get
  let va := d.feat + f.u * d.stride + 32 * f.next
  set (pushAcc s { isPane := true, owner := (s.pane i).number.getD 0, eng := 3, bay := bayOf i, ctx, va, len := 32, purpose := .nge i j.seq })
  let j : NgeJob := { j with
    seq := j.seq + 1
    fetches := j.fetches.map (fun g => if g = f then { f with next := f.next + 1, pend := f.pend ++ [(j.seq, f.next)] } else g) }
  putJob i j
  modify (fun s =>
    let s := s.incReg64 (Reg.NGE_READS_LO i) (Reg.NGE_READS_HI i) 1
    if s.regN (Reg.NGE_OUTHW i) < outReads j then s.setReg (Reg.NGE_OUTHW i) (outReads j) else s)

/-- Requests and reads, in order, up to 512 outstanding (R151). -/
def request (i ctx : Nat) : Nat → Mc Unit
  | 0 => pure ()
  | fuel + 1 => do
    let j ← jobOf i
    let np := ((gdesc j.desc).row + 31) / 32
    match j.fetches.find? (fun f => decide (f.next < np)) with
    | some f =>
      if 512 ≤ outReads j then pure ()
      else
        issueRead i ctx j f
        request i ctx fuel
    | none =>
      match j.units.find? (fun u => decide (u.asked < u.rows.length)) with
      | none => pure ()
      | some u =>
        match u.rows[u.asked]? with
        | none => pure ()
        | some r =>
          atVertex u.vertex false (askRow i j u r)
          request i ctx fuel

/-- Is a unit complete? -/
def unitDone (u : NgeUnit) : Bool := u.res.isSome || u.got.length == u.rows.length

/-- Write complete units at the head of the window; the number written is answered. -/
def writeHeads (i ctx : Nat) : Nat → Mc Nat
  | 0 => pure 0
  | fuel + 1 => do
    let j ← jobOf i
    match j.units with
    | [] => pure 0
    | u :: rest =>
      if unitDone u then
        atVertex u.vertex u.res.isSome (writeUnit i ctx j u)
        putJob i { j with units := rest, done := j.done + 1 }
        let n ← writeHeads i ctx fuel
        pure (n + 1)
      else pure 0

/-- What an operation lacks, once it has done what it can. -/
def lacks (m : Mc Unit) : Mc (List Need) :=
  tryCatch (do
    m
    pure []) (fun (e : Stop) => match e with
    | .need ns => pure ns
    | e => throw e)

/-- Advance a job as far as it can go; true when the command is complete. -/
def pump (i ctx : Nat) : Nat → Mc Bool
  | 0 => pure false
  | fuel + 1 => do
    let ns ← lacks (fillWindow i ctx 64)
    let j ← jobOf i
    request i ctx (1025 + (j.units.map (fun u => u.rows.length)).foldl (· + ·) 0)
    let n ← writeHeads i ctx 64
    let j ← jobOf i
    if j.done = j.last then
      finishJob i ctx j
      modify (fun s => s.modPane i (fun p => { p with
        nge := none
        seq := { p.seq with progress := tset 0 (tset 0 p.seq.progress 3 0) 103 0 } }))
      pure true
    else if n = 0 then (if ns.isEmpty then pure false else throw (.need ns))
    else pump i ctx fuel

/-- Start a job; the engine advances it from there. -/
def startJob (i : Nat) (j : NgeJob) : Mc Bool := do
  modify (fun s => s.modPane i (fun p => { p with nge := some j, seq := { p.seq with progress := tset 0 p.seq.progress 103 0 } }))
  pure false

/-- What becomes of a job's stop while it runs: a fault ends the task; a page fault stops the command (R173); what it lacks is asked
for; anything else waits. -/
def ngeStop (s : State) (i : Nat) (e : Stop) : State :=
  match (s.pane i).nge with
  | none => s
  | some j =>
    match e with
    | .flt f =>
      paneFault s i f.code { eng := 3, op := j.op, pos := f.pos, hub := f.hub, kind := f.kind, slot := f.slot, tag := hTag j.cmd, addr := f.addr }
    | .page ctx cause lvl va hpa wr => parkOn (dropFetched s i 3) i ctx cause lvl va hpa wr (3, hTag j.cmd)
    | .need ns => postNeeds s ns
    | _ => s

/-- Advance the job of a pane, unless its engine stalls or is stopped (R173, R345). -/
def ngeGo (s : State) (i : Nat) : State :=
  match (s.pane i).nge with
  | none => s
  | some j =>
    if (s.pane i).stalled then s
    else
      match runMc (pump i (s.pane i).ctx (j.last - j.done + 1)) s with
      | (.ok true, s') => cmdDone (dropFetched s' i 3) i 3 j.op (hTag j.cmd)
      | (.ok false, s') => dropFetched s' i 3
      | (.error e, s') => ngeStop s' i e

/-- The row of an NGE command (Table 5-3). -/
def ngeRow (op len : Nat) : CmdRow := { eng := 3, op, len, lenCode := 0x40, opCode := 0x40, immCode := some 0x40 }

/-- A command that may have started a job: the job is advanced. -/
def runNge (s : State) (i c op len : Nat) (body : Mc Bool) : State :=
  settle (ngeGo (runCmdLen s i c (ngeRow op len) len (engBusy i 3) body) i)

/-- A narrow read returns: its piece joins its row, and a whole row goes to the units that want it and to the filter. Log entry 16, DEDUCED. -/
def narrowReturn (i k : Nat) (bs : List Byte) : Mc Unit := do
  let j ← jobOf i
  let m := ngeCmd j.op j.cmd
  let d := gdesc j.desc
  match j.fetches.find? (fun f => f.pend.any (fun x => x.1 == k)) with
  | none => pure ()
  | some f =>
    let piece := ((f.pend.find? (fun x => x.1 == k)).map (·.2)).getD 0
    let f' : NgeFetch := { f with pend := f.pend.filter (fun x => x.1 != k), parts := f.parts ++ [(piece, bs)] }
    let np := (d.row + 31) / 32
    if f'.pend.isEmpty && f'.next == np then
      let row := ((List.range np).flatMap (fun q => ((f'.parts.find? (fun x => x.1 == q)).map (·.2)).getD [])).take d.row
      let units := f'.wants.foldl (fun us w => giveRow us w.1 w.2 row) j.units
      let e := f.u % 2 ^ m.flog
      putJob i { j with
        units
        fetches := j.fetches.filter (· != f)
        filt := if m.flog = 0 then j.filt else tset 0 j.filt e (f.u + 1) }
      if m.flog ≠ 0 then
        atVertex (((j.units.find? (fun u => some u.no == f.wants.head?.map (·.1))).map (·.vertex)).getD 0) false
          (spWrite i 3 (m.filt + e * d.filtRow) row)
    else putJob i { j with fetches := j.fetches.map (fun g => if g = f then f' else g) }

/-- NARROW_READ_RETURN: take the read that has come back, then advance the job. With no such read, as when lines of its arrays have come,
the job goes on. A stalled engine takes nothing. -/
def narrowBack (s : State) (i k : Nat) : State :=
  if (s.pane i).stalled then s
  else
  match s.accs.find? (fun a => a.purpose == .nge i k && a.stage == .got && a.flt.isNone) with
  | none => ngeGo s i
  | some a =>
    match runMc (narrowReturn i k a.data) (dropAcc s a.id) with
    | (.ok _, s') => ngeGo s' i
    | (.error e, s') => ngeStop s' i e

/-- NARROW_READ_RETURN. -/
def execNarrowReadReturn (i k : Nat) (s : State) : Host.Outcome State Fault Refusal :=
  answer s (okPane i) (settle (narrowBack s i k))

/-! ### Commands -/

/-- Units a resumed command has written already. -/
def ngeStart (i : Nat) : Mc Nat := do
  let s ← get
  pure (tget 0 (s.pane i).seq.progress 3)

/-- Bytes of the aggregation area of Table 5-5: vertex slots and, with a hub list, one hub-combine slot. -/
def aggArea (cls agg tlog felem slots : Nat) (hub : Bool) : Nat :=
  if agg = 5 then 0
  else
    let v := if agg = 3 ∨ agg = 4 then 16 * felem
      else if cls = 1 then 4 * felem * (tlog + 1) + 2 * felem else if cls = 2 then 82 * felem else 6 * felem
    let h := if agg = 3 ∨ agg = 4 then 16 * felem
      else if cls = 1 then 4 * felem * 24 + 2 * felem else if cls = 2 then 82 * felem else 6 * felem
    slots * pad64 v + (if hub then pad64 h else 0)

/-- The aggregation area holds work in a form the manual does not give: its bytes are free values from the command's start
(R163, log entry 7, DESIGN CHOICE). -/
def useAggArea (i a n : Nat) (eng : Nat := 3) : Mc Unit := do
  let s ← get
  let (bs, s) := s.freeBytes n
  set s
  spWrite i eng a bs

/-- Are the filter rows within the claim? -/
def filtClaim (t : Task) (m : NgeCmd) (d : GDesc) : Bool := m.flog == 0 || inClaim t m.filt (2 ^ m.flog * d.filtRow)

/-- The body of a GATHER: fields, descriptor, aggregation and output checks, claims, range (R580); then its units. Log entry 42, DEDUCED. -/
def gatherBody (i c : Nat) : Mc Bool := do
  let m := ngeCmd 1 c
  failIf (cbits c 16 63 40 != 0 || cbits c 24 31 24 != 0 || cbits c 28 31 22 != 0 || cbits c 32 31 24 != 0 || cbits c 36 31 24 != 0
    || cbits c 40 31 24 != 0 || cbits c 44 31 28 != 0 || cbits c 48 31 24 != 0 || cbytes c 72 8 != 0) 0x40
  failIf (m.num == 0 || badTlog (cbits c 28 15 11) || decide (12 < m.flog)) 0x40
  let t ← curTask i
  let ds ← readDesc i t.ctx (cbytes c 8 8)
  let d := gdesc ds
  let rowOut := d.felem * (fmtBits m.ofmt / 8)
  let pan := panelBytes m.ofmt (up64 d.felem)
  failIf (decide (5 < m.agg) || (m.agg == 1 && !d.wten)) 0x48
  if m.agg = 5 then
    failIf (m.out % 8 != 0 || m.panels) 0x48
  else
    failIf (if m.pick then m.ofmt != d.ffmt && m.ofmt != 0 else decide (4 < m.ofmt)) 0x48
    failIf (if m.panels then m.out % 128 != 0 || m.ostride % 128 != 0 || decide (m.ostride < pan)
      else m.out % 64 != 0 || m.ostride % 64 != 0 || decide (m.ostride < rowOut)) 0x48
    failIf (m.aggaddr % 64 != 0 || (m.flog != 0 && m.filt % 64 != 0) || (m.pick && m.idxout % 64 != 0)) 0x48
  failIf (m.hublist != 0 && m.hubpart % 64 != 0) 0x48
  let area := aggArea t.dclass m.agg m.tlog d.felem m.vwin (m.hublist != 0)
  failIf (if m.agg = 5 then !inClaim t m.out (8 * m.num)
    else !inClaim t m.aggaddr area || !filtClaim t m d || (m.pick && !inClaim t m.idxout (8 * d.felem * m.num))
      || (if m.panels then (List.range ((m.num + 63) / 64)).any (fun k => !inClaim t (m.out + k * m.ostride) pan)
          else (List.range m.num).any (fun k => !inClaim t (m.out + k * m.ostride) rowOut))) 0x06
  failIf (decide (d.nv < m.vbeg + m.num)) 0x43
  let k0 ← ngeStart i
  if m.agg = 5 then
    for k in (List.range m.num).drop k0 do
      let (_, n) ← atVertex (m.vbeg + k) false (readPtr i t.ctx d (m.vbeg + k))
      spWrite i 3 (m.out + 8 * k) (leBytes 8 n)
      cnt i 0x2010 1
    modify (fun s => s.modPane i (fun p => { p with seq := { p.seq with progress := tset 0 (tset 0 p.seq.progress 3 0) 103 0 } }))
    pure true
  else
    useAggArea i m.aggaddr area
    let h ← if m.hublist = 0 then pure 0 else (do
      let hd ← hubHead i t.ctx m.hublist
      hubSearch i t.ctx m.hublist (m.vbeg + k0) 33 0 (field hd 12 4))
    startJob i { cmd := c, op := 1, cls := t.dclass, next := k0, last := m.num, done := k0, desc := ds, segs := [], hub := h,
                 units := [], fetches := [], filt := [], seq := 0 }

/-- GATHER aggregates the neighbour rows of a range of vertices. -/
def execGather (i c : Nat) (s : State) : Host.Outcome State Fault Refusal :=
  answer s (okPane i) (runNge s i c 1 80 (gatherBody i c))

/-- The segments that a rank takes from a hub list, in ascending order: vertex, segment, global number. -/
def takenSegs (i ctx a tlog gsize grank n : Nat) : Mc (List (Nat × Nat × Nat)) := do
  let xs ← (List.range n).mapM (fun h => do
    let (v, deg, seg0) ← hubEntry i ctx a h
    let k ← atVertex v false (segCount deg tlog)
    pure ((List.range k).filterMap (fun sg => if (seg0 + sg) % gsize = grank then some (v, sg, seg0 + sg) else none)))
  pure xs.flatten

/-- The body of a SEGGATHER. Log entry 42, DEDUCED. -/
def seggatherBody (i c : Nat) : Mc Bool := do
  let m := ngeCmd 2 c
  let gsize := cbits c 36 15 0
  let grank := cbits c 36 31 16
  failIf (cbits c 32 31 5 != 0 || cbits c 40 31 24 != 0 || cbits c 44 31 28 != 0 || cbits c 52 31 28 != 0 || cbytes c 56 8 != 0) 0x40
  failIf (gsize == 0 || decide (gsize ≤ grank) || decide (12 < m.flog)) 0x40
  let t ← curTask i
  let ds ← readDesc i t.ctx (cbytes c 8 8)
  let d := gdesc ds
  failIf (decide (4 < m.agg) || (m.agg == 1 && !d.wten) || m.hubpart % 64 != 0 || m.aggaddr % 64 != 0 || (m.flog != 0 && m.filt % 64 != 0)) 0x48
  let hd ← hubHead i t.ctx m.hublist
  let tlog := bits (field hd 8 4) 28 24
  let area := aggArea t.dclass m.agg tlog d.felem 1 false
  failIf (!inClaim t m.aggaddr area || !filtClaim t m d) 0x06
  useAggArea i m.aggaddr area
  let segs ← takenSegs i t.ctx m.hublist tlog gsize grank (field hd 12 4)
  let k0 ← ngeStart i
  startJob i { cmd := c, op := 2, cls := t.dclass, next := k0, last := segs.length, done := k0, desc := ds, segs, hub := tlog,
               units := [], fetches := [], filt := [], seq := 0 }

/-- SEGGATHER forms the segment partials of its rank. -/
def execSeggather (i c : Nat) (s : State) : Host.Outcome State Fault Refusal :=
  answer s (okPane i) (runNge s i c 2 64 (seggatherBody i c))

/-- Hubs of a range in vertex order: vertex and degree. -/
def scanHubs (i ctx : Nat) (d : GDesc) (tlog v0 n : Nat) : Mc (List (Nat × Nat × Nat)) := do
  let xs ← (List.range n).mapM (fun k => atVertex (v0 + k) false (do
    let (_, deg) ← readPtr i ctx d (v0 + k)
    if 2 ^ tlog < deg then
      let sg ← segCount deg tlog
      pure [(v0 + k, deg, sg)]
    else pure []))
  pure xs.flatten

/-- Hub-list entries with their first segments. -/
def hubBytes : Nat → List (Nat × Nat × Nat) → List Byte
  | _, [] => []
  | seg0, (v, n, sg) :: rest => leBytes 5 v ++ leBytes 5 n ++ leBytes 4 seg0 ++ leBytes 2 0 ++ hubBytes (seg0 + sg) rest

/-- The body of a DEGSCAN (R166): its writes reach memory in the order in which they are posted, the header last. Log entry 42, DEDUCED. -/
def degscanBody (i c : Nat) : Mc Bool := do
  let vbeg := cbits c 16 39 0
  let n := cbits c 24 23 0
  let traw := cbits c 24 28 24
  let tlog := tlogOf traw
  let cap := cbytes c 28 4
  let list := cbytes c 32 8
  failIf (cbits c 16 63 40 != 0 || cbits c 24 31 29 != 0 || cbytes c 40 8 != 0) 0x40
  failIf (n == 0 || badTlog traw) 0x40
  failIf (list % 64 != 0) 0x44
  let t ← curTask i
  let ds ← readDesc i t.ctx (cbytes c 8 8)
  let d := gdesc ds
  failIf (decide (d.nv < vbeg + n)) 0x43
  let hubs ← scanHubs i t.ctx d tlog vbeg n
  let kept := hubs.take cap
  postPart i t.ctx 0 3 0 (list + 0x40) (hubBytes 0 kept)
  postPart i t.ctx 0 3 0 list (leBytes 8 vbeg ++ leBytes 4 (n + tlog * 2 ^ 24) ++ leBytes 4 kept.length
    ++ leBytes 4 ((kept.map (fun x => x.2.2)).foldl (· + ·) 0) ++ leBytes 44 0)
  match hubs.drop cap with
  | [] => pure true
  | x :: _ => atVertex x.1 false (fault 0x44)

/-- DEGSCAN lists the hubs of a range. -/
def execDegscan (i c : Nat) (s : State) : Host.Outcome State Fault Refusal :=
  answer s (okPane i) (runNge s i c 3 48 (degscanBody i c))

/-- The body of a SEQSTAGE (R175, R176). Log entry 42, DEDUCED. -/
def seqstageBody (i c : Nat) : Mc Bool := do
  let m := ngeCmd 4 c
  let p0 := cbits c 24 23 0
  failIf (cbits c 16 63 40 != 0 || cbits c 24 31 24 != 0 || cbits c 28 31 19 != 0 || cbits c 32 31 24 != 0 || cbits c 36 31 24 != 0
    || cbits c 40 31 28 != 0 || cbytes c 44 4 != 0) 0x40
  failIf (m.num == 0 || decide (4096 < m.num) || decide (12 < m.flog)) 0x40
  let t ← curTask i
  let ds ← readDesc i t.ctx (cbytes c 8 8)
  let d := gdesc ds
  let np := if m.panels then (d.felem + cbits c 28 14 14 + 63) / 64 else (m.num + 63) / 64
  let pan := panelBytes m.ofmt (up64 (if m.panels then m.num else d.felem))
  failIf (decide (4 < m.ofmt) || m.out % 128 != 0 || m.ostride % 128 != 0 || decide (m.ostride < pan) || (m.flog != 0 && m.filt % 64 != 0)) 0x48
  failIf (!filtClaim t m d || (List.range np).any (fun k => !inClaim t (m.out + k * m.ostride) pan)) 0x06
  atVertex m.vbeg false (failIf (!d.ordered) 0x47)
  atVertex m.vbeg false (failIf (decide (d.nv ≤ m.vbeg)) 0x43)
  let (_, n) ← atVertex m.vbeg false (readPtr i t.ctx d m.vbeg)
  atVertex m.vbeg false (failIf (decide (16777216 < n) || decide (n ≤ p0)) 0x47)
  let k0 ← ngeStart i
  startJob i { cmd := c, op := 4, cls := t.dclass, next := k0, last := min m.num (n - p0), done := k0, desc := ds, segs := [],
               hub := 0, units := [], fetches := [], filt := [], seq := 0 }

/-- SEQSTAGE stages positions of an ordered sequence as operand panels. -/
def execSeqstage (i c : Nat) (s : State) : Host.Outcome State Fault Refusal :=
  answer s (okPane i) (runNge s i c 4 48 (seqstageBody i c))

/-! ### SEQSOFT (R177 to R179) -/

/-- Is a query and key pair masked? -/
def seqMasked (mode win lenm1 q k : Nat) : Bool :=
  decide (lenm1 < q) || decide (lenm1 < k) || (mode == 1 && decide (q < k))
    || (mode == 2 && (decide (q < k) || decide (k + win < q + 1)))

/-- The scaled score. -/
def scaled (scale x : Nat) : Nat := roundF32 (FV.mul (f32 scale) (f32 x))

/-- One probability as BF16 bits. -/
def prob (x m : Nat) : Nat :=
  if f32 x = .inf true then 0
  else (fround (fmtOf 2) false (FV.exp (f32 (roundF32 (FV.sum (f32 x) (f32 m).neg))))).1

/-- The body of a SEQSOFT. A misaligned address takes code 0x48, and PADDR, which the maximum pass does not use, is checked in the exponent
pass alone. Log entry 132, DESIGN CHOICE. -/
def seqsoftBody (i c : Nat) : Mc Bool := do
  let sa := cbits c 8 23 0
  let q0 := cbits c 12 23 0
  let mode := cbits c 12 25 24
  let expo := cbits c 12 26 26 == 1
  let k0 := cbits c 16 23 0
  let lenm1 := cbits c 20 23 0
  let scale := cbytes c 24 4
  let win := cbits c 28 12 0
  let sta := cbits c 32 23 0
  let pa := cbits c 36 23 0
  failIf (cbits c 8 31 24 != 0 || cbits c 12 31 27 != 0 || cbits c 16 31 24 != 0 || cbits c 20 31 24 != 0 || cbits c 28 31 13 != 0
    || cbits c 32 31 24 != 0 || cbits c 36 31 24 != 0 || cbytes c 40 8 != 0) 0x40
  failIf (mode == 3 || (mode == 2 && (win == 0 || decide (4096 < win)))) 0x40
  failIf (sa % 64 != 0 || !(f32 scale).isFin || sta % 64 != 0 || (expo && pa % 128 != 0)) 0x48
  failIf (mode != 2 && decide (2 ^ 20 ≤ lenm1)) 0x47
  let t ← curTask i
  failIf (!inClaim t sa 16384 || !inClaim t sta 256 || (expo && !inClaim t pa 8192)) 0x06
  let sc ← spRead i 3 sa 16384
  let st ← spRead i 3 sta 256
  let x := fun (a b : Nat) => scaled scale (field sc (256 * a + 4 * b) 4)
  let masked := fun (a b : Nat) => seqMasked mode win lenm1 (q0 + a) (k0 + b)
  if expo then
    spWrite i 3 pa ((List.range 64).flatMap (fun b => (List.range 64).flatMap (fun a =>
      leBytes 2 (if masked a b then 0 else prob (x a b) (field st (4 * a) 4)))))
  else
    spWrite i 3 sta ((List.range 64).flatMap (fun a =>
      leBytes 4 ((List.range 64).foldl (fun mx b => if masked a b then mx else pickMax true mx (x a b)) (field st (4 * a) 4))))
  pure true

/-- SEQSOFT runs one softmax pass over a score tile. -/
def execSeqsoft (i c : Nat) (s : State) : Host.Outcome State Fault Refusal :=
  answer s (okPane i) (runNge s i c 5 48 (seqsoftBody i c))

end Sys2Proof.Machine
end

