-- ==== Sys2Proof/Machine/Remote.lean ====
section
/-! DEFINITION. Requests of other devices and of the companion, and the responses to this device's own (R414 to R419, R434 to
R440, R443, R444). -/

namespace Sys2Proof.Machine

open Sys2Proof

/-! ### Requests served as memory accesses (R416) -/

/-- Parts of a range of bytes that lie in one 64-byte line each. -/
def lineParts : Nat → Nat → Nat → List (Nat × Nat)
  | 0, _, _ => []
  | fuel + 1, a, n =>
    if n = 0 then []
    else
      let k := min n (64 - a % 64)
      (a, k) :: lineParts fuel (a + k) (n - k)

/-- The accesses of one request that bay `b`'s XE makes: to its own stack at once, else over a lintel in the remote class of its
slots (R62). -/
def serveParts (s : State) (b ctx : Nat) (sys : Bool) (purpose : Purpose) (op : AccOp) (pa : Nat) (data : List Byte)
    (parts : List (Nat × Nat)) : State :=
  let grp := s.accSeq
  parts.foldl (fun s (p : Nat × Nat) =>
    pushAcc s
      { isPane := false, owner := b, eng := 6, bay := b, ctx, sys, op, pa := p.1, len := p.2,
        data := (data.drop (p.1 - pa)).take p.2, cls := 2, stage := if bayOfPa s p.1 = b then .chan else .reqOut, purpose, grp }) s

/-- A request that Table 12-11 does not allow is discarded and logged. Log entry 47, DEDUCED. -/
def badRequest (s : State) (b : Nat) (m : List Byte) : State :=
  logE s 0x07 2 b (field (mBody m) 0 8) (detail 0 (mCtx m)) (mType m)

/-- RDREQ, WRREQ and ATOMIC at the target. Log entry 47, DEDUCED. Log entry 114, DEDUCED. -/
def serveRequest (s : State) (b : Nat) (m : List Byte) : State :=
  let body := mBody m
  let pa := localPa (field body 0 8)
  let t := mType m
  let go := fun (op : AccOp) (data : List Byte) (parts : List (Nat × Nat)) =>
    serveParts s b (mCtx m) false (.remote m) op pa data parts
  if badCtx m then answerReq s b m 1
  else if t = 1 then
    let n := field body 8 4
    if body.length ≠ 16 ∨ n % 32 ≠ 0 ∨ n = 0 ∨ 1024 < n then badRequest s b m else go .read [] (lineParts 33 pa n)
  else if t = 2 then
    let d := body.drop 8
    if d.length < 4 ∨ 1024 < d.length then badRequest s b m else go .write d (lineParts 33 pa d.length)
  else
    let op := field body 8 4
    if op = 0 ∧ pa % 64 = 0 ∧ body.length = 80 then go (.add (field body 12 4 % 256)) (body.drop 16) [(pa, 64)]
    else if op = 1 ∧ pa % 128 = 0 ∧ body.length = 96 then go .addLong (body.drop 16) [(pa, 80)]
    else badRequest s b m

/-- Take the next request of a type. -/
def takeRequest (s : State) (b t : Nat) : State :=
  match takeX s b t with
  | none => s
  | some (m, s) => serveRequest s b m

/-- RDREQ. -/
def execRdreq (b : Nat) (s : State) : Host.Outcome State Fault Refusal := answer s (okBay b) (settle (takeRequest s b 1))
/-- WRREQ. -/
def execWrreq (b : Nat) (s : State) : Host.Outcome State Fault Refusal := answer s (okBay b) (settle (takeRequest s b 2))
/-- ATOMIC. -/
def execAtomic (b : Nat) (s : State) : Host.Outcome State Fault Refusal := answer s (okBay b) (settle (takeRequest s b 3))

/-- Bay `b` answers a message of the companion (R433). -/
def answerHost (s : State) (b f : Nat) (m : List Byte) (mtype status : Nat) (body : List Byte) : State :=
  replyHost s b f 1 (s.hostMsg (mDbay m) mtype 0 (mTag m) status body)

/-- Once every part of a request is done it is answered: its data, or the status and address of the first part that failed
(R417). -/
def finishGroup (s : State) (a : Access) : State :=
  let xs := (s.accs.filter (fun x => x.grp == a.grp && x.purpose == a.purpose)).insertionSort (fun x y => x.id ≤ y.id)
  if !(xs.all (fun x => x.stage == .got)) then s
  else
    let s := { s with accs := s.accs.filter (fun x => !(x.grp == a.grp && x.purpose == a.purpose)) }
    let (status, err) := match xs.findSome? (·.flt) with
      | some f => (codeStatus f.code, leBytes 8 (f.addr % 2 ^ 52 + s.chip * 2 ^ 52))
      | none => (0, [])
    let data := xs.flatMap (·.data)
    match a.purpose with
    | .remote m =>
      let body := if status ≠ 0 then err else if mType m = 1 then data else []
      sendX s a.bay 1 (respMsg s a.bay m (mType m + 3) status body)
    | .host f m =>
      if 0x20 ≤ mType m ∧ mType m ≤ 0x22 then answerHost s a.bay f m 0x26 status (if status ≠ 0 then err else data) else s
    | _ => s

/-- A record on its way to a ring has ended: once no part of it is on its way the ring goes on, also when its write was refused.
Log entry 133, DESIGN CHOICE. -/
def ringDone (s : State) (k b : Nat) : State :=
  if ringBusy s k b then s
  else if k = 0 then tfWritten s b else if k = 1 then retWritten s b else noticeWritten s

/-- What an access's end means to its requester. -/
def accEnds (s : State) (a : Access) : State :=
  match a.purpose with
  | .remote _ => finishGroup s a
  | .host _ _ => finishGroup s a
  | .line i => if a.flt.isNone then vecDone (dropAcc s a.id) i else s
  | .none => dropAcc s a.id
  | .put _ _ => if a.flt.isNone then dropAcc s a.id else s
  | .ring k b => ringDone (dropAcc s a.id) k b
  | _ => s

/-- An access ends at its requester. -/
def accGot (s : State) (a : Access) : State := accEnds (setAcc s { a with stage := .got }) { a with stage := .got }

/-- An access ends with a fault: a read run ahead is dropped and counted. -/
def accFails (s : State) (a : Access) (f : Flt) : State :=
  if a.ahead then failAcc s a f else accGot s { a with flt := some f }

/-! ### Responses (R417, R418, R444) -/

/-- A response to a request of the bay, which comes in by the lintel of its rim die (R56, R576); one that matches none is late. -/
def takeResponse (s : State) (b : Nat) (host : Bool) (m : List Byte) : State :=
  match (s.bay b).xe.reqs.find? (fun r => r.tag == mTag m && r.host == host && r.mtype + 3 == mType m && (host || r.chip == mSchip m)) with
  | none => if host then s.incReg Reg.FLX_LATE else s.incReg (Reg.XE_LATE b)
  | some r =>
    let s := s.modXe b (fun x => { x with reqs := x.reqs.filter (fun q => !(q == r)) })
    match s.accs.find? (fun a => a.id == r.access) with
    | none => s
    | some a =>
      let se := match a.purpose with | .se _ _ _ _ => true | _ => false
      if mStatus m ≠ 0 then
        let s := if 0xC ≤ mStatus m then logE s 0x07 2 b (field (mBody m) 0 8) (detail 0xB0 a.ctx) (mType m) else s
        setAcc s { a with stage := .rspIn (portLintel r.port), flt := some { code := statusCode (mStatus m) se, addr := field (mBody m) 0 8 } }
      else setAcc s { a with stage := .rspIn (portLintel r.port), data := if mType m = 4 then mBody m else a.data }

/-- The next response of a type that has reached the bay, from another device or from the companion. -/
def response (s : State) (b t : Nat) : State :=
  match takeX s b t with
  | some (m, s) => takeResponse s b false m
  | none =>
    match takeFin s b t with
    | some (e, s) => takeResponse s b true e.2
    | none => s

/-- RDRESP. -/
def execRdresp (b : Nat) (s : State) : Host.Outcome State Fault Refusal := answer s (okBay b) (settle (response s b 4))
/-- WRACK. -/
def execWrack (b : Nat) (s : State) : Host.Outcome State Fault Refusal := answer s (okBay b) (settle (response s b 5))
/-- ATACK. -/
def execAtack (b : Nat) (s : State) : Host.Outcome State Fault Refusal := answer s (okBay b) (settle (response s b 6))

/-- The `k`-th request of a kind goes without a response for too long. -/
def requestTimeout (s : State) (b k : Nat) (host : Bool) (code : Nat) : State :=
  match ((s.bay b).xe.reqs.filter (fun r => r.host == host))[k]? with
  | none => s
  | some r =>
    let s := s.modXe b (fun x => { x with reqs := x.reqs.filter (fun q => !(q == r)) })
    let s := if host then s else s.incReg (Reg.XE_TIMEOUT b)
    match s.accs.find? (fun a => a.id == r.access) with
    | none => s
    | some a => accFails s a { code, addr := a.pa }

/-- REMOTE_TIMEOUT: the `k`-th exchange request of the bay has no response after XE_RTMO. -/
def execRemoteTimeout (b k : Nat) (s : State) : Host.Outcome State Fault Refusal :=
  answer s (okBay b) (settle (requestTimeout s b k false 0xB1))

/-- COMPANION_TIMEOUT: the `k`-th request of the bay to the companion has no response after FLX_HTMO. -/
def execCompanionTimeout (b k : Nat) (s : State) : Host.Outcome State Fault Refusal :=
  answer s (okBay b) (settle (requestTimeout s b k true 0xC1))

/-- Is a write or an atomic of a message's flow still to be made here or under way? A later one of the flow counts as well. Log
entry 104, DESIGN CHOICE. -/
def flowWrites (s : State) (m : List Byte) : Bool :=
  let isF := fun (x : List Byte) => mSchip x == mSchip m && mSbay x == mSbay m
  s.accs.any (fun a => match a.purpose with | .remote x => a.op != .read && isF x | _ => false)
    || (List.range 16).any (fun b => (s.bay b).xe.xin.any (fun x => (mType x == 2 || mType x == 3) && isF x))

/-- A SIGNAL of another device takes effect once every earlier write and atomic of its flow can be read (R419). Log entry 114, DEDUCED. -/
def signalMessage (s : State) (b : Nat) : State :=
  match takeX s b 0x0C with
  | none => s
  | some (m, s') =>
    if flowWrites s m then s
    else if badCtx m then
      logE (s'.incReg (Reg.SYN_REFUSED b)) 0x07 2 b (field (mBody m) 0 2) (detail 0x0B (mCtx m)) 0x0C
    else applySignal s' { obj := field (mBody m) 0 2, amount := field (mBody m) 4 4, pane := mSpane m, chip := mSchip m, ctx := mCtx m,
                          task := none, completes := false, guards := [] }

/-- SIGNAL_MESSAGE. -/
def execSignalMessage (b : Nat) (s : State) : Host.Outcome State Fault Refusal := answer s (okBay b) (settle (signalMessage s b))

/-- A write of XE_RTFLUSH. -/
def rtFlush (s : State) (b v : Nat) : State := if bit v 0 then s.modXe b (fun x => { x with routes := [] }) else s

/-- XE_RTFLUSH: bit 0 drops the XE's cached route entries. -/
def execXeRtflush (b v : Nat) (s : State) : Host.Outcome State Fault Refusal :=
  answer s (okBay b) (whenOpen s (Reg.XE_RTFLUSH b) (rtFlush s b v))

/-! ### The companion (R434 to R439, R443) -/

/-- Is a message one of those that a Follux die takes in the order they arrive (R436, R439)? -/
def inOrder (t : Nat) : Bool := decide (0x20 ≤ t ∧ t ≤ 0x25) || decide (0x29 ≤ t ∧ t ≤ 0x2B)

/-- The next in-order message of a die, when it has the type. Log entry 104, DESIGN CHOICE. -/
def takeHost (s : State) (f t : Nat) : Option (List Byte × State) :=
  let p := fun (e : Nat × List Byte) => e.1 == f && inOrder (mType e.2)
  match s.fin.find? p with
  | none => none
  | some e => if mType e.2 = t then some (e.2, { s with fin := eraseFirst p s.fin }) else none

/-- Until READY a message is refused, or discarded, and counted (R443). -/
def early (s : State) (f : Nat) (m : List Byte) (reply : Option Nat) : State :=
  let s := s.incReg (Reg.FLX_EARLY f)
  match reply with
  | some t => answerHost s (finBay s m) f m t 0xA (if t = 0x2C then leBytes 4 0 else leBytes 8 (field (mBody m) 0 8))
  | none => s

/-- A read by the companion: CRDS, CRDO or CRDU. -/
def hostRead (s : State) (f t : Nat) : State :=
  match takeHost s f t with
  | none => s
  | some (m, s) =>
    let pa := localPa (field (mBody m) 0 8)
    let b := finBay s m
    if !s.boot.ready then early s f m (some 0x26)
    else if t = 0x22 then
      let n := field (mBody m) 8 4
      if n % 64 ≠ 0 ∨ n = 0 ∨ 1024 < n then badRequest s 0 m
      else serveParts s b 0 true (.host f m) .read pa [] (lineParts 33 pa n)
    else serveParts s b 0 true (.host f m) .read (pa / 64 * 64) [] [(pa / 64 * 64, 64)]

/-- A write by the companion: CWR or CWB. -/
def hostWrite (s : State) (f t : Nat) : State :=
  match takeHost s f t with
  | none => s
  | some (m, s) =>
    let pa := localPa (field (mBody m) 0 8)
    let d := (mBody m).drop 8
    let b := finBay s m
    if !s.boot.ready then early s f m none
    else if t = 0x24 then
      if d.length ≠ 64 then badRequest s 0 m
      else serveParts s b 0 true (.host f m) .write (pa / 64 * 64) d [(pa / 64 * 64, 64)]
    else if d.length < 4 ∨ 1024 < d.length then badRequest s 0 m
    else serveParts s b 0 true (.host f m) .write pa d (lineParts 33 pa d.length)

/-- A line of the directory becomes Invalid. -/
def dropLine (s : State) (b line : Nat) : State := s.modBay b (fun x => { x with dir := x.dir.filter (fun d => d.line != line) })

/-- Is an access of a die to a line still under way? -/
def hostBusy (s : State) (f line : Nat) : Bool :=
  s.accs.any (fun a => match a.purpose with | .host g _ => g == f && a.pa / 64 * 64 == line | _ => false)

/-- CEVICT: the line becomes Invalid once what the die asked of it before is served. -/
def hostEvict (s : State) (f : Nat) : State :=
  match takeHost s f 0x25 with
  | none => s
  | some (m, s') =>
    let line := localPa (field (mBody m) 0 8) / 64 * 64
    if !s.boot.ready then early s' f m none
    else if hostBusy s f line then s
    else dropLine s' (bayOfPa s line) line

/-- CRDS. -/
def execCrds (f : Nat) (s : State) : Host.Outcome State Fault Refusal := answer s (decide (f < 2)) (settle (hostRead s f 0x20))
/-- CRDO. -/
def execCrdo (f : Nat) (s : State) : Host.Outcome State Fault Refusal := answer s (decide (f < 2)) (settle (hostRead s f 0x21))
/-- CRDU. -/
def execCrdu (f : Nat) (s : State) : Host.Outcome State Fault Refusal := answer s (decide (f < 2)) (settle (hostRead s f 0x22))
/-- CWR. -/
def execCwr (f : Nat) (s : State) : Host.Outcome State Fault Refusal := answer s (decide (f < 2)) (settle (hostWrite s f 0x23))
/-- CWB. -/
def execCwb (f : Nat) (s : State) : Host.Outcome State Fault Refusal := answer s (decide (f < 2)) (settle (hostWrite s f 0x24))
/-- CEVICT. -/
def execCevict (f : Nat) (s : State) : Host.Outcome State Fault Refusal := answer s (decide (f < 2)) (settle (hostEvict s f))

/-- Is every CWR and CWB received earlier on the die's port done (R439)? -/
def hostWritesDone (s : State) (f : Nat) : Bool :=
  !(s.accs.any (fun a => match a.purpose with | .host g _ => g == f && a.op != .read | _ => false))

/-- DOORBELL: a write of BAY_DOORBELL of DBAY. -/
def hostDoorbell (s : State) (f : Nat) : State :=
  match takeHost s f 0x29 with
  | none => s
  | some (m, s') =>
    if !s.boot.ready then early s' f m none
    else if hostWritesDone s f then doorbell s' (mDbay m) (field (mBody m) 0 4) else s

/-- DOORBELL. -/
def execDoorbell (f : Nat) (s : State) : Host.Outcome State Fault Refusal := answer s (decide (f < 2)) (settle (hostDoorbell s f))

/-- The snoop of a line ends: the line is Invalid and what it held goes on. -/
def endSnoop (s : State) (b line : Nat) : State :=
  (dropLine s b line).modBay b (fun x => { x with snoops := x.snoops.filter (fun n => n.line != line) })

/-- Is a message the answer of a die to a snoop? -/
def isSnprsp (f : Nat) (e : Nat × List Byte) : Bool := e.1 == f && mType e.2 == 0x28

/-- Has a write-back of the line crossed its snoop: received before the answer, and not yet applied? -/
def writebackCrossed (s : State) (f line : Nat) : Bool :=
  (s.fin.takeWhile (fun x => !(isSnprsp f x))).any (fun x => mType x.2 == 0x24 && localPa (field (mBody x.2) 0 8) / 64 * 64 == line)
    || s.accs.any (fun a => match a.purpose with | .host _ m => mType m == 0x24 && a.pa / 64 * 64 == line | _ => false)

/-- Is the data of a snoop's answer on its way to the line? -/
def answerWrites (s : State) (line : Nat) : Bool :=
  s.accs.any (fun a => match a.purpose with | .host _ m => mType m == 0x28 && a.pa == line | _ => false)

/-- SNPRSP: modified data is written, in the XE's slots (Table 2-16), and the line becomes Invalid (R434). A write-back of the line
that crossed the snoop is applied first (Table 13-6); an answer to no outstanding snoop is discarded. Log entry 54, DEDUCED. -/
def snoopAnswer (s : State) (f : Nat) : State :=
  match s.fin.find? (isSnprsp f) with
  | none => s
  | some e =>
    let body := mBody e.2
    let line := localPa (field body 0 8) / 64 * 64
    let b := bayOfPa s line
    let s' := { s with fin := eraseFirst (isSnprsp f) s.fin }
    if writebackCrossed s f line then s
    else if !((s.bay b).snoops.any (fun n => n.line == line)) || answerWrites s line then s'
    else if bit (field body 8 4) 0 then serveParts s' b 0 true (.host f e.2) .write line ((body.drop 16).take 64) [(line, 64)]
    else endSnoop s' b line

/-- SNPRSP. -/
def execSnprsp (f : Nat) (s : State) : Host.Outcome State Fault Refusal := answer s (decide (f < 2)) (settle (snoopAnswer s f))

/-- SNOOP_TIMEOUT: the `k`-th snoop of the bay has no answer within 1 ms. -/
def snoopTimeout (s : State) (b k : Nat) : State :=
  match (s.bay b).snoops[k]? with
  | none => s
  | some n => if answerWrites s n.line then s else endSnoop ((logE s 0x16 3 b n.line).incReg Reg.FLX_LOSTLN) b n.line

/-- SNOOP_TIMEOUT. -/
def execSnoopTimeout (b k : Nat) (s : State) : Host.Outcome State Fault Refusal := answer s (okBay b) (settle (snoopTimeout s b k))

end Sys2Proof.Machine
end

