-- ==== Sys2Proof/Machine/Slots.lean ====
section
/-! DEFINITION. Slots of memory channels and of lintel ports (R18 to R20, R32, R33, R55 to R63, R292 to R294, R302, R311, R519), and
tabulation line updates (R209). -/

namespace Sys2Proof.Machine

open Sys2Proof

/-! ### What waits for a slot -/

/-- Stack and channel that serve an access; an address of no region is refused by bay B0's channel 0. -/
def accChan (s : State) (a : Access) : Nat × Nat :=
  match servedAt s (localPa a.pa) with | some (st, c, _) => (st, c) | none => (0, 0)

/-- The entry of a controller's update buffer that an access is in. -/
def updOf (s : State) (b id : Nat) : Option Upd := (s.bay b).mem.upd.find? (fun u => u.acc.id == id || u.more.any (fun x => x.id == id))

/-- Accesses that wait at a channel. -/
def atChan (s : State) (b ch : Nat) : List Access :=
  s.accs.filter (fun a => a.stage == .chan && accChan s a == (b, ch) && (updOf s b a.id).isNone)

/-- Whose channel slots serve an access (R56, R62, R577): its own engine's; for the walker, and for requests of other devices and of
the companion, those of the bay that holds the address. -/
def chanOwner (s : State) (a : Access) : Bool × Nat × Nat :=
  let xe := match a.purpose with | .remote _ => true | .host _ _ => true | _ => false
  if a.eng = 8 then (false, (accChan s a).1, 8) else if xe then (false, (accChan s a).1, 6) else (a.isPane, a.owner, a.eng)

/-- Is an access traffic of a pane's switch, which every slot that names the pane carries (R66)? -/
def ofSwitch (a : Access) : Bool := match a.purpose with | .sw _ _ => true | _ => false

/-- Does a channel's entry serve an access? -/
def chanNames (s : State) (e : Nat) (a : Access) : Bool :=
  if ofSwitch a then bit e 12 && !bit e 11 && bits e 6 0 == a.owner
  else entryNames e (chanOwner s a).1 (chanOwner s a).2.1 (chanOwner s a).2.2

/-- Does a port's entry carry a transfer? -/
def portNames (e : Nat) (a : Access) : Bool :=
  if ofSwitch a then bit e 12 && !bit e 11 && bits e 6 0 == a.owner else entryNames e a.isPane a.owner a.eng

/-- Is an access still on its way to memory? -/
def unserved (a : Access) : Bool :=
  match a.stage with | .rspOut => false | .rspIn _ => false | .got => false | _ => true

/-- Do two accesses touch one line, by physical address, or by the virtual address while the first is not translated? -/
def sameLine (x a : Access) : Bool :=
  if x.stage = .xlate then !a.sys && x.ctx == a.ctx && x.va / 64 == a.va / 64 else x.pa / 64 == a.pa / 64

/-- Does a write of DEGSCAN wait for one that the pane posted before it, since its lines overlap? -/
def degOrder (x a : Access) : Bool :=
  match x.purpose, a.purpose with
  | .put i _, .put j _ => i == j && x.grp / 2 ^ 40 % 256 == 3 && a.grp / 2 ^ 40 % 256 == 3
  | _, _ => false

/-- Must access `a` wait for the older access `x`? The writes and atomics of another device's flow are made in order (R419), and a
read of it after those to its line; the companion's accesses to a line in the order of their die, and a CRDS or CRDO
after an engine write that waits on the line (R436, Table 13-6); an owner's accesses to a line, of which one writes, in its order
(log entry 105, DEDUCED). -/
def after (a x : Access) : Bool :=
  match a.purpose, x.purpose with
  | .remote m, .remote y => x.grp != a.grp && mSchip y == mSchip m && mSbay y == mSbay m && x.op != .read
      && (a.op != .read || sameLine x a)
  | .remote _, _ => false
  | .host f m, .host g _ => mType m != 0x28 && f == g && sameLine x a
  | .host _ m, _ => x.stage == .chan && x.op != .read && x.op != .msg && (mType m == 0x20 || mType m == 0x21) && sameLine x a
  | _, .remote _ => false
  | _, .host _ _ => false
  | _, _ => x.isPane == a.isPane && x.owner == a.owner && (x.op != .read || a.op != .read) && x.op != .msg
      && (sameLine x a || degOrder x a)

/-- May an access be served now: nothing that it must follow waits, its granule is not being copied (R311), its line is not between
an update's read and write, unless it reads, and its answer has room on its way back (R33)? Log entry 136, DESIGN CHOICE. -/
def accReady (s : State) (a : Access) : Bool :=
  let (b, _) := accChan s a
  !(s.accs.any (fun x => decide (x.id < a.id) && unserved x && after a x))
    && (match a.purpose with
        | .host _ m => !((mType m == 0x20 || mType m == 0x21) && (s.bay b).snoops.any (fun n => n.line == a.pa / 64 * 64))
        | _ => true)
    && (match mapAddr s (localPa a.pa) with | some (_, ch, off) => !beingCopied (s.bay b).mem ch off | none => true)
    && (a.op == .read || !((s.bay b).mem.upd.any (fun u => sameLine u.acc a)))
    && (a.bay == b || decide ((s.accs.filter (fun x => x.stage == .rspOut && (accChan s x).1 == b)).length < 384))

/-- Deadline of a stream access (R63). Log entry 105, DEDUCED. -/
def accDeadline (s : State) (a : Access) : Nat × Nat :=
  match a.purpose with
  | .se i st _ _ => ((streamOf s i st).dry, st)
  | _ => (0, 0)

/-- The access an engine sends first: earliest deadline, then stream index, then age. Log entry 105, DEDUCED. -/
def firstOf (s : State) (as : List Access) : Option Access :=
  as.foldl (fun (c : Option Access) a => match c with
    | none => some a
    | some x =>
      let da := accDeadline s a
      let dx := accDeadline s x
      if da.1 < dx.1 ∨ (da.1 = dx.1 ∧ da.2 < dx.2) then some a else some x) none

/-- The step counter of an entry's owner in a table: key (kind * 32 + instance) * 256 + pane number, or 128 + bay. -/
def stepKey (kind inst e : Nat) : Nat := (kind * 32 + inst) * 256 + (if bit e 11 then 128 + bits e 6 3 else bits e 6 0)

/-- The slot that comes up: index, entry, class and whether it is skipped or idle; the frame moves on, and the owner's counter with it,
used or not (R60, R61). -/
def nextSlot (s : State) (b kind inst : Nat) (skip : Nat → Bool) : Nat × Nat × Nat × Bool × State :=
  let j := tget 0 (s.bay b).framePos (kind * 32 + inst)
  let e := slotEntry s b kind inst j
  let k := tget 0 (s.bay b).stepCtr (stepKey kind inst e)
  let (rd, wr, rm) := entryShares s e (kind != 0)
  let s := s.modBay b (fun x => { frameStep x kind inst with
    stepCtr := if bit e 12 then tset 0 x.stepCtr (stepKey kind inst e) ((k + 1) % 64) else x.stepCtr })
  (j, e, slotClass rd wr rm k, skip j || !bit e 12, s)

/-- An access that its slot table does not allow is refused (R59): its task faults, and a refused access of a pane with no task
counts alone. Log entry 134, DESIGN CHOICE. Log entry 22, DESIGN CHOICE. Log entry 115, DESIGN CHOICE. -/
def refuseAcc (s : State) (kind slot : Nat) (a : Access) : State :=
  let src := { readSrc s ((accInst a).getD 0) a { code := 5 } with kind, slot }
  let s := dropAcc s a.id
  let only := s.incReg (Reg.BAY_VIOL a.bay)
  match a.purpose, accInst a with
  | .put _ t, _ => (match s.taskOf t with | some x => if x.st = .faulted then only else taskFault s t 0x05 src | none => only)
  | _, some i => paneFault s i 0x05 src
  | _, none => only

/-- Does the check of R59 meet an access: one of a pane, or of a bay engine for a command of a pane's task? What the walker, the XE
for other devices, or a table engine as an owner asks for waits. Log entry 134, DESIGN CHOICE. -/
def checked (a : Access) : Bool := !ofSwitch a && (a.isPane || (a.eng != 8 && (accInst a).isSome))

/-- The requests of panes that hold no slot in the frame of a resource fault their tasks (R59). Log entry 22, DESIGN CHOICE. -/
def violations (s : State) (kind slot : Nat) (as : List Access) : State := as.foldl (fun s a => refuseAcc s kind slot a) s

/-! ### Memory channels -/

/-- An access moves on: it is the last to have come where it now stands. -/
def moveLast (s : State) (a : Access) : State := { s with accs := s.accs.filter (fun x => x.id != a.id) ++ [a] }

/-- The result of an access at its controller: to its requester in the same bay at once, else back over a lintel. -/
def accAnswer (s : State) (a : Access) (data : List Byte) (f : Option Flt) : State :=
  let a := { a with data, flt := f, rim := none, sent := 0, fails := 0 }
  let far := a.bay != (accChan s a).1
  match f with
  | some x => if far && !a.ahead then moveLast s { a with stage := .rspOut } else accFails s a x
  | none => if far then moveLast s { a with stage := .rspOut } else accGot s a

/-- Lines of a set of the directory, oldest first. -/
def dirSet (s : State) (b line : Nat) : List DirLine := (s.bay b).dir.filter (fun d => d.line / 64 % 4096 == line / 64 % 4096)

/-- A companion access at the controller: refusals and the check code, and the directory as Table 13-3 moves it. A CRDS or
CRDO that finds its set full waits for a snoop of the set's oldest line; a CWB of a line not Owned writes nothing. The data of a
snoop's answer ends the snoop. Log entry 51, DEDUCED. -/
def hostServe (s : State) (a : Access) (m : List Byte) : State :=
  let line := a.pa / 64 * 64
  let b := bayOfPa s a.pa
  match paRefusal s a.pa with
  | some c => accAnswer (if mType m = 0x28 then endSnoop s b line else s) a [] (some { code := c, addr := a.pa })
  | none =>
    let d := dirLine s b line
    if a.op != .read then
      if mType m = 0x24 then
        match d with
        | some x => if x.owned then accAnswer (dropLine (storeBytes s a.pa a.data) b line) a [] none else accAnswer s a [] none
        | none => accAnswer s a [] none
      else if mType m = 0x28 then accAnswer (endSnoop (storeBytes s a.pa a.data) b line) a [] none
      else accAnswer (storeBytes s a.pa a.data) a [] none
    else if (mType m == 0x20 || mType m == 0x21) && d.isNone && decide (16 ≤ (dirSet s b line).length) then
      match (dirSet s b line).head? with
      | some x => sendSnoop s b x.line
      | none => s
    else
      let (s, f) := readErrors s a.pa a.len 0 s.chip
      match f with
      | some x => accAnswer s a [] (some x)
      | none =>
        let s :=
          if mType m = 0x20 then (if d.isNone then s.modBay b (fun x => { x with dir := x.dir ++ [{ line, owned := false }] }) else s)
          else if mType m = 0x21 then
            if d.isNone then s.modBay b (fun x => { x with dir := x.dir ++ [{ line, owned := true }] })
            else s.modBay b (fun x => { x with dir := x.dir.map (fun y => if y.line = line then { y with owned := true } else y) })
          else s
        accAnswer s a (eccBytes s.dram s.dramErr a.pa a.len) none

/-- The device that an access serves. -/
def chipOf (s : State) (a : Access) : Nat := match a.purpose with | .remote m => mSchip m | _ => s.chip

/-- Run an operation on local memory that P3 does not refuse. Log entry 83, DEDUCED. -/
def runAwake {α : Type} (m : Mc α) (s : State) : Except Stop α × State :=
  let (r, t) := runMc m { s with pwr := { s.pwr with st := 0 } }
  (r, { t with pwr := { t.pwr with st := s.pwr.st } })

/-- Is an access one of a running attestation, which P3 serves (Table 16-10)? Log entry 83, DEDUCED. -/
def ofAttest (s : State) (a : Access) : Bool :=
  a.purpose == .fetch (.ctl .service) && match s.sec.run with | some (c, _) => c == 4 | none => false

/-- What the controller does for an access, with its outcome: done, failed, a snoop first, or an owner line first (R339). -/
def atController {α : Type} (s : State) (a : Access) (m : Mc α) (onOk : α → State → State) : State :=
  match (if ofAttest s a then runAwake m s else runMc m s) with
  | (.ok x, s) => onOk x s
  | (.error (.flt f), s) => accAnswer s a (if a.op == .read then [] else a.data) (some f)
  | (.error (.snoop sb l), _) => sendSnoop s sb l
  | (.error (.need ns), _) => postNeeds s ns
  | (.error _, s) => s

/-- Serve an access at its controller. The line of an update or an atomic is read into the update buffer (R209); one of more than 64
bytes takes two slots. -/
def serveAcc (s : State) (b : Nat) (a : Access) : State :=
  let pa := localPa a.pa
  if 64 * (a.sent + 1) < a.len then setAcc s { a with sent := a.sent + 1 }
  else match a.purpose, a.op with
  | .host _ m, _ => hostServe s a m
  | _, .read => atController s a (if a.sys then memRead pa a.len 0 else ctxRead a.ctx pa a.len (chipOf s a) a.oldOwner) (fun d s => accAnswer s a d none)
  | _, .write => atController s a (if a.sys then memWrite pa a.data else ctxWrite a.ctx pa a.data a.oldOwner) (fun _ s => accAnswer s a a.data none)
  | _, .writeM mask => atController s a (ctxWriteM a.ctx pa mask a.data a.oldOwner) (fun _ s => accAnswer s a a.data none)
  | _, .msg => s
  | _, _ => atController s a (ctxRead a.ctx pa a.len (chipOf s a) a.oldOwner) (fun d s =>
      s.modMem b (fun m => { m with upd := m.upd ++ [{ acc := { a with sent := 0 }, old := d }] }))

/-- The bytes after an update. -/
def updated (a : Access) (old : List Byte) : List Byte :=
  match a.op with
  | .add mask => (List.range 8).flatMap (fun k =>
      leBytes 8 (if bit mask k then (field old (8 * k) 8 + field a.data (8 * k) 8) % 2 ^ 64 else field old (8 * k) 8))
  | _ => leBytes 80 (LongEl.add (LongEl.ofBits (leNat old)) (LongEl.ofBits (leNat a.data))).1.toBits

/-- Does an access update memory in place? -/
def isUpdate (a : Access) : Bool := match a.op with | .add _ => true | .addLong => true | _ => false

/-- Updates that have come to a channel for a line in the update buffer merge into it, once the controller admits them (R209). -/
def mergeUpdates (s : State) (b ch : Nat) : State :=
  ((atChan s b ch).filter isUpdate).foldl (fun s a =>
    match (s.bay b).mem.upd.find? (fun u => u.acc.pa == a.pa && u.acc.len == a.len) with
    | none => s
    | some u =>
      let pa := localPa a.pa
      atController s a (do
        match paRefusal s pa with
        | some c => fault c pa
        | none => checkOwner a.ctx pa a.oldOwner) (fun _ s =>
          s.modMem b (fun m => { m with upd := m.upd.map (fun x => if x.acc.id = u.acc.id then
            { x with more := x.more ++ [a], new := x.new.map (updated a) } else x) }))) s

/-- Updates computed whose lines can be written in a channel's slots. -/
def updWrites (s : State) (b ch : Nat) : List Access :=
  ((s.bay b).mem.upd.filter (fun u => u.new.isSome && accChan s u.acc == (b, ch))).map (fun u => { u.acc with op := .write })

/-- Write a computed update's line, a companion's copy of which is snooped first, and answer every access in it (R209, R434). What the
controller has accepted is not checked again (R306). -/
def writeUpd (s : State) (b : Nat) (u : Upd) : State :=
  let pa := localPa u.acc.pa
  match (linesIn pa u.acc.len).find? (fun l => (dirLine s b l).isSome), u.new with
  | some l, _ => sendSnoop s b l
  | none, some d =>
    if 64 * (u.acc.sent + 1) < u.acc.len then
      s.modMem b (fun m => { m with upd := m.upd.map (fun x => if x.acc.id = u.acc.id then { x with acc := { x.acc with sent := 1 } } else x) })
    else
      let s := (storeBytes s pa d).modMem b (fun m => { m with upd := m.upd.filter (fun x => x.acc.id != u.acc.id) })
      (u.acc :: u.more).foldl (fun s x =>
        match s.accs.find? (fun a => a.id == x.id) with
        | some a => accAnswer s a a.data none
        | none => s) s
  | none, none => s

/-- Serve what a slot has been given to: an access, or the write of an update. -/
def serveOne (s : State) (b : Nat) (a : Access) : State :=
  match updOf s b a.id with
  | some u => writeUpd s b u
  | none => serveAcc s b a

/-- Is an access of a slot's class: the line of an update is read first (R209); a switch uses any class (R66)? -/
def classFits (cls : Nat) (a : Access) : Bool :=
  if ofSwitch a then true
  else match a.op with | .write => cls == 1 | .writeM _ => cls == 1 | _ => cls == 0

/-- An idle slot reads the next location of the scrub (R302); the companion directory plays no part. Log entry 54, DEDUCED. -/
def scrub (s : State) (b ch : Nat) : State :=
  if !(bit (s.regN (Reg.MEM_CTRL b)) 1) || !(s.bay b).mem.ready then s
  else
    let k := tget 0 (s.bay b).mem.scrubPos ch
    let s := s.modMem b (fun m => { m with scrubPos := tset 0 m.scrubPos ch ((k + 1) % (chanBytes / 64)) })
    match addrAt s b ch (64 * k) with
    | some pa => if (paRefusal s pa).isNone then (readErrors s pa 64 0 s.chip).1 else s
    | none => s

/-- An idle slot: the evacuation reads its next line from the failed channel, or writes it to its new place (R311); else the scrub
goes on. Log entry 122, DESIGN CHOICE. -/
def idleSlot (s : State) (b ch : Nat) : State :=
  let m := (s.bay b).mem
  match m.evac with
  | some (c, false, true) =>
    if evacLines ≤ m.evacPos then scrub s b ch
    else if ch = c ∧ !m.evacHeld then s.modMem b (fun m => { m with evacHeld := true })
    else if ch = evacTo m c ∧ m.evacHeld then
      (evacLine s b c (64 * m.evacPos)).modMem b (fun m => { m with evacPos := m.evacPos + 1, evacHeld := false })
    else scrub s b ch
  | _ => scrub s b ch

/-- Is a memory-channel slot skipped: a shutter, a removed channel, memory hold at odd slots, a stack not yet
ready? During a reset of the stack accesses do not wait: they fault (Table 17-4). -/
def chanSkips (m : MemCtl) (ch slot : Nat) : Bool :=
  (match m.shut with | some x => x.ch == ch | none => false) || m.removed == some ch || (m.hold && slot % 2 == 1) || !m.ready && !m.resetting

/-- An error in a line of a structure that can be refilled: the entry is dropped and the error logged (R519, R520). `kind`: 1 a line of
the hot set, 2 of the TLB, 3 of the walk cache, 4 of the owner cache, 5 a cached route. Log entry 135, DESIGN CHOICE. -/
def cacheUpset (s : State) (b kind k mask : Nat) : State :=
  let x := s.bay b
  let held := if kind = 1 then x.te.hot.length else if kind = 2 then x.xlt.tlb.length else if kind = 3 then x.xlt.wc.length
    else if kind = 4 then x.xlt.oc.length else if kind = 5 then x.xe.routes.length else 0
  let hit := match eccRead (mask % 2 ^ 39) with | some (_, c) => c | none => true
  if held ≤ k || !hit then s
  else
    let s := logE s (if (eccRead (mask % 2 ^ 39)).isNone then 0x04 else 0x03) 2 b (kind * 2 ^ 52 + k) (detail (if (eccRead (mask % 2 ^ 39)).isNone then 0xE2 else 0) 0)
    if kind = 1 then s.modTe b (fun t => { t with hot := t.hot.eraseIdx k })
    else if kind = 2 then s.modXlt b (fun t => { t with tlb := t.tlb.eraseIdx k })
    else if kind = 3 then s.modXlt b (fun t => { t with wc := t.wc.eraseIdx k })
    else if kind = 4 then s.modXlt b (fun t => { t with oc := t.oc.eraseIdx k })
    else s.modXe b (fun t => { t with routes := t.routes.eraseIdx k })

/-- Disturbances: flips of stored bits of the channel's words, and of the bay's structures that can be refilled, which an address of
2^52 and more names. Log entry 15, DESIGN CHOICE. Log entry 135, DESIGN CHOICE. -/
def disturb (s : State) (b ch : Nat) (upsets : List (Nat × Nat)) : State :=
  let here := fun (a : Nat) => match servedAt s a with | some (st, c, _) => st == b && c == ch | none => false
  let us := upsets.filter (fun u => u.1 < 2 ^ 52 && here (u.1 / 4 * 4))
  let s := { s with dramErr := eccUpset s.dramErr us, dramMis := aparUpset s.dramMis us }
  (upsets.filter (fun u => 2 ^ 52 ≤ u.1)).foldl (fun s u => cacheUpset s b (u.1 / 2 ^ 52) (u.1 % 2 ^ 52) u.2) s

/-- MEMORY_CHANNEL_SLOT: disturbances strike first; then the slot carries one access of 64 bytes, or one of at most 32 bytes on each
pseudo-channel, or is idle. -/
def chanSlot (s : State) (b ch : Nat) (upsets : List (Nat × Nat)) : State :=
  let s := disturb s b ch upsets
  let (j, e, cls, skip, s) := nextSlot s b 0 ch (chanSkips (s.bay b).mem ch)
  let s := violations s 0 j ((atChan s b ch).filter (fun a =>
    let (p, o, g) := chanOwner s a
    checked a && !holdsSlot s b 0 ch p o g))
  let s := mergeUpdates s b ch
  if skip then s
  else
    let can := fun (s : State) =>
      ((atChan s b ch).filter (fun a => chanNames s e a && classFits cls a && accReady s a))
        ++ (updWrites s b ch).filter (fun a => chanNames s e a && classFits cls a)
    match firstOf s (can s) with
    | none => if (atChan s b ch).any (chanNames s e) then s else idleSlot s b ch
    | some a =>
      let s := serveOne s b a
      if a.len ≤ 32 then
        match firstOf s ((can s).filter (fun x => x.id != a.id && decide (x.len ≤ 32) && x.pa / 32 % 2 != a.pa / 32 % 2)) with
        | some x => serveOne s b x
        | none => s
      else s

/-- MEMORY_CHANNEL_SLOT. -/
def execMemoryChannelSlot (b ch : Nat) (upsets : List (Nat × Nat)) (s : State) : Host.Outcome State Fault Refusal :=
  answer s (okBay b && decide (ch < 32)) (settle (chanSlot s b ch upsets))

/-! ### Tabulation line updates (R209) -/

/-- Is an update waiting to be computed, with its channel in service? -/
def canUpdate (s : State) (b : Nat) (u : Upd) : Bool :=
  u.new.isNone && match (s.bay b).mem.shut with | some x => (accChan s u.acc).2 != x.ch | none => true

/-- LINE_UPDATE: the oldest line read into the update buffer, of a channel in service, is updated by every addition that waits for
it; it is written in the next write-class slot of its owner. Log entry 105, DEDUCED. -/
def lineUpdate (s : State) (b : Nat) : State :=
  match (s.bay b).mem.upd.find? (canUpdate s b) with
  | none => s
  | some u => s.modMem b (fun m => { m with upd := m.upd.map (fun x => if x.acc.id = u.acc.id then
      { x with new := some ((x.acc :: x.more).foldl (fun d a => updated a d) x.old) } else x) })

/-- LINE_UPDATE. -/
def execLineUpdate (b : Nat) (s : State) : Host.Outcome State Fault Refusal := answer s (okBay b) (settle (lineUpdate s b))

/-! ### Lintel ports -/

/-- The bay to which a transfer goes over a lintel. -/
def nextBay (s : State) (a : Access) : Nat :=
  match a.stage, a.purpose with
  | .rspOut, _ => a.bay
  | .rspIn _, _ => a.bay
  | _, .parcel _ => a.dst
  | _, _ => (accChan s a).1

/-- The bay, or 16 and more a port of a rim die, from which a transfer comes. -/
def lastPoint (s : State) (a : Access) : Nat :=
  match a.stage, a.purpose with
  | .rspOut, _ => (accChan s a).1
  | .rspIn _, _ => if a.dev || a.host then 16 + a.dst else (accChan s a).1
  | _, .parcel (.xin p _ _) => 16 + p
  | _, _ => a.bay

/-- Transfers that wait at a port of a bay in one direction (R18, R20, R56, R576). Log entry 46, DEDUCED. -/
def atPort (s : State) (b lintel : Nat) (inward : Bool) : List Access :=
  s.accs.filter (fun a =>
    if inward then (a.stage == .reqIn lintel || a.stage == .rspIn lintel) && nextBay s a == b
    else (a.stage == .reqOut && a.bay == b || a.stage == .rspOut && (accChan s a).1 == b)
      && (match a.rim with | some l => l == lintel | none => !leaves a))

/-- Transfers that no slot of the ports open to them would ever carry. -/
def portViolators (s : State) (b lintel : Nat) (inward : Bool) : List Access :=
  (atPort s b lintel inward).filter (fun a => checked a &&
    if inward then !holdsSlot s b 2 lintel a.isPane a.owner a.eng
    else if leaves a then !holdsSlot s b 1 lintel a.isPane a.owner a.eng
    else (List.range 4).all (fun l => !holdsSlot s b 1 l a.isPane a.owner a.eng))

/-- Bytes of a transfer: writes, messages and read responses carry data. -/
def transferLen (a : Access) : Nat :=
  let rsp := match a.stage with | .rspOut => true | .rspIn _ => true | _ => false
  if (a.op == .read) == rsp then a.len else 16

/-- Entries of 64 bytes that a transfer takes in a crossing queue (R32). -/
def entriesOf (a : Access) : Nat := max 1 ((transferLen a + 63) / 64)

/-- Entries in the crossing queue from a lintel into a bay (Table 1-8), those of a transfer half carried with them. Log entry 46, DEDUCED. -/
def queueIn (s : State) (b lintel : Nat) : Nat :=
  (s.accs.map (fun a =>
    if (a.stage == .reqIn lintel || a.stage == .rspIn lintel) && nextBay s a == b then entriesOf a - a.sent
    else if (a.stage == .reqOut || a.stage == .rspOut) && !leaves a && a.rim == some lintel && nextBay s a == b then a.sent
    else 0)).foldl (· + ·) 0

/-- Entries in the crossing queue to a port's line (Table 1-8). Log entry 46, DEDUCED. -/
def queueOut (s : State) (p : Nat) : Nat := ((s.port p).txq.map (fun q => (q.2.2.length - q.2.1 + 63) / 64)).foldl (· + ·) 0

/-- A mesh link between two switch points of a lintel as a wire group: 32 and above, two directions each, the twelve east–west links
and then the twelve north–south ones. Log entry 103, DESIGN CHOICE. -/
def meshLink (eastWest : Bool) (row col : Nat) (back : Bool) : Nat := 32 + 2 * (if eastWest then 3 * row + col else 12 + 3 * col + row) + b2n back

/-- The mesh links of a route between two switch points: east–west first and then north–south (R19). -/
def meshRoute (src dst : Nat) : List Nat :=
  let (r, c) := (src / 4, src % 4)
  let (r', c') := (dst / 4, dst % 4)
  (List.range 3).flatMap (fun k =>
      (if c ≤ k ∧ k < c' then [meshLink true r k false] else if c' ≤ k ∧ k < c then [meshLink true r k true] else []))
    ++ (List.range 3).flatMap (fun k =>
      (if r ≤ k ∧ k < r' then [meshLink false k c' false] else if r' ≤ k ∧ k < r then [meshLink false k c' true] else []))

/-- The switch point of a bay, or of the rim bay nearest to a port's window die (R21); the manual gives none for a Follux die. -/
def switchPoint (x : Nat) : Option Nat := if x < 16 then some x else if x < 48 then some (rimBay (x - 16)) else none

/-- Is no mesh link of a route held out by its self-test (R521)? -/
def routeOpen (s : State) (lintel src dst : Nat) : Bool :=
  match switchPoint src, switchPoint dst with
  | some a, some b => (meshRoute a b).all (fun g => !linkSkipped s lintel g)
  | _, _ => true

/-- Does what a bay sends to another wait for an older such transfer between the same two, which some slot will carry? -/
def parcelTurn (s : State) (a : Access) : Bool :=
  match a.purpose with
  | .parcel (.xout _ _) => true
  | .parcel (.xin _ _ _) => true
  | .parcel _ => !(s.accs.any (fun x => decide (x.id < a.id) && x.op == .msg && x.bay == a.bay && x.dst == a.dst &&
      (match x.purpose with | .parcel (.xout _ _) => false | .parcel (.xin _ _ _) => false | _ => true)))
  | _ => true

/-- Is a message one that a later message of its flow must find done (R419): a write, an atomic or a chain record? -/
def guarded (t : Nat) (x : List Byte) : Bool := if t = 0x0B then mType x == 0x0B else mType x == 2 || mType x == 3

/-- May a message that has come in reach its bay: a signal or a chain record after what it follows in its flow (R419); a doorbell or
a register access of the companion after the writes that its port received before it (R439)? -/
def mayEnter (s : State) (a : Access) : Bool :=
  match a.purpose with
  | .parcel (.xin p _ m) =>
    let older := fun (f : Nat → List Byte → Bool) => s.accs.any (fun x => decide (x.id < a.id) &&
      match x.purpose with | .parcel (.xin q _ y) => f q y | _ => false)
    let isF := fun (y : List Byte) => mSchip y == mSchip m && mSbay y == mSbay m
    if p < 32 then
      !((mType m == 0x0B || mType m == 0x0C) && mDchip m == s.chip &&
        (older (fun _ y => guarded (mType m) y && isF y)
          || (List.range 16).any (fun b => b != a.dst && (s.bay b).xe.xin.any (fun y => guarded (mType m) y && isF y))))
    else !(decide (0x29 ≤ mType m ∧ mType m ≤ 0x2B) && older (fun q y => q == p && (mType y == 0x23 || mType y == 0x24)))
  | _ => true

/-- Are two accesses both requests, or both responses, at one port? -/
def sameKind (x a : Access) : Bool :=
  x.stage == a.stage

/-- May a transfer cross the port now (R19, R33)? Out of a bay its way is open and its next queue has room; into a bay no transfer of
the same source and destination came before it, and the memory controller's queue has room. Log entry 46, DEDUCED. Log entry 136, DESIGN CHOICE. -/
def mayCross (s : State) (b lintel : Nat) (inward : Bool) (a : Access) : Bool :=
  if inward then
    !((s.accs.takeWhile (fun x => x.id != a.id)).any (fun x => sameKind x a && nextBay s x == b && lastPoint s x == lastPoint s a))
      && mayEnter s a && parcelTurn s a
      && (match a.stage, a.purpose with
          | .reqIn _, .parcel _ => true
          | .reqIn _, _ => decide ((s.accs.filter (fun x => x.stage == .chan && x.rim == some lintel && (accChan s x).1 == b)).length < 96)
          | _, _ => true)
  else if leaves a then routeOpen s lintel b (16 + a.dst) && decide (queueOut s a.dst < 64)
  else routeOpen s lintel b (nextBay s a) && parcelTurn s a && decide (queueIn s (nextBay s a) lintel < 96)

/-- The sender of a contribution hears how it ended: an outstanding one is done, or its task faults. -/
def ackLocal (s : State) (b tag code : Nat) : State :=
  match (s.bay b).te.jobs.find? (fun j => j.sent.any (fun e => e.1 == tag)) with
  | none => s
  | some j =>
    if code = 0 then
      s.modTe b (fun x => { x with jobs := x.jobs.map (fun k => { k with sent := k.sent.filter (fun e => e.1 != tag) }) })
    else
      let key := (((j.sent.find? (fun e => e.1 == tag)).bind (fun e => e.2.head?)).bind (fun i => j.keys[i]?)).getD 0
      taskFault s j.task code { eng := 5, op := j.op, pos := key, hub := true, tag := cbytes j.cmd 4 4 }

/-- What came over a lintel for a bay reaches the unit it is for. -/
def takeParcel (s : State) (b : Nat) (p : Parcel) : State :=
  match p with
  | .rowReq r => s.modTe b (fun x => { x with reqIn := x.reqIn ++ [r] })
  | .rowRsp r => s.modTe b (fun x => { x with rspIn := x.rspIn ++ [r] })
  | .con c => s.modTe b (fun x => { x with conIn := x.conIn ++ [c] })
  | .ack tag code => ackLocal s b tag code
  | .svc m => s.modTe b (fun x => { x with svcIn := x.svcIn ++ [m] })
  | .chain t m => s.modXe b (fun x => { x with chain := x.chain ++ [(t, m)] })
  | .xout _ _ => s
  | .xin p vc m => arrived s b p vc m

/-- A transfer has crossed the port whole. Log entry 46, DEDUCED. -/
def crossed (s : State) (lintel : Nat) (a : Access) : State :=
  let a := { a with fails := 0, sent := 0 }
  match a.stage, a.purpose with
  | .reqOut, .parcel (.xout vc m) => (dropAcc s a.id).queueTx a.dst vc m
  | .reqOut, _ => if leaves a then setAcc s { a with stage := .away } else moveLast s { a with stage := .reqIn lintel, rim := none }
  | .rspOut, _ => moveLast s { a with stage := .rspIn lintel, rim := none }
  | .reqIn _, .parcel p => takeParcel (dropAcc s a.id) a.dst p
  | .reqIn _, _ => moveLast s { a with stage := .chan, rim := some lintel }
  | .rspIn _, _ =>
    (match a.flt with
     | some f => accFails s a f
     | none => accGot s a)
  | _, _ => s

/-- A slot carries 64 bytes of a transfer over the port. Log entry 46, DEDUCED. -/
def crossPort (s : State) (lintel : Nat) (a : Access) : State :=
  if 64 * (a.sent + 1) < transferLen a then setAcc s { a with sent := a.sent + 1, rim := if leaves a then a.rim else some lintel }
  else crossed s lintel a

/-- A parcel that is lost for good: the task that asked for it faults with 0xE2 (R519). -/
def loseParcel (s : State) (a : Access) (p : Parcel) : State :=
  let s := dropAcc s a.id
  match p with
  | .chain t _ => taskFault s t 0xE2 { eng := 6 }
  | .rowReq r => if r.chip = s.chip then failTeReq s r.bay r.tag 0xE2 else s
  | .rowRsp r => failTeReq s a.dst r.tag 0xE2
  | .con c => (match c.tag with | some t => if c.chip = s.chip then ackLocal s c.bay t 0xE2 else s | none => s)
  | .ack tag _ => ackLocal s a.dst tag 0xE2
  | .xout _ m =>
    if mSchip m = s.chip && !a.host && teAsks s a.bay m then failTeReq s a.bay (mTag m) 0xE2 else s
  | .svc m => if svcAsks s a.bay m then failTeReq s a.bay (mTag m) 0xE2 else s
  | _ => s

/-- A transfer fails its check code: it is discarded and sent again, and the wire group is tested; a second failure of the
same transfer faults its requester with 0xE2 (R519). -/
def badTransfer (s : State) (b lintel : Nat) (inward : Bool) (a : Access) : State :=
  let g := b * 2 + b2n inward
  let s := strike (logE s 0x04 4 lintel g (detail 0xE2 a.ctx)) (.wire lintel g) g 0 true
  if 0 < a.fails then
    match a.purpose with
    | .parcel p => loseParcel s a p
    | _ => accFails s a { code := 0xE2 }
  else setAcc s { a with fails := a.fails + 1 }

/-- LINTEL_PORT_SLOT: one transfer of 64 bytes, or two of at most 32 bytes with one owner. `bad` says that the first arrives
with an uncorrectable word. Log entry 15, DESIGN CHOICE. -/
def portSlotStep (s : State) (b lintel : Nat) (inward bad : Bool) : State :=
  let kind := if inward then 2 else 1
  let (j, e, cls, skip, s) := nextSlot s b kind lintel (fun _ => linkSkipped s lintel (b * 2 + b2n inward))
  let s := violations s kind j (portViolators s b lintel inward)
  if skip then s
  else
    let can := fun (s : State) =>
      (atPort s b lintel inward).filter (fun a => portNames e a && (ofSwitch a || a.cls == cls) && mayCross s b lintel inward a)
    match firstOf s (can s) with
    | none => s
    | some a =>
      let s := if bad then badTransfer s b lintel inward a else crossPort s lintel a
      if transferLen a ≤ 32 then
        match firstOf s ((can s).filter (fun x => x.id != a.id && decide (transferLen x ≤ 32))) with
        | some x => crossPort s lintel x
        | none => s
      else s

/-- LINTEL_PORT_SLOT. -/
def execLintelPortSlot (b lintel : Nat) (inward bad : Bool) (s : State) : Host.Outcome State Fault Refusal :=
  answer s (okBay b && decide (lintel < 4)) (settle (portSlotStep s b lintel inward bad))

end Sys2Proof.Machine
end

