-- ==== Sys2Proof/Machine/Table.lean ====
section
/-! DEFINITION. Embedding tables in memory (R217 to R226, R241, R242): descriptors, shard maps, directories, records, stored
elements and optimisers. -/

namespace Sys2Proof.Machine

open Sys2Proof

/-- A table descriptor (Table 7-1). -/
structure TDesc where
  nrows : Nat
  mode : Nat
  train : Bool
  slog : Nat
  valid : Bool
  nelem : Nat
  opt : Nat
  seq : Bool
  comb : Nat
  tctx : Nat
  smap : Nat
  shbase : Nat
  defaddr : Nat
  hmul : Nat
  qtab : Nat
  rtab : Nat
  nrem : Nat
  h0 : Nat
  h1 : Nat
  h2 : Nat
  rsv : Bool
deriving DecidableEq, Repr

/-- The descriptor's fields. -/
def tdesc (d : List Byte) : TDesc :=
  let a := field d 0 8
  let b := field d 8 4
  let c := field d 12 4
  { nrows := bits a 39 0, mode := bits a 41 40, train := bit a 42, slog := bits a 47 43, valid := bit a 48,
    nelem := bits b 9 0, opt := bits b 11 10, seq := bit b 12, comb := bits b 13 13, tctx := bits c 15 0,
    smap := field d 16 8, shbase := field d 24 8, defaddr := field d 32 8, hmul := field d 40 8,
    qtab := field d 48 2 % 4096, rtab := field d 50 2 % 4096, nrem := field d 52 4,
    h0 := field d 56 4, h1 := field d 60 4, h2 := field d 64 4,
    rsv := bits a 63 49 != 0 || bits b 31 14 != 0 || bits c 31 16 != 0 || field d 68 60 != 0 }

/-- Does a descriptor break R218 on its own? -/
def TDesc.bad (d : TDesc) : Bool :=
  !d.valid || d.nelem == 0 || decide (512 < d.nelem) || decide (d.slog < 10) || decide (30 < d.slog) || d.mode == 3
    || (d.mode == 1 && d.hmul % 2 == 0) || d.rsv

/-- Report the faults of an operation at a row of a table. -/
def atRow {α : Type} (table row : Nat) (m : Mc α) : Mc α := atVertex (table * 2 ^ 40 + row) false m

/-- Who works in a bay's table engine: who reads, the bay, and who hears of the end of a write. -/
structure TeUse where
  w : Who
  b : Nat
  put : Purpose := .none
deriving DecidableEq, Repr

/-- The table engine for a command of pane instance `i`, of task `t`. -/
def teCmd (i t : Nat) : TeUse := { w := .cmd i 5, b := bayOf i, put := .put i t }

/-- The descriptor of a table, read by system accesses and checked (R217, R218). -/
def readTable (u : TeUse) (id : Nat) : Mc TDesc := atRow id 0 (do
  let s ← get
  let base := s.reg64 (Reg.TE_TDBASE_LO u.b) (Reg.TE_TDBASE_HI u.b)
  let d := tdesc (← sysRead u.w (base + 128 * id) 128)
  failIf d.bad 0x61
  if d.mode = 2 then
    let q := tdesc (← sysRead u.w (base + 128 * d.qtab) 128)
    let r := tdesc (← sysRead u.w (base + 128 * d.rtab) 128)
    failIf (q.bad || r.bad || q.mode != 0 || r.mode != 0 || q.nelem != d.nelem || r.nelem != d.nelem || q.train != d.train
      || r.train != d.train || d.nrem == 0) 0x61
  pure d)

/-- The descriptor that a command of a context names. -/
def tableFor (u : TeUse) (id ctx : Nat) : Mc TDesc := do
  let d ← readTable u id
  atRow id 0 (failIf (d.tctx != ctx) 0x61)
  pure d

/-! ### Owner memory (R220) -/

/-- Read a table's structure; `own`: every page of it must translate into the bay's own stack (R220). -/
def teRead (u : TeUse) (ctx va n : Nat) (own : Bool) : Mc (List Byte) := do
  if own then
    (pieces (n / 4096 + 2) va n).forM (fun (a, _) => do
      match ← xlate u.w u.b ctx a false with
      | .loc pa => do
        let s ← get
        failIf (bayOfPa s pa != u.b) 0x66 a
      | _ => fault 0x66 a)
  vaRead u.w ctx va n

/-- Does an access hold, or is it on its way to read, a line of a table's structure for the table engine of bay `b`? -/
def teHolds (b ctx va n : Nat) (a : Access) : Bool :=
  !a.sys && a.ctx == ctx && (linesIn va n).contains a.va && match a.purpose with
    | .fetch (.te c _) => c == b
    | .fetch (.cmd i 5) => bayOf i == b
    | _ => false

/-- Write a table's structure in the bay's own stack, or where `own` does not ask for that: every page is translated and checked
before the first write is posted. Lines of it that the engine has read for other operations are read again. Log entry 113, DESIGN CHOICE. -/
def teWrite (u : TeUse) (ctx va : Nat) (bs : List Byte) (own : Bool) : Mc Unit := do
  let ts ← (pieces (bs.length / 4096 + 2) va bs.length).mapM (fun (a, k) => do
    let t ← xlate u.w u.b ctx a true
    let s ← get
    match t with
    | .loc pa => do
      failIf (own && bayOfPa s pa != u.b) 0x66 a
      match paRefusal s pa with
      | some c => fault c pa
      | none => checkOwner ctx pa
    | _ => failIf own 0x66 a
    pure (a, k, t))
  modify (fun s =>
    let s := ts.foldl (fun s (p : Nat × Nat × Tgt) => postWrite s u.w ctx p.1 p.2.2 ((bs.drop (p.1 - va)).take p.2.1) u.put) s
    { s with accs := s.accs.filter (fun a => !teHolds u.b ctx va bs.length a) })

/-- A bay shard record (Table 7-2). -/
structure Shard where
  tier : List Nat
  dir : Nat
  gdir : Nat
  gbuf : Nat
  glog : Nat
  gbufln : Nat
  applied : Nat
  cursor : Nat
deriving DecidableEq, Repr

/-- The shard record of the bay. -/
def readShard (u : TeUse) (d : TDesc) : Mc Shard := do
  let r ← teRead u d.tctx (d.shbase + 128 * u.b) 128 false
  pure { tier := (List.range 4).map (fun t => field r (8 * t) 8), dir := field r 32 8, gdir := field r 40 8, gbuf := field r 48 8,
         glog := bits (field r 56 4) 4 0, gbufln := field r 60 4, applied := field r 64 4, cursor := field r 68 8 }

/-- Where a row is at home (R219): chip, bay, index in the home bay's directory. `rd` reads the shard map. -/
def homeOf (rd : Nat → Nat → Mc (List Byte)) (d : TDesc) (row : Nat) : Mc (Nat × Nat × Nat) := do
  let e := leNat (← rd (d.smap + 8 * (row / 2 ^ d.slog)) 8)
  pure (bits e 11 0, bits e 15 12, bits e 55 16 + row % 2 ^ d.slog)

/-- A directory or guest entry of a row: its address, the guest entry's number, TIER, STATE, LOC, and the owner it forwards
to (chip * 16 + bay). -/
structure RowAt where
  ea : Nat
  guest : Option Nat
  tier : Nat
  st : Nat
  loc : Nat
  fwd : Nat
deriving DecidableEq, Repr

/-- Guest entry `i` of a bay. -/
def guestEntry (u : TeUse) (d : TDesc) (sh : Shard) (i : Nat) : Mc (Nat × RowAt) := do
  let a := sh.gdir + 16 * i
  let e := leNat (← teRead u d.tctx a 16 true)
  pure (bits e 39 0, { ea := a, guest := some i, tier := bits e 41 40, st := bits e 43 42, loc := 0,
                       fwd := bits e 55 44 * 16 + bits e 59 56 })

/-- Guest entries that a probe for a row meets, in order (R221). -/
def probes (sh : Shard) (row : Nat) : List Nat :=
  if sh.glog = 0 ∨ 20 < sh.glog then [] else (List.range (min 16 (2 ^ sh.glog))).map (fun k => (row + k) % 2 ^ sh.glog)

/-- The first guest entry that holds a row. Log entry 59, DEDUCED. -/
def findGuest (u : TeUse) (d : TDesc) (sh : Shard) (row : Nat) : List Nat → Mc (Option RowAt)
  | [] => pure none
  | i :: is => do
    let (g, e) ← guestEntry u d sh i
    if g = row ∧ e.st ≠ 0 then pure (some e) else findGuest u d sh row is

/-- Is the bay the home of a row? -/
def isHome (u : TeUse) (d : TDesc) (row : Nat) : Mc (Bool × Nat × Nat × Nat) := do
  let (c, hb, ix) ← homeOf (fun a n => teRead u d.tctx a n false) d row
  let s ← get
  pure (c == s.chip && hb == u.b, c, hb, ix)

/-- A row's entry at the bay: in the directory at home, else in the guest directory (R221, R222). -/
def findRow (u : TeUse) (d : TDesc) (sh : Shard) (row : Nat) : Mc (Option RowAt) := do
  let (home, _, _, ix) ← isHome u d row
  if home then
    let a := sh.dir + 8 * ix
    let e := leNat (← teRead u d.tctx a 8 true)
    pure (some { ea := a, guest := none, tier := bits e 1 0, st := bits e 3 2, loc := bits e 43 4,
                 fwd := bits e 55 44 * 16 + bits e 59 56 })
  else findGuest u d sh row (probes sh row)

/-- Set STATE of an entry, and the owner it forwards to. -/
def setEntry (u : TeUse) (d : TDesc) (row : Nat) (x : RowAt) (st fwd : Nat) : Mc Unit :=
  match x.guest with
  | none => teWrite u d.tctx x.ea (leBytes 8 (x.tier + st * 4 + x.loc * 2 ^ 4 + fwd / 16 % 4096 * 2 ^ 44 + fwd % 16 * 2 ^ 56)) true
  | some _ =>
    teWrite u d.tctx x.ea (leBytes 16 (row + x.tier * 2 ^ 40 + st * 2 ^ 42 + fwd / 16 % 4096 * 2 ^ 44 + fwd % 16 * 2 ^ 56)) true

/-! ### Records (R223 to R225) -/

/-- Data bytes of a row in a tier (Table 7-4). -/
def rowData (nelem tier : Nat) : Nat :=
  if tier = 0 then 4 * nelem else if tier = 1 then 2 * nelem else if tier = 2 then nelem else (nelem + 1) / 2
/-- Offset of the optimiser state (R224). -/
def stateOff (nelem tier : Nat) : Nat := 16 + (rowData nelem tier + 3) / 4 * 4
/-- Bytes of optimiser state (Table 7-11). -/
def stateBytes (d : TDesc) : Nat :=
  if d.opt = 0 then 0 else if d.opt = 1 then 4 * d.nelem else if d.opt = 2 then 4 else 8 * d.nelem
/-- RECSZ of a tier. -/
def recSize (d : TDesc) (tier : Nat) : Nat := (stateOff d.nelem tier + stateBytes d + 31) / 32 * 32

/-- Address of a row's record. -/
def recAddr (d : TDesc) (sh : Shard) (x : RowAt) : Nat :=
  match x.guest with
  | some i => sh.gdir + 16 * 2 ^ sh.glog + i * recSize d 0
  | none => sh.tier.getD x.tier 0 + x.loc * recSize d x.tier

/-- The header and data of a row's record: too large 0x61, a TIER that disagrees with the entry 0x66. -/
def readRow (u : TeUse) (d : TDesc) (sh : Shard) (x : RowAt) : Mc (List Byte) := do
  let n := 16 + rowData d.nelem x.tier
  failIf (decide (1024 < n)) 0x61
  let bs ← teRead u d.tctx (recAddr d sh x) n true
  failIf (bits (field bs 2 1) 1 0 != x.tier) 0x66
  pure bs

/-- Round to FP32, nearest even, overflow to infinity (R195). -/
def r32 (v : FV) : Nat := (fround fp32 false v).1

/-- The dequantised values of a header and data, as FP32 bits (R223). -/
def dequant (nelem : Nat) (hd : List Byte) : List Nat :=
  let tier := bits (field hd 2 1) 1 0
  let scale := f32 (field hd 4 4)
  let off := f32 (field hd 8 4)
  let dt := hd.drop 16
  (List.range nelem).map (fun k =>
    if tier = 0 then field dt (4 * k) 4
    else if tier = 1 then field dt (2 * k) 2 * 2 ^ 16
    else if tier = 2 then r32 (FV.mul (fdecode (fmtOf 3) (field dt k 1)) scale)
    else r32 (FV.sum (FV.mul (.fin false (field dt (k / 2) 1 / 16 ^ (k % 2) % 16) 0) scale) off))

/-- The least FP32 value that is at least a positive quotient a / b, as bits. -/
def divUp (a b : Dy) : Nat :=
  let r := r32 (FV.div a.fv b.fv)
  if Dy.lt (Dy.mul (FV.dy (f32 r)) b) a then r + 1 else r

/-- a / b for b > 0, rounded to the nearest integer, ties to even. -/
def ratInt (a b : Dy) : Int :=
  let e := min a.e b.e
  let n := a.v * pow2 (a.e - e)
  let m := b.v * pow2 (b.e - e)
  let q := n / m
  let r := 2 * (n - q * m)
  if r < m ∨ (r = m ∧ q % 2 = 0) then q else q + 1

/-- Header and data that store FP32 values in the tier of an old header (R225), and whether the row is not finite. `k` is a
free choice for the sign of an OFFSET of zero among zeros of both signs, `free` the OFFSET of a row that is not finite. Log entry 64, DESIGN CHOICE. -/
def requant (old : List Byte) (ws : List Nat) (k : Nat) (free : List Byte) : List Byte × Bool :=
  let tier := bits (field old 2 1) 1 0
  let vs := ws.map f32
  let nonfin := vs.any (fun v => !v.isFin)
  let head := fun (scale : Nat) (off : List Byte) => old.take 4 ++ leBytes 4 scale ++ off ++ (old.drop 12).take 4
  if tier = 0 then (old.take 16 ++ (ws.map (leBytes 4)).flatten, nonfin)
  else if tier = 1 then (old.take 16 ++ (vs.map (fun v => leBytes 2 (fround (fmtOf 2) false v).1)).flatten, nonfin)
  else if nonfin then
    (head (fnan fp32) (if tier = 3 then free else (old.drop 8).take 4) ++ leBytes (rowData ws.length tier) 0, true)
  else
    let ds := vs.map FV.dy
    if tier = 2 then
      let m := ds.foldl (fun (a : Dy) d => let x : Dy := ⟨d.v.natAbs, d.e⟩; if Dy.lt a x then x else a) ⟨0, 0⟩
      let scale := if m.v = 0 then (fround fp32 false (.fin false 1 0)).1 else divUp m ⟨448, 0⟩
      (head scale ((old.drop 8).take 4) ++ vs.flatMap (fun v => leBytes 1 (fround (fmtOf 3) true (FV.div v (f32 scale))).1), false)
    else
      let d0 := ds.headD ⟨0, 0⟩
      let lo := ds.foldl (fun (a : Dy) d => if Dy.lt d a then d else a) d0
      let hi := ds.foldl (fun (a : Dy) d => if Dy.lt a d then d else a) d0
      let zeros := ws.filter (fun w => w % 2 ^ 31 == 0)
      let off := if lo.v = 0 then zeros.getD (k % max 1 zeros.length) 0 else r32 lo.fv
      let span := Dy.add hi (Dy.neg lo)
      let scale := if span.v = 0 then (fround fp32 false (.fin false 1 0)).1 else divUp span ⟨15, 0⟩
      let qs := ds.map (fun d => (min 15 (max 0 (ratInt (Dy.add d (Dy.neg lo)) (FV.dy (f32 scale))))).toNat)
      (head scale (leBytes 4 off) ++ packElems 4 qs, false)

/-! ### Optimisers (R241, R242) -/

/-- One FP32 operation each, rounded once. -/
def mul32 (a b : Nat) : Nat := r32 (FV.mul (f32 a) (f32 b))
def sum32 (a b : Nat) : Nat := r32 (FV.sum (f32 a) (f32 b))
def div32 (a b : Nat) : Nat := r32 (FV.div (f32 a) (f32 b))
def sqrt32 (a : Nat) : Nat := r32 (FV.sqrt (f32 a))
def fma32 (a b c : Nat) : Nat := r32 (FV.sum (FV.mul (f32 a) (f32 b)) (f32 c))
/-- −a. -/
def neg32 (a : Nat) : Nat := if a / 2 ^ 31 % 2 = 1 then a - 2 ^ 31 else a + 2 ^ 31
/-- 1.0 − β. -/
def oneMinus (b : Nat) : Nat := r32 (FV.sum (.fin false 1 0) (FV.neg (f32 b)))

/-- The exact sum of values, rounded once to FP32. -/
def exact32 (vs : List FV) : Nat := r32 (exactSum (vs.map LongEl.ofFV)).1.fv

/-- One application of the optimiser to the values and the state words of a row (Table 7-11). -/
def optimise (d : TDesc) (cls lr c1 c2 : Nat) (ws st gs : List Nat) : List Nat × List Nat :=
  let nlr := neg32 lr
  let n := ws.length
  let at0 := fun (l : List Nat) k => l.getD k 0
  let ks := List.range n
  if d.opt = 0 then (ks.map (fun k => fma32 nlr (at0 gs k) (at0 ws k)), [])
  else if d.opt = 1 then
    let ms := ks.map (fun k => fma32 d.h0 (at0 st k) (at0 gs k))
    (ks.map (fun k => fma32 nlr (at0 ms k) (at0 ws k)), ms)
  else if d.opt = 2 then
    let sq := gs.map (fun g => mul32 g g)
    let sum := if cls = 2 then exact32 (sq.map f32) else (treeSum false (n + 1) sq).v
    let mean := r32 (FV.div (f32 sum) (.fin false d.nelem 0))
    let a := sum32 (at0 st 0) mean
    let den := sum32 (sqrt32 a) d.h2
    (ks.map (fun k => fma32 nlr (div32 (at0 gs k) den) (at0 ws k)), [a])
  else
    let b1 := oneMinus d.h0
    let b2 := oneMinus d.h1
    let ms := ks.map (fun k => fma32 d.h0 (at0 st k) (mul32 b1 (at0 gs k)))
    let vs := ks.map (fun k => fma32 d.h1 (at0 st (n + k)) (mul32 (mul32 b2 (at0 gs k)) (at0 gs k)))
    (ks.map (fun k => fma32 nlr (div32 (div32 (at0 ms k) c1) (sum32 (sqrt32 (div32 (at0 vs k) c2)) d.h2)) (at0 ws k)), ms ++ vs)

/-- Element `k` of a contribution's gradient. -/
def gradElem (c : Contrib) (k : Nat) : Nat := if c.gfmt = 2 then field c.data (2 * k) 2 * 2 ^ 16 else field c.data (4 * k) 4

/-- Order of contributions of a row (R241). -/
def conBefore (cls : Nat) (a b : Contrib) : Bool :=
  if cls = 2 then a.pos < b.pos || (a.pos == b.pos && decide (a.chip ≤ b.chip))
  else a.chip < b.chip || (a.chip == b.chip && decide (a.pos ≤ b.pos))

/-- A term w × g rounded once to FP32; what an overflow gives is a free choice of its operands (R154; log entry 28, DESIGN CHOICE). -/
def term32 (w g : Nat) : Nat := (fround fp32 (Config.overflowMax 0 w g) (FV.mul (f32 w) (f32 g))).1

/-- The update of a row by its contributions, in key order (R241). -/
def updateRow (d : TDesc) (cls lr c1 c2 : Nat) (cs : List Contrib) (ws st : List Nat) : List Nat × List Nat :=
  let ks := List.range d.nelem
  let t := fun (k : Nat) (c : Contrib) => term32 c.weight (gradElem c k)
  if d.seq then
    cs.foldl (fun (r : List Nat × List Nat) (c : Contrib) => optimise d cls lr c1 c2 r.1 r.2 (ks.map (fun k => t k c))) (ws, st)
  else
    let gs := ks.map (fun k =>
      if cls = 2 then exact32 (cs.map (fun c => FV.mul (f32 c.weight) (f32 (gradElem c k))))
      else (treeSum false (cs.length + 1) (cs.map (t k))).v)
    optimise d cls lr c1 c2 ws st gs

end Sys2Proof.Machine
end

