-- ==== Sys2Proof/Machine/TeOwner.lean ====
section
/-! DEFINITION. The table engine as an owner (R229, R230, R237, R238, R247, R248): row requests, contributions, and the table
service between owners. Between bays of one device a message crosses a lintel (R18); between devices the table service is a
TESVC message, whose body is the model's own (log entry 18, DESIGN CHOICE). -/

namespace Sys2Proof.Machine

open Sys2Proof

/-! ### Serving -/

/-- The table engine of bay `b` as an owner, for the request numbered `n`. -/
def teOwn (b n : Nat) : TeUse := { w := .te b n, b }

/-- Numbers of what a bay's table engine serves: a row request by its requester's chip, bay, TAG and slot; a contribution by
its sender's chip, bay and TAG, or by its key and row when nobody waits for it; a message by its header and fields; a copy
by its row. -/
def rowNo (r : RowMsg) : Nat := 5 * (((r.chip * 16 + r.bay) * 65536 + r.tag) * 2 ^ 24 + r.slot)
def conNo (c : Contrib) : Nat :=
  match c.tag with
  | some t => 5 * ((c.chip * 16 + c.bay) * 65536 + t) + 1
  | none => 5 * (((c.chip * 2 ^ 64 + c.pos) * 4096 + c.table) * 2 ^ 40 + c.row) + 2
def svcNo (m : List Byte) : Nat := 5 * leNat (m.take 40) + 3
def copyNo (c : TeCopy) : Nat := 5 * (c.table * 2 ^ 40 + c.row) + 4

/-- Is an access one of `w`'s lines or translations in a page of a context? -/
def pageOf (w : Who) (ctx va : Nat) (a : Access) : Bool :=
  a.stage == .got && a.ctx == ctx && a.va / 4096 == va / 4096 && !a.sys
    && (a.purpose == .fetch w || a.purpose == .probe w false || a.purpose == .probe w true)

/-- A request of `w` at bay `b` met a page fault: it is held there while the owner's driver resolves it (R235, R344). -/
def holdPage (s : State) (w : Who) (b ctx cause lvl va hpa : Nat) (wr : Bool) : State :=
  match s.accs.find? (fun a => pageOf w ctx va a && a.pg.isSome) with
  | some a => holdTe s b a.id ctx cause lvl va hpa wr false
  | none =>
    let a := w.access s ctx false .read (va / 4096 * 4096) 0 0 [] (.probe w wr)
    holdTe (pushAcc s { a with stage := .got, pg := some (cause, lvl, hpa) }) b s.accSeq ctx cause lvl va hpa wr false

/-- Run an operation of bay `b` as an owner; the flag says whether it is done. An operation that answers false waits and is
presented again; what it lacks is asked for; a page fault holds it, unless `drop` makes it a fault (a prefetch), or the driver
has failed it; a fault goes to `onFlt`. Log entry 65, DEDUCED. -/
def holdOwner (s : State) (b n : Nat) (drop : Bool) (m : Mc Bool) (onFlt : Flt → Mc Unit) : State × Bool :=
  let w : Who := .te b n
  let fails := fun (f : Flt) (s : State) =>
    match runMc (onFlt f) s with
    | (.error (.need ns), _) => (postNeeds s ns, false)
    | (_, s) => (dropNeeds s w, true)
  match runMc m s with
  | (.ok true, s') => (dropNeeds s' w, true)
  | (.ok false, _) => (dropNeeds s w, false)
  | (.error (.flt f), s') => fails f s'
  | (.error (.need ns), _) => (postNeeds s ns, false)
  | (.error (.page ctx cause lvl va hpa wr), _) =>
    (match (s.accs.find? (fun a => pageOf w ctx va a && a.flt.isSome)).bind (·.flt) with
     | some f => fails f s
     | none =>
       if drop then fails { code := 0x91, addr := va } s else (holdPage s w b ctx cause lvl va hpa wr, false))
  | (.error _, _) => (s, false)

/-- The table at an owner: descriptor, context not reset (0x69), shard record. Log entry 63, DEDUCED. -/
def ownerTable (u : TeUse) (table : Nat) : Mc (TDesc × Shard) := do
  let d ← readTable u table
  let s ← get
  failIf (s.ctxDead.contains d.tctx) 0x69
  let sh ← readShard u d
  pure (d, sh)

/-- What an owner does with a request or a contribution. -/
inductive OwnAns where
  /-- wait: a demand request ahead of its step, or a row on its way here -/
  | hold
  /-- another owner (chip * 16 + bay) -/
  | fwd (dst : Nat)
  | absent (stamp : Nat)
  /-- header and data, and the stamp -/
  | row (data : List Byte) (stamp : Nat)
  | taken
deriving DecidableEq, Repr

/-- Is a guest entry of the bay kept for a row that has not arrived? -/
def awaited (s : State) (b table row : Nat) : Bool := (s.bay b).te.resv.any (fun r => r.1 == table && r.2.1 == row)

/-- Serve a row request (R230). -/
def serveRow (u : TeUse) (r : RowMsg) : Mc OwnAns := do
  let (d, sh) ← ownerTable u r.table
  match ← findRow u d sh r.row with
  | none =>
    let s ← get
    pure (if awaited s u.b r.table r.row then .hold else .absent sh.applied)
  | some x =>
    if x.st = 0 then pure (.absent sh.applied)
    else if x.st = 3 then pure (.fwd x.fwd)
    else if d.train ∧ !r.now ∧ sh.applied + 1 < r.step then pure .hold
    else
      failIf (d.train && !r.now && decide (r.step ≤ sh.applied)) 0x63
      pure (.row (← readRow u d sh x) sh.applied)

/-- Record a fault of Table 7-18 found as an owner. Log entry 65, DEDUCED. -/
def ownerFault (s : State) (b code op lpane table row : Nat) : State :=
  if 0x60 ≤ code ∧ code ≤ 0x69 then teFault s b code op lpane table row true else s

/-! ### Messages between table engines -/

/-- The body of a table-service message: kind and fields; the data is padded to whole words. Log entry 18, DESIGN CHOICE. -/
def svcBody (kind a table x row y z : Nat) (data : List Byte) : List Byte :=
  leBytes 1 kind ++ leBytes 1 a ++ leBytes 2 table ++ leBytes 4 x ++ leBytes 8 row ++ leBytes 4 y ++ leBytes 4 z ++ data
    ++ leBytes ((4 - data.length % 4) % 4) 0
def vKind (m : List Byte) : Nat := field (mBody m) 0 1
def vA (m : List Byte) : Nat := field (mBody m) 1 1
def vTable (m : List Byte) : Nat := field (mBody m) 2 2
def vX (m : List Byte) : Nat := field (mBody m) 4 4
def vRow (m : List Byte) : Nat := field (mBody m) 8 8
def vY (m : List Byte) : Nat := field (mBody m) 16 4
def vZ (m : List Byte) : Nat := field (mBody m) 20 4
/-- TAG of the command that a message concerns, and the local index of its pane. -/
def vTag (m : List Byte) : Nat := vZ m % 2 ^ 16
def vLane (m : List Byte) : Nat := bits (vZ m) 18 16
def vData (m : List Byte) : List Byte := (mBody m).drop 24

/-- A fresh TAG of the bay's table engine. -/
def freshTag (b : Nat) : Mc Nat := do
  let s ← get
  let t := (s.bay b).te.tagSeq
  set (s.modTe b (fun x => { x with tagSeq := (t + 1) % 65536 }))
  pure t

/-- What bay `b`'s table engine sends to bay `dst` of the device: over a lintel in the slots of bay `own`'s table engine, in a class, or
at once when it is its own. Log entry 46, DEDUCED. Log entry 137, DESIGN CHOICE. -/
def deliverTe (s : State) (b dst own cls : Nat) (p : Parcel) (len : Nat) : State :=
  if dst = b then takeParcel s b p
  else pushAcc s { parcelOut b p len with eng := 5, owner := own, cls, dst }

/-- Send a table-service message from bay `b` to an engine (chip * 16 + bay); a request to another device goes only when it has a
route. The answer says whether it went. -/
def sendSvc (b dst tag ctx : Nat) (resp : Bool) (body : List Byte) (cls : Nat := 3) : Mc Bool := do
  let s ← get
  let m := mkMsg 0x0D cls (dst / 16) (dst % 16) s.chip b ctx tag 0x7F 5 0 body
  if dst / 16 = s.chip then
    set (deliverTe s b (dst % 16) b 1 (.svc m) m.length)
    pure true
  else if resp then
    set (sendX s b 1 m)
    pure true
  else sendRouted b 0 m

/-- Send a message that nobody answers by its TAG; with no route the operation waits, or stops as `lost` says. -/
def sendOn (b dst ctx : Nat) (body : List Byte) (lost : Stop := .wait) : Mc Unit := do
  let tag ← freshTag b
  if !(← sendSvc b dst tag ctx false body) then throw lost

/-- No route: the command of the row faults (R410). -/
def noWay : Stop := .flt { code := 0xB0 }

/-- Bytes of a row message: its request, or its answer with the header and data. Log entry 137, DESIGN CHOICE. -/
def rowLen (r : RowMsg) : Nat := 16 + r.data.length

/-- A row's answer goes to its requester, in the slots of the requester's table engine. Log entry 18, DESIGN CHOICE. Log entry 62, DEDUCED. -/
def answerRow (s : State) (b : Nat) (r : RowMsg) : State :=
  let r := { r with owner := s.chip * 16 + b }
  if r.chip = s.chip then deliverTe s b r.bay r.bay 0 (.rowRsp r) (rowLen r)
  else
    let body := leBytes 8 (r.row + r.slot % 2 ^ 24 * 2 ^ 40) ++ leBytes 4 r.stamp ++ leBytes 4 (r.code + b2n r.absent * 2 ^ 8)
      ++ (if r.code ≠ 0 then leBytes 8 r.addr else r.data ++ leBytes ((4 - r.data.length % 4) % 4) 0)
    sendX s b 1 (mkMsg 0x08 3 r.chip r.bay s.chip b r.ctx r.tag 0x7F 5 0 body)

/-- Forward a row request to its owner (R229); with no route it is refused. -/
def forwardRow (b dst : Nat) (r : RowMsg) : Mc Unit := do
  modify (fun s => s.incReg (Reg.TE_FWD b))
  let s ← get
  if dst / 16 = s.chip then set (deliverTe s b (dst % 16) b 0 (.rowReq r) 32)
  else
    let tag ← freshTag b
    let body := svcBody 0 (b2n r.prefetch + 2 * b2n r.now) r.table r.step r.row (r.chip * 16 + r.bay)
      (r.tag + r.lpane % 8 * 2 ^ 16 + r.op % 8 * 2 ^ 20) (leBytes 4 r.slot)
    if !(← sendSvc b dst tag r.ctx false body) then modify (fun s => answerRow s b { r with code := 0xB0 })

/-- The row request that a message carries. -/
def rowOf_ (m : List Byte) : RowMsg :=
  { bay := vY m % 16, chip := vY m / 16, tag := vTag m, slot := field (vData m) 0 4, table := vTable m, row := vRow m
    step := vX m, prefetch := bit (vA m) 0, now := bit (vA m) 1, lpane := vLane m, op := bits (vZ m) 22 20, ctx := mCtx m }

/-- Deal with one row request at bay `b`; the flag says whether it is done. -/
def rowRequest1 (s : State) (b : Nat) (r : RowMsg) : State × Bool :=
  holdOwner s b (rowNo r) r.prefetch (do
      match ← serveRow (teOwn b (rowNo r)) r with
      | .fwd dst => forwardRow b dst r
      | .absent stamp => modify (fun s => answerRow s b { r with absent := true, stamp })
      | .row data stamp => modify (fun s => answerRow s b { r with data, stamp })
      | _ => return false
      pure true)
    (fun f => modify (fun s =>
      answerRow (if r.prefetch then s else ownerFault s b f.code r.op r.lpane r.table r.row) b { r with code := f.code, addr := f.addr }))

/-- The first row request of a list that can be dealt with. -/
def serveRows (b : Nat) (s : State) : List RowMsg → State
  | [] => s
  | r :: rs =>
    match rowRequest1 s b r with
    | (s', true) => s'.modTe b (fun x => { x with reqIn := x.reqIn.erase r })
    | (s', false) => serveRows b s' rs

/-! ### Contributions (R237, R238) -/

/-- Lines of the gradient buffer that a contribution takes. -/
def conLines (d : TDesc) (c : Contrib) : Nat := (32 + d.nelem * (if c.gfmt = 2 then 2 else 4) + 63) / 64

/-- Take a contribution, refuse it or say where it goes. The buffer's bytes have a layout of the device's own and are free
values (log entry 7, DESIGN CHOICE). Log entry 65, DEDUCED. -/
def serveCon (u : TeUse) (c : Contrib) : Mc OwnAns := do
  let (d, sh) ← ownerTable u c.table
  match ← findRow u d sh c.row with
  | none =>
    let s ← get
    pure (if awaited s u.b c.table c.row then .hold else .absent sh.applied)
  | some x =>
    if x.st = 0 then pure (.absent sh.applied)
    else if x.st = 3 then pure (.fwd x.fwd)
    else
      failIf (sh.applied + 1 != c.step) 0x63
      let s ← get
      let te := (s.bay u.b).te
      let used := ((te.grads.filter (fun g => g.table == c.table)).map (conLines d)).foldl (· + ·) 0
      let n := conLines d c
      if sh.gbufln < used + n then
        set (s.modTe u.b (fun x => { x with incomplete := (c.table, c.step) :: x.incomplete.erase (c.table, c.step) }))
        fault 0x64
      let (bs, s) := s.freeBytes (64 * n)
      set s
      teWrite u d.tctx (sh.gbuf + 64 * used) bs true
      modify (fun s => (s.incReg (Reg.TE_CONTRIB u.b)).modTe u.b (fun x => { x with grads := x.grads ++ [c] }))
      pure .taken

/-- The status of GRACK for a code (Table 12-12), and the codes that have one. -/
def conStatus (code : Nat) : Nat :=
  if code = 0 then 0 else if code = 0x69 then 7 else if code = 0x63 then 8 else if code = 0x64 then 9 else codeStatus code
def hasStatus (code : Nat) : Bool := code == 0 || statusCode (conStatus code) false == code

/-- Acknowledge a contribution. A code that no status names reaches the sender in a table-service message (R220). Log entry 18, DESIGN CHOICE. -/
def ackCon (b : Nat) (c : Contrib) (code : Nat) : Mc Unit := do
  match c.tag with
  | none => pure ()
  | some tag =>
    let s ← get
    if c.chip = s.chip then set (deliverTe s b c.bay b 1 (.ack tag code) 16)
    else if hasStatus code then set (sendX s b 1 (mkMsg 0x0A 3 c.chip c.bay s.chip b c.ctx tag 0x7F 5 (conStatus code) []))
    else let _ ← sendSvc b (c.chip * 16 + c.bay) tag c.ctx true (svcBody 16 0 c.table code c.row 0 tag [])

/-- A contribution in a table-service message. -/
def conBody (c : Contrib) : List Byte :=
  svcBody 1 c.gfmt c.table c.step c.row (c.chip * 16 + c.bay) (c.tag.getD 0 + c.lpane % 8 * 2 ^ 16 + b2n c.tag.isSome * 2 ^ 19)
    (leBytes 8 c.pos ++ leBytes 4 c.weight ++ c.data)
/-- The contribution that a message carries. -/
def conOf (m : List Byte) : Contrib :=
  { bay := vY m % 16, chip := vY m / 16, tag := if bit (vZ m) 19 then some (vTag m) else none, lpane := vLane m,
    cls := mClass m, table := vTable m, gfmt := vA m, step := vX m, row := vRow m, pos := field (vData m) 0 8,
    weight := field (vData m) 8 4, data := (vData m).drop 12, ctx := mCtx m }

/-- Send a contribution on to another owner, in its own class (R74). -/
def forwardCon (b dst : Nat) (c : Contrib) : Mc Unit := do
  let s ← get
  if dst / 16 = s.chip then set (deliverTe s b (dst % 16) b 1 (.con c) (32 + c.data.length))
  else
    let tag ← freshTag b
    if !(← sendSvc b dst tag c.ctx false (conBody c) c.cls) then (if c.tag.isSome then ackCon b c 0xB0 else throw .wait)

/-- Deal with one contribution at bay `b`; the flag says whether it is done. Log entry 58, DEDUCED. -/
def contribution1 (s : State) (b : Nat) (c : Contrib) : State × Bool :=
  holdOwner s b (conNo c) false (do
      match ← serveCon (teOwn b (conNo c)) c with
      | .fwd dst => do
        modify (fun s => s.incReg (Reg.TE_FWD b))
        forwardCon b dst c
      | .hold => return false
      | _ => ackCon b c 0
      pure true)
    (fun f => do
      modify (fun s => ownerFault s b f.code 3 c.lpane c.table c.row)
      ackCon b c f.code)

/-- The first contribution of a list that can be dealt with. -/
def serveCons (b : Nat) (s : State) : List Contrib → State
  | [] => s
  | c :: cs =>
    match contribution1 s b c with
    | (s', true) => s'.modTe b (fun x => { x with conIn := x.conIn.erase c })
    | (s', false) => serveCons b s' cs

/-! ### Migration and row writes (R246 to R249)

The old owner keeps a guest entry at the target (kinds 6 and 7), copies the row into its guest record (8 and 14), and flips: the
target's entry becomes present (15), the home learns of it (9), the issuer too (10). Log entry 124, DESIGN CHOICE. -/

/-- A row under copy that is written is copied again (Table 7-14). -/
def markDirty (s : State) (b table row : Nat) : State :=
  s.modTe b (fun x => { x with copies := x.copies.map (fun c => if c.table = table ∧ c.row = row then { c with dirty := true } else c) })

/-- Change the copy of a row. -/
def modCopy (b table row : Nat) (f : TeCopy → List TeCopy) : Mc Unit :=
  modify (fun s => s.modTe b (fun x => { x with copies := x.copies.flatMap (fun c => if c.table = table ∧ c.row = row then f c else [c]) }))

/-- Tell the issuer of a command about one of its rows: kind 5, a TMIGRATE's row skipped (0), begun (1), failed (2) or faulted (3,
with code and address); kind 12, a TROWWRITE's row written, or its fault. -/
def tellIssuer (b kind issuer z ctx a table row code addr : Nat) : Mc Unit := do
  let _ ← sendSvc b issuer (z % 2 ^ 16) ctx true (svcBody kind a table code row 0 z (leBytes 8 addr))

/-- The bytes of a row's record: header, data and state. -/
def readRecord_ (u : TeUse) (d : TDesc) (sh : Shard) (x : RowAt) : Mc (List Byte) := do
  let _ ← readRow u d sh x
  teRead u d.tctx (recAddr d sh x) (stateOff d.nelem x.tier + stateBytes d) true

/-- Send the bytes of a record to a row's target, in pieces that a message can carry. -/
def sendCopy (b : Nat) (c : TeCopy) (bs : List Byte) (lost : Stop := .wait) : Mc Unit :=
  (List.range ((bs.length + 3071) / 3072)).forM (fun k =>
    sendOn b c.target c.ctx (svcBody 8 (b2n (c.entry == 2 ^ 33) + 2 * b2n (decide (bs.length ≤ 3072 * (k + 1)))) c.table (3072 * k) c.row
      (c.entry % 2 ^ 32) c.tag ((bs.drop (3072 * k)).take 3072)) lost)

/-- A row that TMIGRATE names reaches bay `b`: it is sent on to its owner, skipped, or begins to move (R246): its record is read
(R220, R224), its entry becomes migrating, and a guest entry is asked for, unless the target is its home. Log entry 59, DEDUCED. -/
def moveRow (b : Nat) (m : List Byte) : Mc Bool := do
  let u := teOwn b (svcNo m)
  let (d, sh) ← ownerTable u (vTable m)
  let answer := fun (a : Nat) => tellIssuer b 5 (vX m) (vZ m) (mCtx m) a (vTable m) (vRow m) 0 0
  match ← findRow u d sh (vRow m) with
  | none => answer 0
  | some x =>
    let s ← get
    if x.st = 3 then
      sendOn b x.fwd (mCtx m) (mBody m) noWay
      modify (fun s => s.incReg (Reg.TE_FWD b))
    else if x.st = 0 ∨ x.st = 2 ∨ vY m = s.chip * 16 + b then answer 0
    else
      let bs ← readRecord_ u d sh x
      let (_, hc, hb, _) ← isHome u d (vRow m)
      let toHome := vY m == hc * 16 + hb
      let c : TeCopy := { table := vTable m, row := vRow m, target := vY m, entry := if toHome then 2 ^ 33 else 2 ^ 32, chip := vX m / 16,
                          bay := vX m % 16, tag := vTag m, dirty := false, ctx := mCtx m }
      if toHome then sendCopy b c bs noWay
      else sendOn b (vY m) (mCtx m) (svcBody 6 0 (vTable m) (vX m) (vRow m) 0 (vZ m) []) noWay
      setEntry u d (vRow m) x 2 0
      modify (fun s => s.modTe b (fun x => { x with copies := x.copies ++ [c] }))
      if toHome then answer 1
  pure true

/-- A target keeps a guest entry for a row: one that already names it, else the first empty one of the probe. Log entry 59, DEDUCED. -/
def reserve (u : TeUse) (m : List Byte) : Mc (Option Nat) := do
  let (d, sh) ← ownerTable u (vTable m)
  let ps := probes sh (vRow m)
  match ← findGuest u d sh (vRow m) ps with
  | some x => pure x.guest
  | none =>
    let s ← get
    let free ← ps.filterM (fun i => do
      let (_, e) ← guestEntry u d sh i
      pure (e.st == 0 && !((s.bay u.b).te.resv.any (fun r => r.1 == vTable m && r.2.2 == i))))
    pure free.head?

/-- The entry of a moved row at its target: its own at home (bit 0 of the message's A), else the guest entry that is kept for it. -/
def targetEntry (u : TeUse) (d : TDesc) (sh : Shard) (m : List Byte) : Mc RowAt := do
  if bit (vA m) 0 then
    match ← findRow u d sh (vRow m) with
    | some x => pure x
    | none => fault 0x66
  else pure { ea := sh.gdir + 16 * vY m, guest := some (vY m), tier := bits (vA m) 3 2, st := 0, loc := 0, fwd := 0 }

/-- Part of a moving row's record arrives at its target and is written; the last part is answered. -/
def landCopy (b : Nat) (m : List Byte) : Mc Bool := do
  let u := teOwn b (svcNo m)
  let (d, sh) ← ownerTable u (vTable m)
  let x ← targetEntry u d sh m
  teWrite u d.tctx (recAddr d sh x + vX m) (vData m) true
  if bit (vA m) 1 then
    let _ ← sendSvc b (mSchip m * 16 + mSbay m) (vTag m) (mCtx m) true (svcBody 14 1 (vTable m) 0 (vRow m) 0 (vZ m) [])
  pure true

/-- A moved row's entry at its target becomes present. -/
def install (b : Nat) (m : List Byte) : Mc Bool := do
  let u := teOwn b (svcNo m)
  let (d, sh) ← ownerTable u (vTable m)
  let x ← targetEntry u d sh m
  setEntry u d (vRow m) x 1 0
  modify (fun s => s.modTe b (fun t => { t with resv := t.resv.filter (fun r => !(r.1 == vTable m && r.2.1 == vRow m)) }))
  pure true

/-- The home entry of a moved row names its new owner. -/
def homeFlip (b : Nat) (m : List Byte) : Mc Bool := do
  let u := teOwn b (svcNo m)
  let (d, sh) ← ownerTable u (vTable m)
  match ← findRow u d sh (vRow m) with
  | some x => setEntry u d (vRow m) x 3 (vY m)
  | none => pure ()
  pure true

/-- A row that cannot move stays with its owner: its entry becomes present again, and its copy is given up. -/
def stay (u : TeUse) (table row : Nat) : Mc Unit := do
  tryCatch (do
      let (d, sh) ← ownerTable u table
      match ← findRow u d sh row with
      | some x => setEntry u d row x 1 0
      | none => pure ())
    (fun (e : Stop) => match e with
      | .need ns => throw (.need ns)
      | _ => pure ())
  modCopy u.b table row (fun _ => [])

/-- A row under copy stays with its owner for a fault, which is its command's; a guest entry that the target keeps for it is free again. -/
def stayFor (u : TeUse) (c : TeCopy) (f : Flt) : Mc Unit := do
  modify (fun s => ownerFault s u.b f.code 6 0 c.table c.row)
  stay u c.table c.row
  tellIssuer u.b (if c.entry = 2 ^ 32 then 5 else 13) (c.chip * 16 + c.bay) c.tag c.ctx 3 c.table c.row f.code f.addr
  if c.entry < 2 ^ 32 then sendOn u.b c.target c.ctx (svcBody 17 0 c.table 0 c.row 0 c.tag [])

/-- The target's answer about a guest entry (R246): the record is read and copied there, or the row stays. -/
def reserved (b : Nat) (m : List Byte) : Mc Bool := do
  let s ← get
  match (s.bay b).te.copies.find? (fun c => c.table == vTable m && c.row == vRow m) with
  | none => pure true
  | some c =>
    if vA m = 1 then
      let u := teOwn b (svcNo m)
      let (d, sh) ← ownerTable u (vTable m)
      match ← findRow u d sh (vRow m) with
      | none => fault 0x66
      | some x =>
        let c := { c with entry := vY m, dirty := false }
        let bs ← readRecord_ u d sh x
        sendCopy b c bs
        modCopy b c.table c.row (fun _ => [c])
        tellIssuer b 5 (c.chip * 16 + c.bay) (vZ m) (mCtx m) 1 c.table c.row 0 0
        pure true
    else
      stay (teOwn b (svcNo m)) c.table c.row
      if vA m = 0 then
        modify (fun s => s.incReg (Reg.TE_MIGFAIL b))
        tellIssuer b 5 (c.chip * 16 + c.bay) (vZ m) (mCtx m) 2 c.table c.row 0 0
      else tellIssuer b 5 (c.chip * 16 + c.bay) (vZ m) (mCtx m) 3 c.table c.row (vX m) (field (vData m) 0 8)
      pure true

/-- The target's answer about a copy: it has landed, or its fault is the command's and the row stays. -/
def copyAnswer (b : Nat) (m : List Byte) : Mc Bool := do
  let s ← get
  match (s.bay b).te.copies.find? (fun c => c.table == vTable m && c.row == vRow m) with
  | none => pure true
  | some c =>
    if vA m = 1 then modCopy b c.table c.row (fun c => [{ c with landed := true }])
    else
      stay (teOwn b (svcNo m)) c.table c.row
      tellIssuer b 13 (c.chip * 16 + c.bay) (vZ m) (mCtx m) 0 c.table c.row (vX m) (field (vData m) 0 8)
    pure true

/-- TROWWRITE at an owner (R248): the row is sent on to another owner, or written in one piece; a row on its way here is waited for. -/
def writeRow (b : Nat) (m : List Byte) : Mc Bool := do
  let u := teOwn b (svcNo m)
  let (d, sh) ← ownerTable u (vTable m)
  let img := vData m
  let tier := bits (field img 2 1) 1 0
  let s ← get
  match ← findRow u d sh (vRow m) with
  | none =>
    if awaited s b (vTable m) (vRow m) then pure false else fault 0x68
  | some x =>
    if x.st = 3 then
      sendOn b x.fwd (mCtx m) (mBody m) noWay
      modify (fun s => s.incReg (Reg.TE_FWD b))
    else
      failIf (x.st == 0 || x.tier != tier) 0x68
      let n := 16 + rowData d.nelem tier
      failIf (decide (1024 < n)) 0x61
      let bs := img.take n ++ (if vA m = 1 then leBytes (stateOff d.nelem tier - n + stateBytes d) 0 else [])
      teWrite u d.tctx (recAddr d sh x) bs true
      modify (fun s => markDirty s b (vTable m) (vRow m))
      tellIssuer b 12 (vX m) (vZ m) (mCtx m) 0 (vTable m) (vRow m) 0 0
    pure true

/-- The rows of a TMIGRATE that had begun have flipped: DSYNC counts it (R246). -/
def moveEnds (s : State) (b tag : Nat) : State :=
  match (s.bay b).te.moves.find? (fun v => v.tag == tag && v.closed && v.left == 0) with
  | none => s
  | some v =>
    sendSignal (s.modTe b (fun x => { x with moves := x.moves.erase v }))
      { obj := v.obj, amount := 1, pane := v.pane, chip := s.chip, ctx := v.ctx, task := none, completes := false, guards := [] }

/-- Change the count of rows that a TMIGRATE has moving. -/
def moveCount (s : State) (b tag : Nat) (f : Nat → Nat) : State :=
  s.modTe b (fun x => { x with moves := x.moves.map (fun v => if v.tag = tag then { v with left := f v.left } else v) })

/-- A row that a TMIGRATE had begun to move faults at its target: its task faults, and the move counts for no sync object. -/
def moveFails (s : State) (b tag table row code addr : Nat) : State :=
  match (s.bay b).te.moves.find? (fun v => v.tag == tag) with
  | none => s
  | some v =>
    taskFault (s.modTe b (fun x => { x with moves := x.moves.erase v })) v.task code
      { eng := 5, op := 6, pos := table * 2 ^ 40 + row, hub := true, addr }

/-- An answer about one row of a command of this bay: the row is done, or its task faults; `own`: the fault is the requester's. -/
def rowDone (s : State) (b tag row code addr : Nat) (own : Bool := false) : State :=
  match (s.bay b).te.jobs.find? (fun j => j.sent.any (fun e => e.1 == tag)) with
  | none => s
  | some j =>
    if code ≠ 0 then
      taskFault s j.task code { eng := 5, op := j.op, pos := cbits j.cmd 8 11 0 * 2 ^ 40 + row, hub := !own, tag := cbytes j.cmd 4 4, addr }
    else s.modTe b (fun x => { x with jobs := x.jobs.map (fun k => { k with
      sent := (k.sent.map (fun e => if e.1 = tag then (e.1, e.2.erase row) else e)).filter (fun e => !e.2.isEmpty) }) })

/-- Serve one table-service message at bay `b`; the flag says whether it is done. -/
def serveSvc (s : State) (b : Nat) (m : List Byte) : State × Bool :=
  let k := vKind m
  let t := vTable m
  let row := vRow m
  let n := svcNo m
  let from_ := mSchip m * 16 + mSbay m
  let owns := holdOwner s b n false
  let hears := fun (op : Nat) (f : Flt) => (modify (fun s => ownerFault s b f.code op (vLane m) t row) : Mc Unit)
  let gaveUp := fun (f : Flt) => (do
    match (s.bay b).te.copies.find? (fun c => c.table == t && c.row == row) with
    | some c => stayFor (teOwn b n) c f
    | none => pure () : Mc Unit)
  if k = 0 then (s.modTe b (fun x => { x with reqIn := x.reqIn ++ [rowOf_ m] }), true)
  else if k = 1 then (s.modTe b (fun x => { x with conIn := x.conIn ++ [conOf m] }), true)
  else if k = 2 then
    owns (do
        let (_, sh) ← ownerTable (teOwn b n) t
        sendSvc b from_ (mTag m) (mCtx m) true (svcBody 3 (b2n (decide (1 ≤ sh.glog ∧ sh.glog ≤ 20))) t 0 0 0 0 []))
      (fun _ => do
        let _ ← sendSvc b from_ (mTag m) (mCtx m) true (svcBody 3 0 t 0 0 0 0 []))
  else if k = 3 then (rowDone s b (mTag m) 0 (if vA m = 1 then 0 else 0x67) 0 true, true)
  else if k = 4 then
    owns (moveRow b m) (fun f => do
      hears 6 f
      tellIssuer b 5 (vX m) (vZ m) (mCtx m) 3 t row f.code f.addr)
  else if k = 5 then
    let s := if vA m = 1 then moveCount s b (vTag m) (· + 1) else s
    (rowDone s b (vTag m) row (if vA m = 3 then vX m else 0) (field (vData m) 0 8), true)
  else if k = 6 then
    owns (do
        let e ← reserve (teOwn b n) m
        match e with
        | some i => modify (fun s => s.modTe b (fun x => { x with resv := x.resv ++ [(t, row, i)] }))
        | none => pure ()
        sendSvc b from_ (vTag m) (mCtx m) true (svcBody 7 (b2n e.isSome) t 0 row (e.getD 0) (vZ m) []))
      (fun f => do
        hears 6 f
        let _ ← sendSvc b from_ (vTag m) (mCtx m) true (svcBody 7 2 t f.code row 0 (vZ m) (leBytes 8 f.addr)))
  else if k = 7 then
    owns (reserved b m) gaveUp
  else if k = 8 then
    owns (landCopy b m) (fun f => do
      hears 6 f
      modify (fun s => s.modTe b (fun x => { x with resv := x.resv.filter (fun r => !(r.1 == t && r.2.1 == row)) }))
      let _ ← sendSvc b from_ (vTag m) (mCtx m) true (svcBody 14 0 t f.code row 0 (vZ m) (leBytes 8 f.addr)))
  else if k = 9 then
    owns (homeFlip b m) (fun f => do
      hears 6 f
      modify (fun s => logE s 0x07 2 b f.addr (detail f.code (mCtx m)) 0x0D))
  else if k = 10 then (moveEnds (moveCount s b (vTag m) (· - 1)) b (vTag m), true)
  else if k = 11 then
    owns (writeRow b m) (fun f => do
      hears 7 f
      tellIssuer b 12 (vX m) (vZ m) (mCtx m) 0 t row f.code f.addr)
  else if k = 12 then (rowDone s b (vTag m) row (vX m) (field (vData m) 0 8), true)
  else if k = 13 then (moveFails s b (vTag m) t row (vX m) (field (vData m) 0 8), true)
  else if k = 14 then
    owns (copyAnswer b m) gaveUp
  else if k = 15 then
    owns (install b m) (fun f => do
      hears 6 f
      modify (fun s => logE s 0x07 2 b f.addr (detail f.code (mCtx m)) 0x0D))
  else if k = 17 then (s.modTe b (fun x => { x with resv := x.resv.filter (fun r => !(r.1 == t && r.2.1 == row)) }), true)
  else if k = 16 then (ackLocal s b (vTag m) (vX m), true)
  else (logE s 0x07 2 b 0 0 0x0D, true)

/-- Serve the first message of a list that can be served, but none before an older one of its kind about its row; the flag says
whether one was. -/
def serveSvcs (b : Nat) (s : State) (held : List (Nat × Nat)) : List (List Byte) → State × Bool
  | [] => (s, false)
  | m :: ms =>
    if held.contains (vKind m, vRow m) then serveSvcs b s held ms
    else
      match serveSvc s b m with
      | (s', true) => (s'.modTe b (fun x => { x with svcIn := x.svcIn.erase m }), true)
      | (s', false) => serveSvcs b s' ((vKind m, vRow m) :: held) ms

/-- Serve the table-service messages of the bays that can be served, in rounds; `fuel` bounds them. -/
def pumpSvc : Nat → State → State
  | 0, s => s
  | fuel + 1, s =>
    let r := (List.range 16).foldl (fun (a : State × Bool) b =>
      let x := serveSvcs b a.1 [] (a.1.bay b).te.svcIn
      (x.1, a.2 || x.2)) (s, false)
    if r.2 then pumpSvc fuel r.1 else r.1

/-- Does an apply of a table run at the bay, or has one stopped that is to go on (Table 7-14)? -/
def applying (s : State) (b table : Nat) (sh : Shard) : Bool :=
  sh.cursor != 0 || (s.bay b).te.jobs.any (fun j => j.op == 4 && cbits j.cmd 8 12 12 == 0 && cbits j.cmd 8 11 0 == table)

/-- A copied row leaves its old owner (Table 7-14): its entry names the target, whose own becomes present; the home learns of it;
its waiting contributions follow; the issuer is told. -/
def flipRow (u : TeUse) (d : TDesc) (x : RowAt) (c : TeCopy) : Mc Unit := do
  let (home, hc, hb, _) ← isHome u d c.row
  let toHome := c.target == hc * 16 + hb
  setEntry u d c.row x 3 c.target
  sendOn u.b c.target c.ctx (svcBody 15 (b2n toHome + 4 * x.tier) c.table 0 c.row (c.entry % 2 ^ 32) c.tag [])
  if !home && !toHome then sendOn u.b (hc * 16 + hb) c.ctx (svcBody 9 0 c.table 0 c.row c.target c.tag [])
  let mine := fun (g : Contrib) => g.table == c.table && g.row == c.row
  let s ← get
  let gs := (s.bay u.b).te.grads.filter mine
  set ((s.incReg (Reg.TE_MIGR u.b)).modTe u.b (fun x => { x with grads := x.grads.filter (fun g => !mine g) }))
  gs.forM (fun (g : Contrib) => forwardCon u.b c.target { g with tag := none })
  modCopy u.b c.table c.row (fun _ => [])
  let _ ← sendSvc u.b (c.chip * 16 + c.bay) c.tag c.ctx true (svcBody 10 0 c.table 0 c.row 0 c.tag [])

/-- The copy of a row has completed at its old owner (Table 7-14): it is copied again when it was written meanwhile, or once an
apply of its table that runs has ended; else it flips. -/
def copyDone1 (b : Nat) (c : TeCopy) : Mc Bool := do
  let u := teOwn b (copyNo c)
  let (d, sh) ← ownerTable u c.table
  match ← findRow u d sh c.row with
  | none => fault 0x66
  | some x =>
    let s ← get
    let again := do
      let bs ← readRecord_ u d sh x
      sendCopy b c bs
    if c.dirty then
      again
      modCopy b c.table c.row (fun c => [{ c with dirty := false, landed := false }])
    else if applying s b c.table sh then modCopy b c.table c.row (fun c => [{ c with again := true }])
    else if c.again then
      again
      modCopy b c.table c.row (fun c => [{ c with again := false, landed := false }])
    else
      let _ ← readRow u d sh x
      flipRow u d x c
    pure true

/-- MIGRATION_COPY_DONE at bay `b`: the first copy that has landed. -/
def copyDone (s : State) (b : Nat) : State :=
  match (s.bay b).te.copies.find? (·.landed) with
  | none => s
  | some c =>
    (holdOwner s b (copyNo c) false (copyDone1 b c) (stayFor (teOwn b (copyNo c)) c)).1

end Sys2Proof.Machine
end

