-- ==== Sys2Proof/Machine/Te.lean ====
section
/-! DEFINITION. The table engine as a requester (R226 to R249): TLOOKUP, TPREFETCH, TGRAD, TSTEP, TREPL, TMIGRATE and
TROWWRITE, the rows and acknowledgements that come back to them, and the commands of the table family. -/

namespace Sys2Proof.Machine

open Sys2Proof

/-! ### Mapping (R226) -/

/-- Key of a row. -/
def rowKey (table row : Nat) : Nat := table * 2 ^ 40 + row

/-- The component tables of a composed table, read with its descriptor. Log entry 57, DEDUCED. -/
def partTables (u : TeUse) (d : TDesc) : Mc (Nat × Nat) := do
  if d.mode = 2 then
    let q ← readTable u d.qtab
    let r ← readTable u d.rtab
    pure (q.nrows, r.nrows)
  else pure (0, 0)

/-- The rows that an index maps to; none: the default row. -/
def mapIndex (d : TDesc) (table : Nat) (qr : Nat × Nat) (idx : Nat) : List Nat :=
  if d.mode = 1 then [rowKey table (idx * d.hmul % 2 ^ 64 / 2 ^ 24 % d.nrows)]
  else if d.nrows ≤ idx then []
  else if d.mode = 0 then [rowKey table idx]
  else
    let q := idx / d.nrem
    let r := idx % d.nrem
    if qr.1 ≤ q ∨ qr.2 ≤ r then [] else [rowKey d.qtab q, rowKey d.rtab r]

/-- Rows that a staging area of `n` regions holds (R233). -/
def stagingRows (nelem n : Nat) : Nat := (n * 65536 - 64) / (32 * ((16 + 4 * nelem + 31) / 32) + 32)

/-- Key of a staging area of pane instance `i`: what a TPREFETCH staged there, or what the last TLOOKUP did (R229, R237). -/
def areaKey (s : State) (i ctx addr : Nat) (lookup : Bool) : Nat :=
  (ctx * 2 ^ 32 + (s.pane i).number.getD 0 * 2 ^ 24 + addr) * 2 + b2n lookup

/-- The rows staged in an area. -/
def stagedIn (s : State) (b area : Nat) : List (Nat × Nat × List Byte) :=
  (((s.bay b).te.staged.find? (fun e => e.1 == area)).map (·.2)).getD []
/-- Replace the rows of an area. -/
def setStaged (s : State) (b area : Nat) (rows : List (Nat × Nat × List Byte)) : State :=
  s.modTe b (fun x => { x with staged := (area, rows) :: x.staged.filter (fun e => e.1 != area) })

/-- A replica that serves a step, or any replica when `any` (R229, R233). -/
def replicaOf (s : State) (b key : Nat) (any : Bool) (step : Nat) : Option HotLine :=
  (s.bay b).te.hot.find? (fun h => rowKey h.table h.row == key && !h.data.isEmpty && (any || h.stamp + 1 == step))

/-- What mapping has assigned so far: rows by id, ids of rows that later occurrences share, rows held by staging, counts. -/
structure MapAcc where
  keys : List Nat := []
  shared : List (Nat × Nat) := []
  held : Nat := 0
  dedup : Nat := 0
  ovf : Nat := 0
  occ : List (List Nat) := []
deriving DecidableEq, Repr

/-- Map one occurrence: a row seen before shares its id; beyond the staging capacity each occurrence has its own. Log entry 57, DEDUCED. -/
def mapOcc (cap : Nat) (free : Nat → Bool) (a : MapAcc) (keys : List Nat) : MapAcc :=
  let seen := !keys.isEmpty && keys.all (fun k => a.shared.any (fun e => e.1 == k))
  let r := keys.foldl (fun (x : MapAcc × List Nat) k =>
    match x.1.shared.find? (fun e => e.1 == k) with
    | some e => (x.1, x.2 ++ [e.2])
    | none =>
      let id := x.1.keys.length
      let y : MapAcc := { x.1 with keys := x.1.keys ++ [k] }
      if free k then ({ y with shared := (k, id) :: y.shared }, x.2 ++ [id])
      else if x.1.held < cap then ({ y with shared := (k, id) :: y.shared, held := x.1.held + 1 }, x.2 ++ [id])
      else ({ y with ovf := x.1.ovf + 1 }, x.2 ++ [id])) (a, [])
  { r.1 with occ := a.occ ++ [r.2], dedup := a.dedup + b2n seen }

/-! ### Sending -/

/-- The running table command of a bay. -/
def teJob (b : Nat) : Mc TeJob := do
  let s ← get
  match (s.bay b).te.jobs with
  | j :: _ => pure j
  | [] => throw .wait
/-- Put it back. -/
def putTe (b : Nat) (j : TeJob) : Mc Unit := modify (fun s => s.modTe b (fun x => { x with jobs := [j] }))

/-- How far a piece of a table command's work came. -/
inductive TeGo where
  | waits
  | goesOn
  | complete
  /-- it stops for a context switch and goes on when the task runs again (R227) -/
  | stops
deriving DecidableEq, Repr

/-- Ids outstanding. -/
def outRows (j : TeJob) : Nat := (j.sent.map (fun e => e.2.length)).foldl (· + ·) 0

/-- Home of a row as the requester finds it (R219). -/
def rowHome (u : TeUse) (ctx key : Nat) : Mc (Nat × Nat) := do
  let d ← readTable u (key / 2 ^ 40)
  let (c, hb, _) ← atRow (key / 2 ^ 40) (key % 2 ^ 40) (homeOf (fun a n => vaRead u.w ctx a n) d (key % 2 ^ 40))
  pure (c, hb)

/-- Homes of rows, those that can be found now, and the lines that finding the others lacks; with `drop`, none for a row whose home
cannot be found at all (R233). -/
def homesOf (u : TeUse) (ctx : Nat) (drop : Bool) (keys : List (Nat × Nat)) :
    Mc (List (Nat × Nat × Option (Nat × Nat)) × List Need) :=
  keys.foldlM (fun a (k : Nat × Nat) =>
    tryCatch (do
        let h ← rowHome u ctx k.2
        pure (a.1 ++ [(k.1, k.2, some h)], a.2))
      (fun (e : Stop) => match e with
        | .need ns => pure (a.1, a.2 ++ ns)
        | .flt f => if drop then pure (a.1 ++ [(k.1, k.2, none)], a.2) else throw (.flt f)
        | .page c x l v h w => if drop then pure (a.1 ++ [(k.1, k.2, none)], a.2) else throw (.page c x l v h w)
        | e => throw e)) ([], [])

/-- Homes of all rows of a list. -/
def allHomes (u : TeUse) (ctx : Nat) (keys : List Nat) : Mc (List (Nat × Nat × Nat)) := do
  let (hs, ns) ← homesOf u ctx false (keys.map (fun k => (0, k)))
  if !ns.isEmpty then throw (.need ns)
  pure (hs.map (fun h => (h.2.1, h.2.2.getD (0, 0))))

/-- Send one request for rows of one table to one home; a request to another device carries up to 255 rows (R234). Log entry 18, DESIGN CHOICE. -/
def sendRows (b : Nat) (j : TeJob) (prefetch now : Bool) (step pane chip hb table : Nat) (ids : List Nat) : Mc Unit := do
  let tag ← freshTag b
  let rows := ids.map (fun id => (id, j.keys.getD id 0 % 2 ^ 40))
  let s ← get
  let j' ← teJob b
  let j' : TeJob := { j' with ask := j'.ask.filter (fun x => !ids.contains x), sent := j'.sent ++ [(tag, ids)] }
  if chip = s.chip then
    putTe b j'
    modify (fun s => rows.foldl (fun s (r : Nat × Nat) =>
      deliverTe s b hb b 0 (.rowReq { bay := b, chip, tag, slot := r.1, table, row := r.2, step, prefetch, now, lpane := pane % 8,
                                      op := j.op, ctx := j.ctx }) 32) s)
  else
    let body := leBytes 2 table ++ leBytes 2 (b2n prefetch + 2 * b2n now + j.op % 8 * 16) ++ leBytes 4 step ++ leBytes 4 rows.length
      ++ rows.flatMap (fun r => leBytes 8 (r.2 + r.1 % 2 ^ 24 * 2 ^ 40))
    if ← sendRouted b 0 (reqMsg s b 0x07 3 chip hb j.ctx tag pane 5 body) then
      modify (fun s => s.incReg (Reg.TE_REMOTE b) rows.length)
      putTe b j'
    else if prefetch then
      modify (fun s => s.incReg (Reg.TE_PFDROP b) rows.length)
      putTe b { j' with sent := j'.sent.filter (fun e => e.1 != tag) }
    else fault 0xB0

/-- Group ids by home and table, in order. -/
def groupRows (xs : List (Nat × Nat × Nat × Nat)) : List ((Nat × Nat × Nat) × List Nat) :=
  xs.foldl (fun (gs : List ((Nat × Nat × Nat) × List Nat)) x =>
    let k := (x.2.1, x.2.2.1, x.2.2.2)
    if gs.any (fun g => g.1 == k && decide (g.2.length < 255)) then
      gs.map (fun g => if g.1 == k && decide (g.2.length < 255) then (g.1, g.2 ++ [x.1]) else g)
    else gs ++ [(k, [x.1])]) []

/-- Request the ids that wait and whose homes are known, up to 1,024 rows outstanding (R234); the answer says whether any went. A
prefetch whose home cannot be found is dropped. -/
def askRows (u : TeUse) (i : Nat) (prefetch now : Bool) (step : Nat) : Mc Bool := do
  let b := u.b
  let j ← teJob b
  let s ← get
  let ids := j.ask.take (1024 - outRows j)
  let (homes, ns) ← homesOf u j.ctx prefetch (ids.map (fun id => (id, j.keys.getD id 0)))
  if homes.isEmpty then
    if ns.isEmpty then pure false else throw (.need ns)
  else
    let bad := (homes.filter (fun h => h.2.2.isNone)).map (·.1)
    modify (fun s => s.incReg (Reg.TE_PFDROP b) bad.length)
    putTe b { j with ask := j.ask.filter (fun x => !bad.contains x) }
    (groupRows (homes.filterMap (fun h => h.2.2.map (fun c => (h.1, c.1, c.2, h.2.1 / 2 ^ 40))))).forM (fun g =>
      sendRows b j prefetch now step ((s.pane i).number.getD 0) g.1.1 g.1.2.1 g.1.2.2 g.2)
    pure true

/-- Send the next contribution, at most 4,096 requests outstanding (R237, R418): to the owner that the bay's replica of the row names,
else to its home. The answer says whether one went. -/
def sendCon (u : TeUse) (i : Nat) : Mc Bool := do
  let b := u.b
  let j ← teJob b
  let s ← get
  match j.cons with
  | [] => pure false
  | c :: rest =>
    if 4096 ≤ j.sent.length + ((s.bay b).xe.reqs.filter (fun r => !r.host)).length then pure false
    else
      let dst ← (match (s.bay b).te.hot.find? (fun h => h.table == c.table && h.row == c.row) with
        | some h => pure (h.owner / 16, h.owner % 16)
        | none => rowHome u j.ctx (rowKey c.table c.row))
      let tag ← freshTag b
      let c : Contrib := { c with tag := some tag }
      let key := (j.keys.zipIdx.find? (fun k => k.1 == rowKey c.table c.row)).map (·.2)
      putTe b { j with cons := rest, begun := j.begun + 1, sent := j.sent ++ [(tag, [key.getD j.keys.length])] }
      let s ← get
      if dst.1 = s.chip then set (deliverTe s b dst.2 b 1 (.con c) (32 + c.data.length))
      else
        let body := leBytes 2 c.table ++ leBytes 2 c.gfmt ++ leBytes 4 c.step ++ leBytes 8 c.row ++ leBytes 8 c.pos
          ++ leBytes 4 c.weight ++ leBytes 4 0 ++ c.data ++ leBytes ((4 - c.data.length % 4) % 4) 0
        if !(← sendRouted b 0 (reqMsg s b 0x09 c.cls dst.1 dst.2 j.ctx tag ((s.pane i).number.getD 0) 5 body)) then fault 0xB0
      pure true

/-! ### Pooling (R231, R232) -/

/-- A row that has arrived. -/
def gotOf (j : TeJob) (id : Nat) : Option TeGot := j.got.find? (fun g => g.id == id)

/-- Values of an occurrence, none: the default row. Two components combine element by element. Log entry 57, DEDUCED. -/
def occValues (d : TDesc) (j : TeJob) (ids : List Nat) : Option (List Nat) :=
  match ids.filterMap (fun id => (gotOf j id).bind (fun g => if g.absent then none else some (dequant d.nelem g.data))) with
  | [x] => if ids.length = 1 then some x else none
  | [q, r] => some ((q.zip r).map (fun p => if d.comb = 0 then sum32 p.1 p.2 else mul32 p.1 p.2))
  | _ => none

/-- Place of an occurrence in arrival order: that of its last row. Log entry 16, DEDUCED. -/
def arrival (j : TeJob) (ids : List Nat) : Nat :=
  ids.foldl (fun a id => max a ((j.got.findIdx? (fun g => g.id == id)).getD 0 + 1)) 0

/-- Pool one element of a bag. Log entry 57, DEDUCED. -/
def poolElem (cls e : Nat) (terms : List (Nat × List Nat)) : Comb × Nat :=
  let bits := fun (t : Nat × List Nat) => term32 t.1 (t.2.getD e 0)
  if cls = 2 then
    let r := exactSum (terms.map (fun t => LongEl.ofFV (FV.mul (f32 t.1) (f32 (t.2.getD e 0)))))
    (⟨r.1.toBits, r.2.1⟩, r.2.2)
  else
    let r := if cls = 1 then treeSum false (terms.length + 1) (terms.map bits) else runSum false (terms.map (fun t => sumLeaf false (bits t)))
    (⟨r.v, r.top⟩, r.sats)

/-- The output fields of a TLOOKUP, as those of a GATHER. -/
def poolCmd (c : Nat) : NgeCmd :=
  { ngeCmd 1 0 with
    agg := 0
    out := cbits c 28 23 0
    ostride := cbits c 32 23 0
    ofmt := cbits c 8 15 12
    osat := cbits c 8 16 16 == 1
    panels := cbits c 8 17 17 == 1
    num := cbits c 12 23 0 }

/-- Write the next bag of a TLOOKUP. -/
def writeBag (u : TeUse) (i : Nat) (d : TDesc) (j : TeJob) : Mc Unit := do
  let b := u.b
  let m := poolCmd j.cmd
  let k := j.done
  let o0 := j.offs.headD 0
  let lo := j.offs.getD k 0 - o0
  let n := j.offs.getD (k + 1) 0 - j.offs.getD k 0
  let occ := ((j.occ.drop lo).take n).zip ((j.wts.drop lo).take n)
  let vals := occ.map (fun x => occValues d j x.1)
  let misses := (vals.filter (·.isNone)).length
  let dflt ← if misses = 0 then pure [] else (do
    let bs ← vaRead u.w j.ctx d.defaddr (4 * d.nelem)
    pure ((List.range d.nelem).map (fun e => field bs (4 * e) 4)))
  let terms := (occ.zip vals).map (fun x => (arrival j x.1.1, x.1.2, x.2.getD dflt))
  let terms := (if j.cls = 0 then terms.insertionSort (fun x y => x.1 ≤ y.1) else terms).map (·.2)
  let outs := (List.range d.nelem).map (fun e => poolElem j.cls e terms)
  let (bits, _, canc, cv) := finalRow m j.cls n (outs.map (·.1))
  if m.panels then
    lanePut i m.ofmt (m.out + k / 64 * m.ostride) (k % 64) bits 5
    if k + 1 = m.num then
      for l in (List.range 64).drop (m.num - k / 64 * 64) do
        lanePut i m.ofmt (m.out + k / 64 * m.ostride) l (List.replicate d.nelem 0) 5
  else spWrite i 5 (m.out + k * m.ostride) (packElems (fmtBits m.ofmt) bits)
  modify (fun s =>
    let s := s.incReg (Reg.TE_LOOKUP b) n
    let s := s.incReg (Reg.TE_DEFAULT b) misses
    let s := s.incReg (Reg.TE_CANC b) canc
    s.incReg (Reg.TE_SAT b) ((outs.map (·.2)).foldl (· + ·) 0 + cv))

/-- Are the rows of a bag all here? -/
def bagReady (j : TeJob) (k : Nat) : Bool :=
  let o0 := j.offs.headD 0
  ((j.occ.drop (j.offs.getD k 0 - o0)).take (j.offs.getD (k + 1) 0 - j.offs.getD k 0)).all (fun ids => ids.all (fun id => (gotOf j id).isSome))

/-! ### Contributions of a TGRAD (R237) -/

/-- The contributions of one occurrence. Log entry 58, DEDUCED. -/
def occContribs (s : State) (i : Nat) (d : TDesc) (j : TeJob) (gfmt step pos w : Nat) (ids : List Nat) (g : List Byte) :
    List Contrib :=
  let mk := fun (id gf : Nat) (data : List Byte) =>
    let key := j.keys.getD id 0
    ({ bay := bayOf i, chip := s.chip, tag := none, lpane := (s.pane i).number.getD 0 % 8, cls := j.cls, table := key / 2 ^ 40, gfmt := gf, step,
       row := key % 2 ^ 40, pos, weight := w, data, ctx := j.ctx } : Contrib)
  if d.mode = 2 ∧ d.comb = 1 then
    match ids with
    | [q, r] =>
      match gotOf j q, gotOf j r with
      | some x, some y =>
        if x.absent || y.absent then []
        else
          let ge := fun (k : Nat) => if gfmt = 2 then field g (2 * k) 2 * 2 ^ 16 else field g (4 * k) 4
          let times := fun (vs : List Nat) => (vs.zipIdx.map (fun v => leBytes 4 (mul32 (ge v.2) v.1))).flatten
          [mk q 0 (times (dequant d.nelem y.data)), mk r 0 (times (dequant d.nelem x.data))]
      | _, _ => []
    | _ => []
  else if ids.any (fun id => (gotOf j id).any (·.absent)) then []
  else ids.map (fun id => mk id gfmt g)

/-- Form every contribution of a TGRAD. Log entry 58, DEDUCED. -/
def formCons (i : Nat) (d : TDesc) (j : TeJob) : Mc (List Contrib) := do
  let c := j.cmd
  let gfmt := cbits c 8 15 12
  let row := d.nelem * (if gfmt = 2 then 2 else 4)
  let xs ← (List.range (cbits c 12 23 0)).mapM (fun k => do
    let lo := j.offs.getD k 0
    let n := j.offs.getD (k + 1) 0 - lo
    let g ← spRead i 5 (cbits c 28 23 0 + k * cbits c 32 23 0) row
    let s ← get
    pure ((List.range n).flatMap (fun t =>
      let at0 := lo - j.offs.headD 0 + t
      occContribs s i d j gfmt (cbytes c 40 4) (cbits c 44 39 0 + lo + t) (j.wts.getD at0 0) (j.occ.getD at0 []) g)))
  pure xs.flatten

/-! ### The hot set (R243, R245) -/

/-- Lines that a replica occupies. -/
def hotLines (h : HotLine) : Nat := (h.data.length + 63) / 64

/-- Hot-set lines in use, shown by TE_HOTLINES. -/
def countHot (s : State) (b : Nat) : State :=
  s.setReg (Reg.TE_HOTLINES b) (((s.bay b).te.hot.map hotLines).foldl (· + ·) 0)

/-- A row arrives for its replica: the replica is filled when it fits (R245). Log entry 62, DEDUCED. -/
def fillHot (s : State) (b : Nat) (key owner stamp : Nat) (data : List Byte) : State :=
  let others := (s.bay b).te.hot.filter (fun h => rowKey h.table h.row != key)
  let h : HotLine := { table := key / 2 ^ 40, row := key % 2 ^ 40, owner, stamp, data }
  if (others.map hotLines).foldl (· + ·) 0 + hotLines h ≤ 65536 then
    countHot (s.modTe b (fun x => { x with hot := others ++ [h] })) b
  else (countHot (s.modTe b (fun x => { x with hot := others })) b).incReg (Reg.TE_HOTOVF b)

/-! ### The pump -/

/-- The table command of a bay is complete. -/
def endTe (b : Nat) : Mc TeGo := do
  let j ← teJob b
  modify (fun s => (s.modTe b (fun x => { x with jobs := [] })).modPane j.pane (fun p => { p with
    seq := { p.seq with progress := tset 0 (tset 0 p.seq.progress 5 0) 105 0 } }))
  pure .complete

/-- The bytes of the next entry of a TROWWRITE: row, image, address of the entry after it (R249). -/
def writeEntry (i : Nat) (d : TDesc) (a : Nat) : Mc (Nat × List Byte × Nat) := do
  let h ← spRead i 5 a 32
  failIf (bits (leNat h) 255 40 != 0) 0x60
  let row := field h 0 5
  let ih ← spRead i 5 (a + 32) 16
  let tier := bits (field ih 2 1) 1 0
  let n := 16 + rowData d.nelem tier
  failIf (decide (1024 < n)) 0x61
  let img ← spRead i 5 (a + 32) n
  pure (row, img, a + 32 + (n + 31) / 32 * 32)

/-- Z of a message of a command: its TAG and the local index of its pane. -/
def cmdZ (s : State) (i tag : Nat) : Nat := tag + (s.pane i).number.getD 0 % 8 * 2 ^ 16

/-- The rows that a TMIGRATE or a TREPL lists: those of its table; an index beyond the table names none. Log entry 60, DESIGN CHOICE. -/
def listed (d : TDesc) (table : Nat) (keys : List Nat) : List Nat :=
  keys.filter (fun k => d.mode != 2 && decide (k % 2 ^ 40 < d.nrows) && decide (k / 2 ^ 40 = table))

/-- Close a TMIGRATE's count of begun rows. -/
def closeMove (s : State) (b tag : Nat) : State :=
  moveEnds (s.modTe b (fun x => { x with moves := x.moves.map (fun v => if v.tag = tag then { v with closed := true } else v) })) b tag

/-- Advance a TMIGRATE: once the target is known to hold a guest area the rows go to their homes (R246). -/
def pumpMigrate (u : TeUse) (i : Nat) (d : TDesc) : Mc TeGo := do
  let b := u.b
  let j ← teJob b
  let c := j.cmd
  let table := cbits c 8 11 0
  let target := cbits c 20 11 0 * 16 + cbits c 20 15 12
  if !j.sent.isEmpty then pure .waits
  else if j.done = 0 then
    let homes ← allHomes u j.ctx (listed d table j.keys)
    let tag ← freshTag b
    putTe b { j with done := 1, begun := tag, sent := if homes.isEmpty then [] else [(tag, homes.map (fun h => h.1 % 2 ^ 40))] }
    modify (fun s => s.modTe b (fun x => { x with moves := x.moves ++
      [{ tag, left := 0, obj := cbits c 20 31 16, pane := (s.pane i).number.getD 0, ctx := j.ctx, closed := false, task := j.task }] }))
    homes.forM (fun h => do
      let s ← get
      if !(← sendSvc b (h.2.1 * 16 + h.2.2) tag j.ctx false
          (svcBody 4 0 table (s.chip * 16 + b) (h.1 % 2 ^ 40) target (cmdZ s i tag) [])) then fault 0xB0)
    pure .goesOn
  else
    modify (fun s => closeMove s b j.begun)
    endTe b

/-- Apply the contributions of one row: one read-modify-write of its record (R240 to R242). Log entry 61, DEDUCED. Log entry 64, DESIGN CHOICE. -/
def applyRow (u : TeUse) (table cls lr c1 c2 : Nat) (d : TDesc) (sh : Shard) (row : Nat) (cs : List Contrib) : Mc Unit := do
  match ← findRow u d sh row with
  | none => pure ()
  | some x =>
    let hd ← readRow u d sh x
    let so := stateOff d.nelem x.tier
    let rec1 ← teRead u d.tctx (recAddr d sh x) (so + stateBytes d) true
    let st := (List.range (stateBytes d / 4)).map (fun k => field rec1 (so + 4 * k) 4)
    let cs := cs.insertionSort (fun a b => conBefore cls a b = true)
    let (ws, st') := updateRow d cls lr c1 c2 cs (dequant d.nelem hd) st
    let s ← get
    let (k, s) := s.pick d.nelem
    let (free, s) := s.freeBytes 4
    set s
    let (hd', nonfin) := requant hd ws k free
    teWrite u d.tctx (recAddr d sh x) (hd' ++ leBytes (so - hd'.length) 0 ++ (st'.map (leBytes 4)).flatten) true
    modify (fun s =>
      let s := s.incReg (Reg.TE_APPLIED u.b)
      let s := if nonfin then s.incReg (Reg.TE_NONFIN u.b) else s
      markDirty s u.b table row)

/-- Advance an apply by one row (R240): CURSOR counts the rows done, and a switch of its pane stops it after a row (R227). After the
last row APPLIED becomes STEP, the buffer is empty and CURSOR is 0. Log entry 61, DEDUCED. -/
def pumpApply (u : TeUse) (i : Nat) (d : TDesc) : Mc TeGo := do
  let b := u.b
  let j ← teJob b
  let c := j.cmd
  let table := cbits c 8 11 0
  let step := cbytes c 12 4
  let s ← get
  if d.mode = 2 then endTe b
  else if (s.pane i).sw.isSome then pure .stops
  else
    let rec0 := d.shbase + 128 * b
    match (j.keys.drop j.done).head? with
    | some key =>
      let sh ← readShard u d
      let row := key % 2 ^ 40
      let gs := (s.bay b).te.grads.filter (fun g => g.table == table && g.step == step && g.row == row)
      atRow table row (do
        applyRow u table j.cls (cbytes c 16 4) (cbytes c 20 4) (cbytes c 24 4) d sh row gs
        teWrite u d.tctx (rec0 + 68) (leBytes 8 (j.done + 1)) false)
      putTe b { j with done := j.done + 1 }
      pure .goesOn
    | none =>
      teWrite u d.tctx (rec0 + 64) (leBytes 4 step ++ leBytes 8 0) false
      modify (fun s => s.modTe b (fun x => { x with
        grads := x.grads.filter (fun g => g.table != table)
        incomplete := x.incomplete.filter (fun e => e.1 != table) }))
      endTe b

/-- One piece of the work of the table command of a bay. -/
def pumpTe (b : Nat) : Mc TeGo := do
  let j ← teJob b
  let i := j.pane
  let u := teCmd i j.task
  let c := j.cmd
  let table := cbits c 8 11 0
  let asks := fun (prefetch now : Bool) (step : Nat) (fin : TeJob → Mc TeGo) => do
    if ← askRows u i prefetch now step then pure .goesOn
    else
      let j ← teJob b
      if j.ask.isEmpty && j.sent.isEmpty then fin j else pure .waits
  let d ← readTable u table
  if j.op = 1 then
    if j.done + 1 = j.offs.length then endTe b
    else if bagReady j j.done then
      writeBag u i d j
      putTe b { j with done := j.done + 1 }
      pure .goesOn
    else asks false false (cbytes c 44 4) (fun _ => pure .waits)
  else if j.op = 2 then asks true true (cbytes c 44 4) (fun _ => endTe b)
  else if j.op = 3 then
    if j.done = 0 then
      asks false false (cbytes c 40 4) (fun j => do
        let cons ← formCons i d j
        putTe b { j with done := 1, cons := cons.drop j.begun }
        pure .goesOn)
    else if ← sendCon u i then pure .goesOn
    else
      let j ← teJob b
      if j.cons.isEmpty && j.sent.isEmpty then endTe b else pure .waits
  else if j.op = 4 ∧ cbits c 8 12 12 = 0 then pumpApply u i d
  else if j.op = 4 ∨ j.op = 5 then
    let s ← get
    if j.op = 4 ∧ (s.pane i).sw.isSome then pure .stops else asks false true (cbytes c 12 4) (fun _ => endTe b)
  else if j.op = 6 then pumpMigrate u i d
  else if !j.sent.isEmpty then pure .waits
  else if j.done = cbits c 16 15 0 then endTe b
  else
    let (row, img, next) ← writeEntry i d (j.offs.headD 0)
    failIf (d.mode == 2 || decide (d.nrows ≤ row)) 0x68
    let (hc, hb) ← rowHome u j.ctx (rowKey table row)
    let tag ← freshTag b
    putTe b { j with done := j.done + 1, offs := [next], sent := [(tag, [row])] }
    let s ← get
    if !(← sendSvc b (hc * 16 + hb) tag j.ctx false (svcBody 11 (cbits c 8 12 12) table (s.chip * 16 + b) row 0 (cmdZ s i tag) img)) then
      fault 0xB0
    pure .waits

/-- The running table command of a bay stops: it becomes issued but unstarted, with what it has done noted: bags written,
contributions sent, or rows written and the next entry's address (R227, R235). -/
def unstartTe (s : State) (b : Nat) (j : TeJob) : State :=
  let n := if j.op = 1 then j.done else if j.op = 3 then j.begun else if j.op = 7 then j.done else 0
  (s.modTe b (fun x => { x with jobs := [] })).modPane j.pane (fun p => { p with seq := { p.seq with
    unstarted := (5, j.cmd) :: p.seq.unstarted
    progress := tset 0 (tset 0 p.seq.progress 5 n) 105 (if j.op = 7 then j.offs.headD 0 else 0) } })

/-- What becomes of the stop of a running table command, `s` before the piece and `s'` after it: a fault ends its task; a page fault
stops it (R235), a TGRAD's once its contributions are acknowledged; what it lacks is asked for. -/
def teStop (s s' : State) (b : Nat) (j : TeJob) (e : Stop) : State :=
  let i := j.pane
  match e with
  | .flt f =>
    paneFault s' i f.code { eng := 5, op := j.op, pos := if f.pos = 0 then cbits j.cmd 8 11 0 * 2 ^ 40 else f.pos, hub := f.hub
                            kind := f.kind, slot := f.slot, tag := hTag j.cmd, addr := f.addr }
  | .page ctx cause lvl va hpa wr =>
    if j.op = 3 ∧ j.done = 1 ∧ !j.sent.isEmpty then s
    else parkOn (dropFetched (unstartTe s b j) i 5) i ctx cause lvl va hpa wr (5, hTag j.cmd)
  | .need ns => postNeeds s ns
  | _ => s

/-- Advance a bay's table command as far as it can go; `fuel` bounds its pieces. -/
def goTe : Nat → State → Nat → State
  | 0, s, _ => s
  | fuel + 1, s, b =>
    match (s.bay b).te.jobs with
    | [] => s
    | j :: _ =>
      if (s.pane j.pane).stalled then s
      else
        match runMc (pumpTe b) s with
        | (.ok .complete, s') => cmdDone (dropFetched s' j.pane 5) j.pane 5 j.op (hTag j.cmd)
        | (.ok .goesOn, s') => goTe fuel s' b
        | (.ok .waits, s') => s'
        | (.ok .stops, s') => dropFetched (unstartTe s' b j) j.pane 5
        | (.error e, s') => teStop s s' b j e

/-- Serve what waits between the bays and advance every running table command; `n` rounds. -/
def goTes : Nat → State → State
  | 0, s => s
  | n + 1, s =>
    let s' := (List.range 16).foldl (fun s b => goTe 70000 s b) (pumpSvc 64 s)
    if (List.range 16).any (fun b => !(s'.bay b).te.svcIn.isEmpty && (s.bay b).te.svcIn != (s'.bay b).te.svcIn) then goTes n s' else s'

/-- What follows every table command. Log entry 19, DESIGN CHOICE. -/
def settleTe (s : State) : State := settle (goTes 64 s)

/-! ### Rows that come back -/

/-- One row's answer reaches the requester. -/
def takeRow (s : State) (b : Nat) (r : RowMsg) : State :=
  match (s.bay b).te.jobs.find? (fun j => j.sent.any (fun e => e.1 == r.tag && e.2.contains r.slot)) with
  | none => s
  | some j =>
    let key := j.keys.getD r.slot 0
    let sent := (j.sent.map (fun e => if e.1 = r.tag then (e.1, e.2.erase r.slot) else e)).filter (fun e => !e.2.isEmpty)
    let put := fun (s : State) (j : TeJob) => s.modTe b (fun x => { x with jobs := [j] })
    let bad := fun (code : Nat) (hub : Bool) => paneFault s j.pane code { eng := 5, op := j.op, pos := key, hub, tag := hTag j.cmd, addr := r.addr }
    let stage := fun (s : State) =>
      let area := areaKey s j.pane j.ctx (cbits j.cmd 40 23 0) (j.op == 1)
      if j.stg.contains r.slot then
        setStaged s b area ((stagedIn s b area).filter (fun e => e.1 != key) ++ [(key, r.stamp, r.data)])
      else s
    if r.code ≠ 0 then
      if j.op = 2 then (put s { j with sent }).incReg (Reg.TE_PFDROP b) else bad r.code true
    else if j.op = 2 then stage (put s { j with sent })
    else if j.op = 1 ∨ j.op = 3 then
      let g : TeGot := { id := r.slot, absent := r.absent, owner := r.owner, stamp := r.stamp, data := r.data }
      let s := put s { j with sent, got := j.got ++ [g] }
      if j.op = 3 then s
      else stage (if !r.absent ∧ field r.data 0 2 < cbits j.cmd 48 15 0 then s.incReg (Reg.TE_OLDVER b) else s)
    else
      let step := cbytes j.cmd 12 4
      if j.op = 4 ∧ j.begun = 1 ∧ r.stamp ≠ step then bad 0x63 false
      else if r.absent then put s { j with sent }
      else fillHot (put s { j with sent }) b key r.owner (if j.op = 4 then step else r.stamp) r.data

/-- ROW_RESPONSE: the next row that has reached the bay from an owner of this device. -/
def execRowResponse (b : Nat) (s : State) : Host.Outcome State Fault Refusal :=
  answer s (okBay b) (settleTe (match (s.bay b).te.rspIn with
    | [] => s
    | r :: rest => takeRow (s.modTe b (fun x => { x with rspIn := rest })) b r))

/-- ROW_REQUEST: the owner deals with the first request that can be dealt with. -/
def execRowRequest (b : Nat) (s : State) : Host.Outcome State Fault Refusal :=
  answer s (okBay b) (settleTe (serveRows b s (s.bay b).te.reqIn))

/-- CONTRIBUTION: the owner deals with the first contribution that can be dealt with. -/
def execContribution (b : Nat) (s : State) : Host.Outcome State Fault Refusal :=
  answer s (okBay b) (settleTe (serveCons b s (s.bay b).te.conIn))

/-- MIGRATION_COPY_DONE. -/
def execMigrationCopyDone (b : Nat) (s : State) : Host.Outcome State Fault Refusal := answer s (okBay b) (settleTe (copyDone s b))

/-! ### Messages of other devices (Table 12-11) -/

/-- LKREQ: its rows join the bay's requests. Log entry 114, DEDUCED. -/
def lkreqIn (s : State) (b : Nat) : State :=
  match takeX s b 0x07 with
  | none => s
  | some (m, s) =>
    let body := mBody m
    let n := field body 8 4
    if n = 0 ∨ 255 < n ∨ body.length ≠ 12 + 8 * n then badRequest s b m
    else if badCtx m then answerReq s b m 1
    else
      let rs : List RowMsg := (List.range n).map (fun k =>
        let e := field body (12 + 8 * k) 8
        { bay := mSbay m, chip := mSchip m, tag := mTag m
          slot := bits e 63 40, table := field body 0 2 % 4096, row := bits e 39 0,
          step := field body 4 4, prefetch := bit (field body 2 2) 0, now := bit (field body 2 2) 1, lpane := mSpane m % 8
          op := bits (field body 2 2) 6 4, ctx := mCtx m })
      s.modTe b (fun x => { x with reqIn := x.reqIn ++ rs })
/-- LKREQ. -/
def execLkreq (b : Nat) (s : State) : Host.Outcome State Fault Refusal := answer s (okBay b) (settleTe (lkreqIn s b))

/-- Every row that a TAG still waits for is refused with the code of a status. -/
def refuseTag (s : State) (b tag code : Nat) : State :=
  match (s.bay b).te.jobs.find? (fun j => j.sent.any (fun e => e.1 == tag)) with
  | none => s
  | some j =>
    let ids := (j.sent.filter (fun e => e.1 == tag)).flatMap (·.2)
    ids.foldl (fun s id => takeRow s b { bay := b, chip := s.chip, tag, slot := id, table := 0, row := 0, step := 0, prefetch := false,
                                         lpane := 0, code }) s

/-- LKRESP: one row, or a status that refuses the whole request. Log entry 18, DESIGN CHOICE. Log entry 62, DEDUCED. -/
def lkrespIn (s : State) (b : Nat) : State :=
  match takeX s b 0x08 with
  | none => s
  | some (m, s) =>
    let body := mBody m
    if mStatus m ≠ 0 then refuseTag s b (mTag m) (statusCode (mStatus m) false)
    else if body.length < 16 then badRequest s b m
    else
      let e := field body 0 8
      let st := field body 12 4
      takeRow s b { bay := b, chip := s.chip, tag := mTag m, slot := bits e 63 40, table := 0, row := bits e 39 0, step := 0, prefetch := false,
                    lpane := 0, code := st % 256, addr := field body 16 8, absent := bit st 8, owner := mSchip m * 16 + mSbay m,
                    stamp := field body 8 4, data := body.drop 16 }
/-- LKRESP. -/
def execLkresp (b : Nat) (s : State) : Host.Outcome State Fault Refusal := answer s (okBay b) (settleTe (lkrespIn s b))

/-- GRAD: a contribution joins the bay's. Log entry 114, DEDUCED. -/
def gradIn (s : State) (b : Nat) : State :=
  match takeX s b 0x09 with
  | none => s
  | some (m, s) =>
    let body := mBody m
    if body.length < 36 then badRequest s b m
    else if badCtx m then answerReq s b m 1
    else
      let c : Contrib := { bay := mSbay m, chip := mSchip m, tag := some (mTag m), lpane := mSpane m % 8, cls := mClass m, table := field body 0 2 % 4096
                           gfmt := field body 2 2, step := field body 4 4, row := field body 8 8 % 2 ^ 40, pos := field body 16 8,
                           weight := field body 24 4, data := body.drop 32, ctx := mCtx m }
      s.modTe b (fun x => { x with conIn := x.conIn ++ [c] })
/-- GRAD. -/
def execGrad (b : Nat) (s : State) : Host.Outcome State Fault Refusal := answer s (okBay b) (settleTe (gradIn s b))

/-- GRACK. -/
def grackIn (s : State) (b : Nat) : State :=
  match takeX s b 0x0A with
  | none => s
  | some (m, s) => ackLocal s b (mTag m) (if mStatus m = 0 then 0 else statusCode (mStatus m) false)
/-- GRACK. -/
def execGrack (b : Nat) (s : State) : Host.Outcome State Fault Refusal := answer s (okBay b) (settleTe (grackIn s b))

/-- TESVC: a table-service message of another device joins those of this one; one that is refused ends the command that sent it.
Log entry 114, DEDUCED. -/
def tesvcIn (s : State) (b : Nat) : State :=
  match takeX s b 0x0D with
  | none => s
  | some (m, s) =>
    if mStatus m ≠ 0 then failTeReq s b (mTag m) (statusCode (mStatus m) false)
    else if badCtx m then answerReq s b m 1
    else s.modTe b (fun x => { x with svcIn := x.svcIn ++ [m] })
/-- TESVC. -/
def execTesvc (b : Nat) (s : State) : Host.Outcome State Fault Refusal := answer s (okBay b) (settleTe (tesvcIn s b))

/-! ### Commands -/

/-- The row of a TE command (R227). -/
def teRow (op len : Nat) : CmdRow := { eng := 5, op, len, lenCode := 0x60, opCode := 0x60, immCode := some 0x60 }

/-- Start a table command, and advance the bay's. -/
def runTe (s : State) (i c op len : Nat) (body : Mc TeJob) : State :=
  settleTe (runCmdLen s i c (teRow op len) len (fun _ => false) (do
    let j ← body
    putTe (bayOf i) j
    pure false))

/-- The offsets of a batch (R228). -/
def readOffs (i a nbag : Nat) : Mc (List Nat) := do
  let bs ← spRead i 5 a (4 * (nbag + 1))
  let offs := (List.range (nbag + 1)).map (fun k => field bs (4 * k) 4)
  failIf ((offs.zip (offs.drop 1)).any (fun p => decide (p.2 < p.1) || decide (2 ^ 24 - 1 < p.2 - p.1))) 0x62
  pure offs

/-- The rows of every occurrence of a batch. -/
def readRows (u : TeUse) (i : Nat) (d : TDesc) (table idxaddr : Nat) (offs : List Nat) : Mc (List (List Nat)) := do
  let lo := offs.headD 0
  let n := offs.getLastD 0 - lo
  let qr ← partTables u d
  let bs ← spRead i 5 (idxaddr + 8 * lo) (8 * n)
  pure ((List.range n).map (fun k => mapIndex d table qr (field bs (8 * k) 8)))

/-- The weights of a batch, 1.0 without WEN. -/
def readWts (i : Nat) (wen : Bool) (a : Nat) (offs : List Nat) : Mc (List Nat) := do
  let lo := offs.headD 0
  let n := offs.getLastD 0 - lo
  if wen then
    let bs ← spRead i 5 (a + 4 * lo) (4 * n)
    pure ((List.range n).map (fun k => field bs (4 * k) 4))
  else pure (List.replicate n 0x3F800000)

/-- Bytes of a pooling slot (R232, Table 5-5). -/
def poolSlot (cls nelem : Nat) : Nat :=
  pad64 (if cls = 1 then 4 * nelem * 24 + 2 * nelem else if cls = 2 then 82 * nelem else 6 * nelem)

/-- Reserved fields of a TLOOKUP or TPREFETCH body. Log entry 29, DEDUCED. -/
def lookupRsv (c : Nat) : Bool :=
  cbits c 8 31 20 != 0 || cbits c 12 31 24 != 0 || cbits c 16 31 24 != 0 || cbits c 20 31 24 != 0 || cbits c 24 31 24 != 0
    || cbits c 28 31 24 != 0 || cbits c 32 31 24 != 0 || cbits c 36 31 30 != 0 || cbits c 48 31 16 != 0 || cbytes c 52 12 != 0

/-- TLOOKUP: fields, layout and claims, the descriptor and what depends on it (R580; log entry 29, DEDUCED for fields out of range), mapping, the rows at hand, requests. -/
def tlookupBody (i c : Nat) : Mc TeJob := do
  let b := bayOf i
  let m := poolCmd c
  let table := cbits c 8 11 0
  let wen := cbits c 8 18 18 == 1
  let useStaged := cbits c 8 19 19 == 1
  let pool := cbits c 36 23 0
  let bwin := cbits c 36 29 24 + 1
  let stg := cbits c 40 23 0
  let regs := cbits c 40 31 24
  failIf (lookupRsv c || decide (4 < m.ofmt)) 0x60
  atRow table 0 (failIf (m.num == 0 || cbits c 16 23 0 % 4 != 0 || cbits c 20 23 0 % 8 != 0 || (wen && cbits c 24 23 0 % 4 != 0)
    || pool % 64 != 0 || stg % 64 != 0 || regs == 0 || decide (191 < regs)
    || (if m.panels then m.out % 128 != 0 || m.ostride % 128 != 0 else m.out % 64 != 0 || m.ostride % 64 != 0)) 0x62)
  let t ← curTask i
  failIf (!inClaim t (cbits c 16 23 0) (4 * (m.num + 1)) || !inClaim t stg (regs * 65536)) 0x06
  let u := teCmd i t.id
  let d ← tableFor u table t.ctx
  let rowOut := d.nelem * (fmtBits m.ofmt / 8)
  let pan := panelBytes m.ofmt (up64 d.nelem)
  atRow table 0 (failIf (if m.panels then decide (m.ostride < pan) else decide (m.ostride < rowOut)) 0x62)
  failIf (!inClaim t pool (bwin * poolSlot t.dclass d.nelem)
    || (if m.panels then (List.range ((m.num + 63) / 64)).any (fun k => !inClaim t (m.out + k * m.ostride) pan)
        else (List.range m.num).any (fun k => !inClaim t (m.out + k * m.ostride) rowOut))) 0x06
  let offs ← atRow table 0 (readOffs i (cbits c 16 23 0) m.num)
  let rows ← readRows u i d table (cbits c 20 23 0) offs
  let wts ← readWts i wen (cbits c 24 23 0) offs
  let step := cbytes c 44 4
  let k0 ← (do pure (tget 0 ((← get).pane i).seq.progress 5))
  useAggArea i pool (bwin * poolSlot t.dclass d.nelem) 5
  let s ← get
  let area := areaKey s i t.ctx stg
  let held := if useStaged then stagedIn s b (area false) else []
  let skip := offs.getD k0 0 - offs.headD 0
  let rows := rows.mapIdx (fun k r => if k < skip then [] else r)
  let a := rows.foldl (mapOcc (stagingRows d.nelem regs) (fun key => (replicaOf s b key (!d.train) step).isSome)) ({} : MapAcc)
  let ids := a.keys.zipIdx
  let shared := ids.filter (fun k => a.shared.any (fun e => e.2 == k.2))
  let here := shared.filterMap (fun k =>
    match held.find? (fun e => e.1 == k.1) with
    | some e =>
      if !d.train || e.2.1 + 1 == step then
        some (({ id := k.2, absent := e.2.2.isEmpty, owner := 0, stamp := e.2.1, data := e.2.2 } : TeGot), false) else none
    | none => none)
  let stale := shared.filter (fun k => held.any (fun e => e.1 == k.1 && d.train && e.2.1 + 1 != step))
  let hot := (shared.filter (fun k => !(here.any (fun g => g.1.id == k.2)))).filterMap (fun k =>
    (replicaOf s b k.1 (!d.train) step).map (fun h => (({ id := k.2, absent := false, owner := h.owner, stamp := h.stamp, data := h.data } : TeGot), true)))
  let got := (here ++ hot).map (·.1)
  let old := (got.filter (fun g => !g.absent && decide (field g.data 0 2 < cbits c 48 15 0))).length
  if !useStaged then useAggArea i stg (64 + (32 * ((16 + 4 * d.nelem + 31) / 32) + 32) * a.held) 5
  modify (fun s =>
    let s := setStaged s b (area false) (held.filter (fun e => !(stale.any (fun k => k.1 == e.1))))
    let s := setStaged s b (area true) (here.map (fun g => (a.keys.getD g.1.id 0, g.1.stamp, g.1.data)))
    let s := s.incReg (Reg.TE_DEDUP b) a.dedup
    let s := s.incReg (Reg.TE_STGOVF b) a.ovf
    let s := s.incReg (Reg.TE_STALE b) stale.length
    let s := s.incReg (Reg.TE_HOTHIT b) hot.length
    s.incReg (Reg.TE_OLDVER b) old)
  pure { pane := i, cmd := c, op := 1, task := t.id, ctx := t.ctx, cls := t.dclass, keys := a.keys, offs, occ := a.occ, wts, got
         ask := (List.range a.keys.length).filter (fun k => !(got.any (fun g => g.id == k))), done := k0
         stg := (shared.map (·.2)).filter (fun k => (replicaOf s b (a.keys.getD k 0) (!d.train) step).isNone) }

/-- TLOOKUP pools the rows of a batch of bags. -/
def execTlookup (i c : Nat) (s : State) : Host.Outcome State Fault Refusal :=
  answer s (okPane i) (runTe s i c 1 64 (tlookupBody i c))

/-- TPREFETCH: the rows of a later batch that no replica holds are requested into the staging area (R233). Log entry 29, DEDUCED. -/
def tprefetchBody (i c : Nat) : Mc TeJob := do
  let b := bayOf i
  let table := cbits c 8 11 0
  let stg := cbits c 40 23 0
  let regs := cbits c 40 31 24
  let nbag := cbits c 12 23 0
  failIf (lookupRsv c) 0x60
  atRow table 0 (failIf (nbag == 0 || cbits c 16 23 0 % 4 != 0 || cbits c 20 23 0 % 8 != 0 || stg % 64 != 0 || regs == 0
    || decide (191 < regs)) 0x62)
  let t ← curTask i
  failIf (!inClaim t (cbits c 16 23 0) (4 * (nbag + 1)) || !inClaim t stg (regs * 65536)) 0x06
  let u := teCmd i t.id
  let d ← tableFor u table t.ctx
  let offs ← atRow table 0 (readOffs i (cbits c 16 23 0) nbag)
  let rows ← readRows u i d table (cbits c 20 23 0) offs
  let s ← get
  let free := fun key => (replicaOf s b key true 0).isSome
  let a := rows.foldl (mapOcc (stagingRows d.nelem regs) free) ({} : MapAcc)
  let ask := (a.keys.zipIdx.filter (fun k => a.shared.any (fun e => e.2 == k.2) && !free k.1)).map (·.2)
  useAggArea i stg (64 + (32 * ((16 + 4 * d.nelem + 31) / 32) + 32) * a.held) 5
  modify (fun s => setStaged s b (areaKey s i t.ctx stg false) [])
  pure { pane := i, cmd := c, op := 2, task := t.id, ctx := t.ctx, cls := t.dclass, keys := a.keys, ask, stg := ask }

/-- TPREFETCH. -/
def execTprefetch (i c : Nat) (s : State) : Host.Outcome State Fault Refusal :=
  answer s (okPane i) (runTe s i c 2 64 (tprefetchBody i c))

/-- TGRAD: its contributions; those of a composed table need both components: a product's values, which the lookup staged, and of a sum that neither row is absent (R226, R237). Log entry 29, DEDUCED. -/
def tgradBody (i c : Nat) : Mc TeJob := do
  let b := bayOf i
  let table := cbits c 8 11 0
  let gfmt := cbits c 8 15 12
  let wen := cbits c 8 16 16 == 1
  let nbag := cbits c 12 23 0
  let gaddr := cbits c 28 23 0
  let gstride := cbits c 32 23 0
  let stg := cbits c 36 23 0
  let regs := cbits c 36 31 24
  failIf (cbits c 8 31 17 != 0 || cbits c 12 31 24 != 0 || cbits c 16 31 24 != 0 || cbits c 20 31 24 != 0 || cbits c 24 31 24 != 0
    || cbits c 28 31 24 != 0 || cbits c 32 31 24 != 0 || cbits c 44 63 40 != 0 || cbytes c 52 12 != 0
    || !(gfmt == 0 || gfmt == 2)) 0x60
  atRow table 0 (failIf (nbag == 0 || cbits c 16 23 0 % 4 != 0 || cbits c 20 23 0 % 8 != 0 || (wen && cbits c 24 23 0 % 4 != 0)
    || gaddr % 64 != 0 || gstride % 64 != 0) 0x62)
  let t ← curTask i
  failIf (!inClaim t (cbits c 16 23 0) (4 * (nbag + 1))) 0x06
  let u := teCmd i t.id
  let d ← tableFor u table t.ctx
  atRow table 0 (failIf (!d.train) 0x61)
  let prod := d.mode == 2 && d.comb == 1
  atRow table 0 (failIf (prod && (stg % 64 != 0 || regs == 0 || decide (191 < regs))) 0x62)
  failIf ((prod && !inClaim t stg (regs * 65536))
    || (List.range nbag).any (fun k => !inClaim t (gaddr + k * gstride) (d.nelem * (if gfmt = 2 then 2 else 4)))) 0x06
  let offs ← atRow table 0 (readOffs i (cbits c 16 23 0) nbag)
  let rows ← readRows u i d table (cbits c 20 23 0) offs
  let wts ← readWts i wen (cbits c 24 23 0) offs
  let s ← get
  let a := rows.foldl (mapOcc (2 ^ 40) (fun _ => false)) ({} : MapAcc)
  let held := stagedIn s b (areaKey s i t.ctx stg true)
  let got : List TeGot := if prod then a.keys.zipIdx.filterMap (fun k =>
    (held.find? (fun e => e.1 == k.1 && e.2.1 + 1 == cbytes c 40 4)).map (fun e =>
      { id := k.2, absent := e.2.2.isEmpty, owner := 0, stamp := e.2.1, data := e.2.2 })) else []
  pure { pane := i, cmd := c, op := 3, task := t.id, ctx := t.ctx, cls := t.dclass, keys := a.keys, offs, occ := a.occ, wts, got
         begun := tget 0 (s.pane i).seq.progress 5
         ask := if d.mode = 2 then (List.range a.keys.length).filter (fun k => !(got.any (fun g => g.id == k))) else [] }

/-- TGRAD. -/
def execTgrad (i c : Nat) (s : State) : Host.Outcome State Fault Refusal :=
  answer s (okPane i) (runTe s i c 3 64 (tgradBody i c))

/-- TSTEP with PHASE 0: what an apply checks before its first row (R236, R240, R241), and the rows that it updates. A step that is
incomplete, or in which two contributions share a key, empties the buffer. Log entry 61, DEDUCED. -/
def tstepApplyBody (i c : Nat) : Mc TeJob := do
  let b := bayOf i
  let table := cbits c 8 11 0
  let step := cbytes c 12 4
  failIf (cbits c 8 31 13 != 0 || cbytes c 28 4 != 0) 0x60
  let t ← curTask i
  let u := teCmd i t.id
  let d ← tableFor u table t.ctx
  atRow table 0 (failIf (!d.train) 0x61)
  let sh ← (if d.mode = 2 then pure none else (do pure (some (← readShard u d))))
  let job := fun (keys : List Nat) (done : Nat) =>
    ({ pane := i, cmd := c, op := 4, task := t.id, ctx := t.ctx, cls := t.dclass, keys, done } : TeJob)
  match sh with
  | none => pure (job [] 0)
  | some sh =>
    atRow table 0 (failIf (sh.applied + 1 != step) 0x63)
    let s ← get
    let te := (s.bay b).te
    let gs := te.grads.filter (fun g => g.table == table && g.step == step)
    let ks := gs.map (fun g => (g.chip, g.pos))
    if te.incomplete.contains (table, step) || ks.eraseDups.length != ks.length then
      set (s.modTe b (fun x => { x with grads := x.grads.filter (fun g => g.table != table)
                                        incomplete := x.incomplete.filter (fun e => e.1 != table) }))
      atRow table 0 (fault 0x65)
    failIf (gs.any (fun g => g.cls != t.dclass)) 0x08
    pure (job ((((gs.map (·.row)).eraseDups).insertionSort (· ≤ ·)).map (rowKey table)) sh.cursor)

/-- TSTEP with PHASE 1: re-read every replica of the table from its owner (R243). Log entry 62, DEDUCED. -/
def tstepRefreshBody (i c : Nat) : Mc TeJob := do
  let b := bayOf i
  let table := cbits c 8 11 0
  failIf (cbits c 8 31 13 != 0 || cbytes c 28 4 != 0) 0x60
  let t ← curTask i
  let d ← tableFor (teCmd i t.id) table t.ctx
  let s ← get
  let keys := ((s.bay b).te.hot.filter (fun h => h.table == table)).map (fun h => rowKey table h.row)
  pure { pane := i, cmd := c, op := 4, task := t.id, ctx := t.ctx, cls := t.dclass, keys, ask := List.range keys.length, begun := b2n d.train }

/-- TSTEP runs the phase its body names. Log entry 60, DESIGN CHOICE. Log entry 100, DEDUCED. -/
def tstepBody (i c : Nat) : Mc TeJob := if cbits c 8 12 12 = 0 then tstepApplyBody i c else tstepRefreshBody i c

/-- TSTEP_APPLY. A body with PHASE 1 is a TSTEP_REFRESH's. Log entry 100, DEDUCED. -/
def execTstepApply (i c : Nat) (s : State) : Host.Outcome State Fault Refusal :=
  answer s (okPane i) (runTe s i c 4 32 (tstepBody i c))
/-- TSTEP_REFRESH. A body with PHASE 0 is a TSTEP_APPLY's. Log entry 100, DEDUCED. -/
def execTstepRefresh (i c : Nat) (s : State) : Host.Outcome State Fault Refusal :=
  answer s (okPane i) (runTe s i c 4 32 (tstepBody i c))

/-- Reserved fields of a TREPL, TMIGRATE or TROWWRITE body. -/
def listRsv (c : Nat) (flag move : Bool) : Bool :=
  cbits c 8 31 13 != 0 || (!flag && cbits c 8 12 12 == 1) || cbits c 12 31 24 != 0 || cbits c 16 31 16 != 0 || cbits c 16 15 0 == 0
    || (!move && cbytes c 20 4 != 0) || cbytes c 24 8 != 0

/-- The listed rows as keys. -/
def listKeys (i c : Nat) : Mc (List Nat) := do
  let n := cbits c 16 15 0
  let bs ← spRead i 5 (cbits c 12 23 0) (8 * n)
  pure ((List.range n).map (fun k => rowKey (cbits c 8 11 0) (field bs (8 * k) 8)))

/-- TREPL: set the bay's replicas of a table (R245). Log entry 60, DESIGN CHOICE. -/
def treplBody (i c : Nat) : Mc TeJob := do
  let b := bayOf i
  let table := cbits c 8 11 0
  failIf (listRsv c true false) 0x60
  let t ← curTask i
  let keys ← listKeys i c
  let u := teCmd i t.id
  let d ← tableFor u table t.ctx
  if cbits c 8 12 12 = 1 then
    modify (fun s => countHot (s.modTe b (fun x => { x with hot := x.hot.filter (fun h => h.table != table) })) b)
  let s ← get
  let new := ((listed d table keys).filter (fun k => !((s.bay b).te.hot.any (fun h => rowKey h.table h.row == k)))).eraseDups
  let job : TeJob := { pane := i, cmd := c, op := 5, task := t.id, ctx := t.ctx, cls := t.dclass }
  if d.train then
    let homes ← allHomes u t.ctx new
    modify (fun s => s.modTe b (fun x => { x with hot := x.hot ++ homes.map (fun h =>
      { table, row := h.1 % 2 ^ 40, owner := h.2.1 * 16 + h.2.2, stamp := 0, data := [] }) }))
    pure job
  else pure { job with keys := new, ask := List.range new.length }

/-- TREPL. -/
def execTrepl (i c : Nat) (s : State) : Host.Outcome State Fault Refusal :=
  answer s (okPane i) (runTe s i c 5 32 (treplBody i c))

/-- TMIGRATE: ask the target for a guest area first (R246). Log entry 60, DESIGN CHOICE. -/
def tmigrateBody (i c : Nat) : Mc TeJob := do
  let b := bayOf i
  let table := cbits c 8 11 0
  failIf (listRsv c false true) 0x60
  let t ← curTask i
  let keys ← listKeys i c
  let _ ← tableFor (teCmd i t.id) table t.ctx
  let tag ← freshTag b
  if !(← sendSvc b (cbits c 20 11 0 * 16 + cbits c 20 15 12) tag t.ctx false (svcBody 2 0 table 0 0 0 0 [])) then fault 0xB0
  pure { pane := i, cmd := c, op := 6, task := t.id, ctx := t.ctx, cls := t.dclass, keys, sent := [(tag, [0])] }

/-- TMIGRATE. -/
def execTmigrate (i c : Nat) (s : State) : Host.Outcome State Fault Refusal :=
  answer s (okPane i) (runTe s i c 6 32 (tmigrateBody i c))

/-- TROWWRITE: replace rows one after another while the table serves (R248). Log entry 60, DESIGN CHOICE. -/
def trowwriteBody (i c : Nat) : Mc TeJob := do
  failIf (listRsv c true false) 0x60
  let t ← curTask i
  let _ ← tableFor (teCmd i t.id) (cbits c 8 11 0) t.ctx
  let s ← get
  let done := tget 0 (s.pane i).seq.progress 5
  pure { pane := i, cmd := c, op := 7, task := t.id, ctx := t.ctx, cls := t.dclass, done
         offs := [if done = 0 then cbits c 12 23 0 else tget 0 (s.pane i).seq.progress 105] }

/-- TROWWRITE. -/
def execTrowwrite (i c : Nat) (s : State) : Host.Outcome State Fault Refusal :=
  answer s (okPane i) (runTe s i c 7 32 (trowwriteBody i c))

/-- A write of TE_CTRCLR (R253). -/
def teClear (s : State) (b v : Nat) : State :=
  if bit v 0 then (List.range 18).foldl (fun s k => s.setReg (Reg.TE_LOOKUP b + 4 * k) 0) s else s

/-- TE_CTRCLR. -/
def execTeCtrclr (b v : Nat) (s : State) : Host.Outcome State Fault Refusal := answer s (okBay b) (whenOpen s (Reg.TE_CTRCLR b) (teClear s b v))

end Sys2Proof.Machine
end

