-- ==== Sys2Proof/Machine/Se.lean ====
section
/-! DEFINITION. Commands and events of the stream engine (R261 to R265, R270 to R273, R277, R282). -/

namespace Sys2Proof.Machine

open Sys2Proof

/-- The row of an SE command (R261). -/
def seRow (op len : Nat) : CmdRow := { eng := 4, op, len, lenCode := 0x70, opCode := 0x70, immCode := some 0x70 }

/-- Report the faults of a command on a stream. -/
def atStream {α : Type} (st : Nat) (m : Mc α) : Mc α := atVertex st false m

/-- SOPEN (R262): stream state, ring, descriptor list, claim (R580); it stays incomplete until its stream finishes. -/
def sopenBody (i c : Nat) : Mc Bool := do
  let st := cbits c 8 3 0
  let kind := cbits c 8 5 4
  let nb := cbits c 8 9 6
  let nbuf := if nb = 0 then 2 else nb
  let bufaddr := cbits c 12 23 0
  let stride := cbits c 16 23 0
  let ndesc := cbits c 20 23 0
  let dlist := cbytes c 24 8
  atStream st (do
    failIf (cbits c 8 15 11 != 0 || cbits c 12 31 24 != 0 || cbits c 16 31 24 != 0 || cbits c 20 31 24 != 0) 0x70
    let s ← get
    failIf (openStream (streamOf s i st)) 0x71
    failIf (kind == 3 || decide (8 < nb) || bufaddr % 64 != 0 || stride % 64 != 0 || stride == 0) 0x73
    failIf (dlist % 64 != 0 || ndesc == 0) 0x74
    let t ← curTask i
    failIf (!inClaim t bufaddr (nbuf * stride)) 0x06
    modify (fun s => setStream s i st
      { status := 1, kind, nbuf, syncen := cbits c 8 10 10 == 1, sync := cbits c 8 31 16, bufaddr, bufstride := stride, dlist, ndesc,
        tag := hTag c, dry := s.devTime }))
  pure false

/-- SOPEN opens a stream over a descriptor list. -/
def execSopen (i c : Nat) (s : State) : Host.Outcome State Fault Refusal :=
  answer s (okPane i) (runCmd s i c (seRow 1 32) (fun _ => false) (sopenBody i c))

/-- Fields of SRELEASE, SPOST and SCANCEL: the stream must be open (R263). A COUNT outside 1 to 8 is refused as a bad field
(log entry 30, DEDUCED). -/
def streamCmd (i c : Nat) (counted : Bool) (m : Stream → Nat → Mc Stream) : Mc Bool := do
  let st := cbits c 8 3 0
  let n := cbits c 8 19 16
  atStream st (do
    failIf (cbits c 8 15 4 != 0 || cbits c 8 31 20 != 0 || cbytes c 12 4 != 0 || (counted && (n == 0 || decide (8 < n)))) 0x70
    let s ← get
    let x := streamOf s i st
    failIf (!openStream x) 0x71
    let y ← m x n
    modify (fun s => setStream s i st y))
  pure true

/-- What a started SE command does to its stream may end it. Log entry 30, DEDUCED. -/
def seCmd (s : State) (i c op : Nat) (counted : Bool) (m : Stream → Nat → Mc Stream) : State :=
  let s := runCmdLen s i c (seRow op 16) 16 (fun _ => false) (streamCmd i c counted m)
  settle (if openStream (streamOf s i (cbits c 8 3 0)) then finishStream s i (cbits c 8 3 0) else s)

/-- SRELEASE returns delivered buffers of a load. -/
def execSrelease (i c : Nat) (s : State) : Host.Outcome State Fault Refusal :=
  answer s (okPane i) (seCmd s i c 2 true (fun x n => do
    failIf (x.kind != 0 || x.cancel || decide (x.deliv < x.done + n)) 0x71
    pure { x with done := x.done + n }))

/-- SPOST hands filled buffers of a store to the SE. -/
def execSpost (i c : Nat) (s : State) : Host.Outcome State Fault Refusal :=
  answer s (okPane i) (seCmd s i c 3 true (fun x n => do
    failIf (x.kind != 1 || x.cancel || decide (x.nbuf < x.done - x.deliv + n)) 0x71
    pure { x with done := x.done + n }))

/-- Undelivered blocks of a stream, over the descriptors that it has fetched. Log entry 67, DEDUCED. -/
def undelivered (x : Stream) : Nat :=
  ((x.descs.filter (fun e => x.didx ≤ e.1)).map (fun e => (sdesc e.2).total)).sum - (if (heldDesc x x.didx).isSome then x.q else 0)

/-- The reads of a stream that are under way are dropped. -/
def dropReads (s : State) (i st : Nat) : State :=
  { s with accs := s.accs.filter (fun (a : Access) => match a.purpose with
      | .se j t _ _ => !(j == i && t == st && a.op == .read) | _ => true) }

/-- SCANCEL ends a stream (R273): undelivered blocks whose writes have not begun are discarded, and each adds 1 to
SE_DISCARD. Log entry 67, DEDUCED. -/
def cancelStream (s : State) (i c : Nat) : State :=
  let st := cbits c 8 3 0
  let before := streamOf s i st
  let s := runCmdLen s i c (seRow 4 16) 16 (fun _ => false) (streamCmd i c false (fun x _ =>
    pure { x with cancel := true, blocks := x.blocks.filter (·.writing), done := if x.kind = 0 then x.deliv else x.done, keep := [] }))
  let x := streamOf s i st
  if x.cancel && !before.cancel then
    let n := undelivered before - (before.blocks.filter (·.writing)).length
    finishStream ((dropReads s i st).incReg (Reg.SE_DISCARD i) n) i st
  else s

/-- SCANCEL. -/
def execScancel (i c : Nat) (s : State) : Host.Outcome State Fault Refusal := answer s (okPane i) (settle (cancelStream s i c))

/-- Counts of CURB and CUR1 to CUR4 for a block of a descriptor (Table 8-4). -/
def cursor (d : SDesc) (q : Nat) : Nat × List Nat :=
  let oc := outerCoords d (q / d.count) d.outer
  (q % d.count, [1, 2, 3, 4].map (fun k => ((oc.find? (fun c => c.1 == k)).map (·.2)).getD 0))

/-- Is the demand block of a stream complete: every byte landed, or every write acknowledged (R260)? -/
def blockDone (s : State) (i st : Nat) (x : Stream) : Option SBlk :=
  match x.blocks.find? (fun y => y.no == x.deliv) with
  | none => none
  | some y =>
    if x.kind = 0 then (if y.need.isEmpty then some y else none)
    else if y.writing && !(s.accs.any (fun a => match a.purpose with
        | .se j t blk _ => j == i && t == st && blk == y.no && a.op != .read
        | _ => false)) then some y
    else none

/-- The demand block of a stream is delivered (R260, R265, R270, R271, R277). Log entry 68, DESIGN CHOICE. -/
def deliverBlock (s : State) (i st : Nat) : State :=
  let s := seArrived s i
  let x := streamOf s i st
  if !openStream x then s
  else
    match blockDone s i st x with
    | none => s
    | some y =>
      match heldDesc x y.desc with
      | none => s
      | some d =>
        let n := sblkBytes d y.q
        let last := y.q + 1 == d.total
        let cur := if last then (0, [0, 0, 0, 0]) else cursor d (y.q + 1)
        let late := s.devTime - x.dry
        let x' : Stream := { x with
          deliv := (x.deliv + 1)
          done := if x.kind = 2 then x.deliv + 1 else x.done
          didx := if last then x.didx + 1 else x.didx
          q := if last then 0 else x.q + 1
          curb := cur.1
          cur := cur.2
          blocks := x.blocks.filter (fun z => z.no != y.no)
          dry := if d.rate = 0 then noDry else min noDry (max x.dry s.devTime + rateTime n d.rate)
          slipped := false
          descs := if last && x.status != 5 then x.descs.filter (fun e => e.1 != y.desc) else x.descs
          keep := if last then x.keep.filter (fun e => decide (y.desc ≤ e.1)) else x.keep }
        let s := setStream s i st x'
        let s := s.incReg64 (Reg.SE_BYTES_LO i) (Reg.SE_BYTES_HI i) n
        let s := s.incReg (Reg.SE_BLOCKS i)
        let s := if last then s.incReg (Reg.SE_DESC i) else s
        let s := if x.slipped ∧ s.regN (Reg.SE_SLIPMAX i) < late then s.setReg (Reg.SE_SLIPMAX i) (min late (2 ^ 32 - 1)) else s
        let s := if x.syncen then paneSignal s i x.sync 1 false [] else s
        finishStream s i st

/-- BLOCK_DELIVERED. -/
def execBlockDelivered (i st : Nat) (s : State) : Host.Outcome State Fault Refusal :=
  answer s (decide (i < 144 ∧ st < 16)) (settle (deliverBlock (settle s) i st))

/-- A stream slips when device time passes its run-dry time with its next block undelivered, for a store with every buffer
posted and undelivered (R271). Log entry 68, DESIGN CHOICE. -/
def streamSlip (s : State) (i st : Nat) : State :=
  let x := streamOf s i st
  if (x.status == 1 || x.status == 2) && !x.cancel && !x.slipped && decide (x.dry < s.devTime) && x.didx != x.ndesc &&
      (x.kind != 1 || x.done == x.deliv + x.nbuf) then
    (setStream s i st { x with slipped := true }).incReg (Reg.SE_SLIP i)
  else s

/-- STREAM_SLIP. -/
def execStreamSlip (i st : Nat) (s : State) : Host.Outcome State Fault Refusal :=
  answer s (decide (i < 144 ∧ st < 16)) (streamSlip s i st)

/-- A read of SE_STRDATA: the selected word of a stream's record; the word moves on, wrapping within the record. -/
def strdataRead (s : State) (i : Nat) : Nat × State :=
  let v := s.regN (Reg.SE_STRSEL i)
  let w := bits v 7 4
  (field (streamRecord (streamOf s i (bits v 3 0))) (4 * w) 4, s.setField (Reg.SE_STRSEL i) 7 4 ((w + 1) % 16))

/-- SE_STRDATA_READ. -/
def execSeStrdataRead (i : Nat) (s : State) : Host.Outcome State Fault Refusal :=
  answer s (okPane i) (whenOpen s (Reg.SE_STRDATA i) (let r := strdataRead s i; r.2.readOut r.1))

end Sys2Proof.Machine
end

