-- ==== Sys2Proof/Machine/Cvu.lean ====
section
/-! DEFINITION. The check-value unit (R452 to R459): CHECK. A source in memory is read line by line in the CVU's slots, and the job completes once it is here (log entry 6, DESIGN CHOICE). -/

namespace Sys2Proof.Machine

open Sys2Proof

/-- Parameters of a check (Table 14-2). -/
structure CheckParams where
  poly : Nat
  init : Nat
  w : Nat
  refin : Bool
  refout : Bool
  inv : Bool
deriving DecidableEq, Repr

/-- The fixed parameters of a fingerprint (R454). -/
def fingerParams : CheckParams :=
  { poly := 0x42F0E1EBA9EA3693, init := 2 ^ 64 - 1, w := 64, refin := true, refout := true, inv := true }

/-- One bit of `feed`. -/
def feedBit (p : CheckParams) (r : Nat) (b : Bool) : Nat :=
  let top := bit r (p.w - 1) != b
  let r := r * 2 % 2 ^ p.w
  if top then r ^^^ p.poly else r

/-- One byte of `feed`, most significant bit first after REFIN. -/
def feedByte (p : CheckParams) (r : Nat) (x : Byte) : Nat :=
  let v := if p.refin then revBits 8 x.toNat else x.toNat
  [7, 6, 5, 4, 3, 2, 1, 0].foldl (fun r i => feedBit p r (bit v i)) r

/-- `feed` of R454. -/
def feed (p : CheckParams) (r : Nat) (bs : List Byte) : Nat := bs.foldl (feedByte p) r

/-- `finish` of R454. -/
def finishCheck (p : CheckParams) (r : Nat) : Nat :=
  let r := if p.refout then revBits p.w r else r
  if p.inv then r ^^^ (2 ^ p.w - 1) else r

/-- A source in blocks of `n` bytes; the last may be short. -/
def inBlocks (n : Nat) (bs : List Byte) : List (List Byte) :=
  (List.range ((bs.length + n - 1) / n)).map (fun k => (bs.drop (n * k)).take n)

/-- Feed a block, its fold value first. -/
def feedBlock (p : CheckParams) (fold : Option Nat) (r : Nat) (bs : List Byte) : Nat :=
  match fold with
  | some f => feed p (feed p r (leBytes 8 (f % 2 ^ 64))) bs
  | none => feed p r bs

/-- The single check of a source (MODE 0b00). -/
def singleCheck (p : CheckParams) (fold : Nat → Option Nat) (blocks : List (List Byte)) : Nat :=
  finishCheck p ((blocks.zipIdx).foldl (fun r b => feedBlock p (fold b.2) r b.1) p.init)

/-- The per-block checks (MODE 0b01). -/
def blockChecks (p : CheckParams) (fold : Nat → Option Nat) (blocks : List (List Byte)) : List Nat :=
  (blocks.zipIdx).map (fun b => finishCheck p (feedBlock p (fold b.2) p.init b.1))

/-- The fingerprint of a source whose first byte goes to `addr` (MODE 0b10). -/
def fingerprint (addr : Nat) (bs : List Byte) : Nat :=
  (blockChecks fingerParams (fun k => some (addr + 256 * k)) (inBlocks 256 bs)).foldl (· ^^^ ·) 0

/-- XOR of 64-bit words (MODE 0b11). -/
def combineWords (bs : List Byte) : Nat := ((inBlocks 8 bs).map leNat).foldl (· ^^^ ·) 0

/-- The fields of a CHECK (Table 14-1). -/
structure CheckCmd where
  src : Nat
  len : Nat
  mode : Nat
  srcSp : Bool
  folden : Bool
  foldsel : Bool
  acc : Bool
  cmpen : Bool
  blklog : Nat
  fold : Nat
  res : Nat
  par : Nat
deriving DecidableEq, Repr

/-- The fields of the command's bytes. -/
def checkCmd (c : Nat) : CheckCmd :=
  { src := cbytes c 8 8, len := cbits c 16 26 0, mode := cbits c 20 1 0, srcSp := cbits c 20 2 2 == 1, folden := cbits c 20 3 3 == 1,
    foldsel := cbits c 20 4 4 == 1, acc := cbits c 20 5 5 == 1, cmpen := cbits c 20 6 6 == 1, blklog := cbits c 20 11 7,
    fold := cbytes c 24 8, res := cbits c 32 23 0, par := cbits c 36 23 0 }

/-- Bytes of the result area that a job writes or reads. -/
def CheckCmd.resBytes (m : CheckCmd) : Nat := if m.mode = 1 then 8 * ((m.len + 2 ^ m.blklog - 1) / 2 ^ m.blklog) else 24

/-- Read a job's source; a page fault or a context-check fault abandons the job (R459). Log entry 69, DEDUCED. -/
def checkSource (i ctx : Nat) (m : CheckCmd) : Mc (List Byte) :=
  if m.srcSp then spRead i 7 (m.src % 2 ^ 24) m.len
  else tryCatch (vaRead (.cmd i 7) ctx m.src m.len) (fun (e : Stop) => do
    match e with
    | .flt f => if f.code = 0x93 then modify (fun s => s.incReg (Reg.CVU_RESTART (bayOf i))) else pure ()
    | _ => pure ()
    throw e)

/-- Read and check the parameter block (R453). -/
def checkParams (i : Nat) (m : CheckCmd) : Mc CheckParams := do
  if 2 ≤ m.mode then pure fingerParams
  else
    let b ← spRead i 7 m.par 32
    let w := field b 16 4
    let p : CheckParams := { poly := field b 0 8, init := field b 8 8, w := bits w 6 0, refin := bit w 7, refout := bit w 8, inv := bit w 9 }
    failIf (decide (p.w < 8) || decide (64 < p.w) || decide (2 ^ p.w ≤ p.poly) || decide (2 ^ p.w ≤ p.init) || bits w 31 10 != 0
      || field b 20 12 != 0) 0xD1
    pure p

/-- CHECK: body, parameters, class and claims (R580), then the job. Nothing is written before the job completes (R455). Log entry 69, DEDUCED. -/
def checkBody (i c : Nat) : Mc Bool := do
  let b := bayOf i
  let m := checkCmd c
  failIf (cbits c 16 31 27 != 0 || cbits c 20 31 12 != 0 || cbits c 32 31 24 != 0 || cbits c 36 31 24 != 0 || cbytes c 40 8 != 0) 0xD0
  failIf (m.src % 4 != 0 || m.len % 4 != 0 || m.len == 0 || decide (2 ^ 26 < m.len) || m.res % 64 != 0
    || (decide (m.mode < 2) && (decide (m.blklog < 6) || decide (20 < m.blklog) || m.par % 32 != 0))
    || (m.mode == 1 && m.cmpen) || (m.mode == 2 && m.fold % 256 != 0) || (m.mode == 3 && m.len % 8 != 0)) 0xD1
  let t ← curTask i
  failIf (decide (2 ≤ m.mode) && t.dclass == 0) 0xD2
  failIf ((m.srcSp && !inClaim t (m.src % 2 ^ 24) m.len) || !inClaim t m.res m.resBytes || (decide (m.mode < 2) && !inClaim t m.par 32)) 0x06
  let p ← checkParams i m
  let bs ← checkSource i t.ctx m
  let n := if m.mode = 2 then 256 else 2 ^ m.blklog
  let blocks := if m.mode = 3 then [] else inBlocks n bs
  let fold := fun (k : Nat) => if m.folden then some (m.fold + (if m.foldsel then k else k * n)) else none
  if m.mode = 1 then
    spWrite i 7 m.res ((blockChecks p fold blocks).flatMap (leBytes 8))
  else
    let old ← (if m.acc && decide (2 ≤ m.mode) || m.cmpen then spRead i 7 m.res 16 else pure [])
    let v := if m.mode = 0 then singleCheck p fold blocks else if m.mode = 2 then fingerprint m.fold bs else combineWords bs
    let v := if m.acc && decide (2 ≤ m.mode) then v ^^^ field old 0 8 else v
    let eq := m.cmpen && v == field old 8 8
    spWrite i 7 m.res (leBytes 8 v)
    spWrite i 7 (m.res + 16) (leBytes 4 (1 + 2 * b2n eq) ++ leBytes 4 blocks.length)
    if m.cmpen && !eq then modify (fun s => s.incReg (Reg.CVU_MISMATCH b))
  modify (fun s => (s.incReg (Reg.CVU_JOBS b)).incReg64 (Reg.CVU_BYTES_LO b) (Reg.CVU_BYTES_HI b) m.len)
  pure true

/-- The row of CHECK. -/
def checkRow : CmdRow := { eng := 7, op := 1, len := 48, lenCode := 0xD0, opCode := 0xD0, immCode := some 0xD0 }

/-- CHECK. -/
def execCheck (i c : Nat) (s : State) : Host.Outcome State Fault Refusal :=
  answer s (okPane i) (runCmd s i c checkRow (fun _ => false) (checkBody i c))

end Sys2Proof.Machine
end

