-- ==== Sys2Proof/Machine/Boot.lean ====
section
/-! DEFINITION. Resets, the configuration flash, verification and the bring-up sequence (R465 to R483, R491 to R497), and
the flits of the ports, whose link-ups bring-up waits for. -/

namespace Sys2Proof.Machine

open Sys2Proof

/-! ### Resets (Table 15-1, R466, R562, R563) -/

/-- Registers of the supply die, which resets other than a power-up keep. -/
def supRegs (t : Tbl Word) : Tbl Word := t.filter (fun e => decide (0x1000 ≤ e.1 ∧ e.1 < 0x2000))

/-- What every reset does: the dies return to their reset state; the flash, the supply die and the straps as sampled stay. Log entry 76, DEDUCED. -/
def resetAll (s : State) : State :=
  { State.reset with pending := s.pending, nonce := s.nonce, flash := s.flash, sup := s.sup, regs := supRegs s.regs }

/-- The part of a memory controller's state that a restart keeps: remaps, refused pages, channel state. A channel whose
evacuation was under way is out of the map once memory is initialised again. Log entry 73, DEDUCED. -/
def keepMem (m : MemCtl) : MemCtl :=
  { remaps := m.remaps, refused := m.refused, rtfull := m.rtfull, lost := m.lost
    removed := match m.removed, m.evac with | some c, _ => some c | none, some (c, _, _) => some c | none, none => none
    evacPos := if m.removed.isSome then m.evacPos else if m.evac.isSome then evacLines else 0 }

/-- The copy in the always-on domain: the controllers' state once memory has been brought up, else the copy as it was. Log entry 73, DEDUCED. -/
def keepAll (s : State) : List (Nat × MemCtl) :=
  if s.rimOn then ((List.range 16).map (fun b => (b, keepMem (s.bay b).mem))).filter (fun e => e.2 != {}) else s.sup.keep

/-- A restart, or a recovery started through CTL_RESTART: device time, the log, the key store and the always-on copy stay. Log entry 76, DEDUCED. -/
def restartDevice (s : State) (recovery hold : Bool) : State :=
  let s0 := resetAll s
  { s0 with
    devTime := s.devTime
    rel := { s0.rel with log := s.rel.log, logSeq := s.rel.logSeq }
    sup := { s.sup with keep := keepAll s }
    sec := { s0.sec with seed := s.sec.seed }
    boot := { s0.boot with puf := false, forced := recovery, hold } }

/-- The device is off but for the supply die's wake logic (P5): nothing is kept. -/
def enterP5 (s : State) : State := { resetAll s with sup := { s.sup with keep := [] }, pwr := { st := 5 } }

/-- A die at 110 °C: P5 at once, with THERMTRIP_N low (Tables 16-7 and 19-7). -/
def thermalTrip (s : State) : State := let s := enterP5 s; { s with sup := { s.sup with tripped := true } }

/-- POWER_UP: the straps are sampled and everything starts anew. Log entry 11, DESIGN CHOICE. -/
def powerUp (s : State) (chip smba recoverN : Nat) : State :=
  { resetAll s with
    regs := []
    sup := { chip := chip % 2 ^ 12, smba := smba % 4, recoverN := recoverN % 2 }
    boot := { forced := recoverN % 2 == 0 } }

/-- POWER_UP. -/
def execPowerUp (chip smba recoverN : Nat) (s : State) : Host.Outcome State Fault Refusal :=
  .next { powerUp s chip smba recoverN with pending := s.pending }

/-- PIN_RESET: every die but the supply die resets, and the straps are sampled. It has no effect after a thermal trip, nor
without VAUX. VIN is in regulation at the release; the device runs from REFCLK0 again unless that shows no edges. Log entry 11, DESIGN CHOICE. -/
def pinReset (s : State) (chip smba recoverN : Nat) : State :=
  if s.sup.tripped || !s.sup.vauxOk then s
  else
    { resetAll s with
      sup := { s.sup with chip := chip % 2 ^ 12, smba := smba % 4, recoverN := recoverN % 2, keep := [], vinOk := true
                          refUsed := b2n s.sup.ref0Lost }
      boot := { forced := recoverN % 2 == 0 } }

/-- PIN_RESET. -/
def execPinReset (chip smba recoverN : Nat) (s : State) : Host.Outcome State Fault Refusal :=
  .next { pinReset s chip smba recoverN with pending := s.pending }

/-! ### The flash (R467 to R470, R493) -/

/-- Bytes of the flash. Log entry 10, PRESUMED. -/
def flashAt (s : State) (a n : Nat) : List Byte := rawRead s.flash 0xFF a n

/-- Replace a range of the flash. Log entry 10, PRESUMED. -/
def flashPut (s : State) (a : Nat) (bs : List Byte) : State :=
  { s with flash := s.flash.filter (fun c => decide (c.1 < a))
      ++ ((bs.mapIdx (fun k b => (a + k, b))).filter (fun c => c.2 != 0xFF))
      ++ s.flash.filter (fun c => decide (a + bs.length ≤ c.1)) }

/-- Is a copy of the directory or the service record valid? Log entry 70, DEDUCED. -/
def copyOk (bs : List Byte) : Bool := field bs 0 4 == 0x4F4B4944 && crc32 (bs.take 60) == field bs 60 4

/-- The copy in use at an area of two copies 32 KiB apart: its number and its 64 bytes. Log entry 70, DEDUCED. -/
def copyUsed (s : State) (base : Nat) : Option (Nat × List Byte) :=
  let x := flashAt s base 64
  let y := flashAt s (base + 0x8000) 64
  if copyOk x && !(copyOk y && decide (field x 4 4 < field y 4 4)) then some (0, x)
  else if copyOk y then some (1, y) else none

/-- The control firmware writes the copy not in use with SEQ + 1. Log entry 70, DEDUCED. -/
def writeCopy (s : State) (base : Nat) (body : List Byte) : State :=
  let (k, seq) := match copyUsed s base with
    | some (k, c) => (1 - k, (field c 4 4 + 1) % 2 ^ 32)
    | none => (0, 1)
  let bs := leBytes 4 0x4F4B4944 ++ leBytes 4 seq ++ body
  flashPut s (base + 0x8000 * k) (bs ++ leBytes 4 (crc32 bs))

/-- The directory names a slot. -/
def writeDirectory (s : State) (slot : Nat) : State := writeCopy s 0 (leBytes 1 slot ++ List.replicate 51 0)

/-- The service record as it stands. -/
def writeService (s : State) : State :=
  writeCopy s 0x20000 ((List.range 16).map (fun n => BitVec.ofNat 8 (s.boot.service.getD n 255)) ++ List.replicate 36 0)

/-- Keys derived from the seed (R492): "OLK-ATTEST" and "OLK-FLOOR" in ASCII. Log entry 80, DEDUCED. -/
def attestSeed (seed : List Byte) : List Byte :=
  Config.shake256 (seed ++ [0x4F, 0x4C, 0x4B, 0x2D, 0x41, 0x54, 0x54, 0x45, 0x53, 0x54]) 32
/-- The floor key. -/
def floorKey (seed : List Byte) : List Byte :=
  Config.shake256 (seed ++ [0x4F, 0x4C, 0x4B, 0x2D, 0x46, 0x4C, 0x4F, 0x4F, 0x52]) 32
/-- DEVID. -/
def devidOf (seed : List Byte) : List Byte := (Config.shake256 (Config.falconKey (attestSeed seed)) 64).take 16

/-- FLOOR of a floor record; none when its tag does not verify. Log entry 72, DEDUCED. -/
def floorRec (s : State) (seed : List Byte) (k : Nat) : Option Nat :=
  let r := flashAt s (0x12000 + 64 * k) 48
  if Config.kmac256 (floorKey seed) (r.take 16) 32 = r.drop 16 then some (field r 4 4) else none

/-- The floor (R493, R494). -/
def floorOf (s : State) : Nat :=
  match s.sec.seed with
  | some seed => max ((floorRec s seed 0).getD 0) ((floorRec s seed 1).getD 0)
  | none => 0

/-- Raise the floor by writing the older floor-record copy: one that is not valid, else the one with the lower FLOOR. Log entry 72, DEDUCED. -/
def raiseFloor (s : State) (seed : List Byte) (f : Nat) : State :=
  let k := match floorRec s seed 0, floorRec s seed 1 with
    | none, _ => 0
    | _, none => 1
    | some x, some y => if y < x then 1 else 0
  let bs := leBytes 4 0x4F4B464C ++ leBytes 4 f ++ List.replicate 8 0
  flashPut s (0x12000 + 64 * k) (bs ++ Config.kmac256 (floorKey seed) bs 32)

/-! ### Images (R471 to R475, R497) -/

/-- Where an image slot begins (Table 15-2). -/
def slotBase (k : Nat) : Nat := 0x800000 + 0x3C00000 * k

/-- Entries of an image's section table: TYPE, OFFSET, SLEN. `rd` reads the image's bytes. -/
def imgSects (rd : Nat → Nat → List Byte) : List (Nat × Nat × Nat) :=
  (List.range 16).map (fun k => let e := rd (0x20 + 16 * k) 16; (field e 0 2, field e 4 4, field e 8 4))

/-- LENGTH of an image. -/
def imgLen (rd : Nat → Nat → List Byte) : Nat := field (rd 0x10 4) 0 4

/-- MAGIC, FMT and PART, and a LENGTH within the slot. -/
def imgHead (rd : Nat → Nat → List Byte) : Bool :=
  field (rd 0 8) 0 4 == 0x494B4C4F && field (rd 0 8) 4 2 == 1 && field (rd 0 8) 6 2 == 7160
    && decide (0x1000 + 1536 ≤ imgLen rd ∧ imgLen rd ≤ 0x3C00000)

/-- Offset and length of the section of a type. -/
def imgSect (rd : Nat → Nat → List Byte) (t : Nat) : Nat × Nat :=
  match (imgSects rd).find? (fun e => e.1 == t) with
  | some e => e.2
  | none => (0, 0)

/-- Each type once, and every section between offset 0x1000 and the signature, overlapping no other. -/
def imgTable (rd : Nat → Nat → List Byte) : Bool :=
  let es := (imgSects rd).take 7
  field (rd 0x14 2) 0 2 == 7
    && (List.range 7).all (fun t => (es.filter (fun e => e.1 == t + 1)).length == 1)
    && ((imgSects rd).drop 7).all (fun e => e == (0, 0, 0))
    && es.all (fun e => decide (0x1000 ≤ e.2.1 ∧ e.2.1 + e.2.2 ≤ imgLen rd - 1536))
    && es.all (fun e => es.all (fun f => e.1 == f.1 || decide (e.2.1 + e.2.2 ≤ f.2.1) || decide (f.2.1 + f.2.2 ≤ e.2.1)))

/-- PUBKEY of an image. -/
def imgKey (rd : Nat → Nat → List Byte) : List Byte := rd 0x120 1793

/-- The key digest and the signature. Log entry 80, DEDUCED. -/
def imgSigned (rd : Nat → Nat → List Byte) : Bool :=
  let n := field (rd (imgLen rd - 1536) 2) 0 2
  Config.shake256 (imgKey rd) 64 == Config.romKey && decide (1 ≤ n ∧ n ≤ 1534)
    && Config.falconVerify (imgKey rd) (Config.shake256 (rd 0 (imgLen rd - 1536)) 64) (rd (imgLen rd - 1534) n)

/-- The memory map of an image in region order (R473). -/
def imgMap (rd : Nat → Nat → List Byte) : List Region :=
  let (off, _) := imgSect rd 5
  (List.range (field (rd off 4) 0 4)).map (fun k =>
    let e := rd (off + 16 + 32 * k) 32
    { base := field e 0 8, size := field e 8 8, kind := field e 16 1, stack := field e 17 1 })

/-- Is the memory-map section as R473 states? -/
def imgMapOk (rd : Nat → Nat → List Byte) : Bool :=
  let (off, len) := imgSect rd 5
  let n := field (rd off 4) 0 4
  decide (1 ≤ n ∧ n ≤ 64 ∧ 16 + 32 * n ≤ len) && field (rd (off + 4) 12) 0 12 == 0
    && (List.range n).all (fun k => field (rd (off + 16 + 32 * k) 32) 18 14 == 0)
    && (let rs := imgMap rd
        rs.all (fun r => r.base % 0x40000 == 0 && decide (r.base < 2 ^ 52) && r.size % 0x40000 == 0 && r.size != 0
          && decide (r.kind ≤ 2) && (if r.kind = 2 then decide (r.stack < 16) else r.stack == 0))
        && rs.zipIdx.all (fun x => rs.zipIdx.all (fun y => x.2 == y.2
          || decide (x.1.base + x.1.size ≤ y.1.base) || decide (y.1.base + y.1.size ≤ x.1.base)))
        && (List.range 16).all (fun st => decide ((rs.map (fun r => extentIn r st)).sum ≤ chanBytes)))

/-- Is a slot-table entry well formed under check 2 of Table 15-9? Engine codes of an owner are 0 to 8 (Table 2-5). -/
def slotWell (kind e : Nat) : Bool :=
  if kind = 3 then !bit e 3 && bits e 15 5 == 0
  else bits e 15 13 == 0 && decide (bits e 10 7 ≤ 8) && (!bit e 11 || bits e 2 0 == 0)

/-- Is every entry of the slot-table section well formed, from entry `k` on (R474)? -/
def slotsWell : Nat → List Byte → Bool
  | k, x :: y :: r => slotWell (if k % 170240 < 169472 then 0 else 3) (leNat [x, y]) && slotsWell (k + 1) r
  | _, _ => true

/-- The slot-table section of an image. -/
def imgSlots (rd : Nat → Nat → List Byte) : List Byte := rd (imgSect rd 6).1 (16 * 340480)

/-- VERSION and MINVER. -/
def imgVer (rd : Nat → Nat → List Byte) : Nat := field (rd 8 4) 0 4
/-- MINVER. -/
def imgMin (rd : Nat → Nat → List Byte) : Nat := field (rd 0xC 4) 0 4

/-- The checks of R475: 0 when all hold, else the kind of the first that fails: 1 signature, 2 format, 3 below the floor. Log entry 71, DEDUCED. -/
def imgVerdict (rd : Nat → Nat → List Byte) (floor : Nat) : Nat :=
  if !imgHead rd then 2
  else if !imgTable rd then 2
  else if !imgSigned rd then 1
  else if imgVer rd < imgMin rd ∨ imgVer rd < floor then 3
  else if !imgMapOk rd || decide ((imgSect rd 6).2 < 16 * 340480) || !slotsWell 0 (imgSlots rd) then 2
  else 0

/-- Versions of the control, window-die and Follux-die firmware: the first 4 B of each section. -/
def imgFw (rd : Nat → Nat → List Byte) : List Nat := [1, 2, 3].map (fun t => field (rd (imgSect rd t).1 4) 0 4)

/-! ### The ROM's steps (Tables 15-5 to 15-7) -/

/-- Does an error end the bring-up? Log entry 71, DEDUCED. -/
def bootFatal (code : Nat) : Bool := code == 4 || code == 6 || code == 7

/-- Record a boot error (R480): CTL_BOOTERR keeps the first, and every error is logged. Log entry 71, DEDUCED. -/
def bootError (s : State) (code inst : Nat) : State :=
  let s := if s.regN Reg.CTL_BOOTERR % 256 = 0 then s.setReg Reg.CTL_BOOTERR (code + inst % 16 * 2 ^ 8 + b2n (bootFatal code) * 2 ^ 12) else s
  logE { s with boot := { s.boot with lastErr := code } } 0x13 8 0 0 (detail code 0) code

/-- A recovery boot (R477): Open, P4, no keys derived. -/
def recoveryBoot (s : State) : State :=
  { s with boot := { s.boot with phase := 14, recovery := true, forced := false }, sec := { s.sec with st := 0 } }

/-- BOOT_DIRECTORY_READ (R469, R470, R491, R494). Log entry 70, DEDUCED. -/
def directoryRead (s : State) : State :=
  if s.boot.phase ≠ 0 ∨ s.pwr.st = 5 then s
  else
    let s := if s.boot.puf then { s with sec := { s.sec with seed := Config.pufSeed (flashAt s 0x10000 0x2000) } } else s
    if s.boot.forced then recoveryBoot (bootError s 0x0B 0)
    else
      let act := match copyUsed s 0 with | some (_, c) => if field c 8 1 = 1 then 1 else 0 | none => 0
      let svc := match copyUsed s 0x20000 with
        | some (_, c) => (List.range 16).map (fun n => if field c (8 + n) 1 < 8 then field c (8 + n) 1 else 255)
        | none => List.replicate 16 255
      let s := if (copyUsed s 0).isNone then bootError s 0x01 0 else s
      let s := if (copyUsed s 0x20000).isNone then bootError s 0x02 0 else s
      let s := if s.boot.puf && s.sec.seed.isNone then bootError s 0x05 0 else s
      { s with boot := { s.boot with phase := 1, active := act, slot := act, second := false, service := svc } }

/-- BOOT_DIRECTORY_READ. -/
def execBootDirectoryRead (s : State) : Host.Outcome State Fault Refusal := answer s true (directoryRead s)

/-- A slot is accepted (Tables 15-6 and 16-2): Sealed, keys derived, the floor raised; the control firmware starts and sets
P0, unless bring-up holds in P4. Log entry 75, DEDUCED. -/
def acceptSlot (s : State) (rd : Nat → Nat → List Byte) : State :=
  let f := floorOf s
  let s := match s.sec.seed with
    | some seed => if f < imgMin rd then raiseFloor s seed (imgMin rd) else s
    | none => s
  { s with
    boot := { s.boot with phase := 2, ver := imgVer rd, minver := imgMin rd, enports := field (rd 0x18 4) 0 4, fw := imgFw rd }
    sec := { s.sec with
      st := 1
      noid := s.sec.seed.isNone
      devid := match s.sec.seed with | some seed => devidOf seed | none => []
      floor := if s.sec.seed.isSome then max f (imgMin rd) else 0
      imgKey := imgKey rd
      imgHash := Config.shake256 (rd 0 (imgLen rd)) 64 }
    pwr := { s.pwr with st := if s.boot.hold then 4 else 0 } }

/-- SLOT_VERIFY_DONE (R475, R476). -/
def slotVerified (s : State) : State :=
  if s.boot.phase ≠ 1 ∨ s.pwr.st = 5 then s
  else
    let rd := fun (o n : Nat) => flashAt s (slotBase s.boot.slot + o) n
    if imgVerdict rd (floorOf s) = 0 then acceptSlot s rd
    else if s.boot.second then recoveryBoot (bootError s 0x04 0)
    else
      let s := bootError s 0x03 0
      { s with boot := { s.boot with slot := 1 - s.boot.slot, second := true } }

/-- SLOT_VERIFY_DONE. -/
def execSlotVerifyDone (s : State) : Host.Outcome State Fault Refusal := answer s true (slotVerified s)

/-! ### Steps 4 to 11 -/

/-- Bring-up fails (R481). -/
def bootFailed (s : State) : State := { s with boot := { s.boot with phase := 15 } }

/-- Each bay requests the array clock that the power state asks for: in P1 at most PWR_P1CLK, else 4.0 GHz (R505, R316). Log entry 75, DEDUCED. -/
def requestClocks (s : State) : State :=
  let v := if s.pwr.st = 1 then s.regN Reg.PWR_P1CLK % 8 else 7
  (List.range 16).foldl (fun s b => s.modBay b (fun x => { x with clkPwr := v })) s

/-- Step 5: the always-on copy of each controller's state is restored; a channel that fails training leaves the map (R466,
R481). Log entry 73, DEDUCED. -/
def trainStack (s : State) (b : Nat) (bad : List Nat) : State :=
  let m : MemCtl := match s.sup.keep.find? (fun e => e.1 == b) with | some e => e.2 | none => {}
  let m := match bad with
    | ch :: _ => { m with removed := some ch, evacPos := 0 }
    | [] => m
  s.modMem b (fun _ => { m with resetting := false })

/-- Channels of a stack that fail training now, of those that its map still holds. Log entry 74, DEDUCED. -/
def badNow (s : State) (rep : BringUp) (b : Nat) : List Nat :=
  let m : MemCtl := match s.sup.keep.find? (fun e => e.1 == b) with | some e => e.2 | none => {}
  (((rep.badChannels.filter (fun e => e.1 == b && decide (e.2 < 32))).map (·.2)).eraseDups).filter (fun c =>
    m.removed != some c && !m.lost.contains c)

/-- Does a stack have two or more channels out of its map, one of them just now (Table 15-7, error 0x07)? Log entry 74, DEDUCED. -/
def stackBad (s : State) (rep : BringUp) (b : Nat) : Bool :=
  let m : MemCtl := match s.sup.keep.find? (fun e => e.1 == b) with | some e => e.2 | none => {}
  let n := (badNow s rep b).length
  decide (2 ≤ n) || n == 1 && (m.removed.isSome || !m.lost.isEmpty)

/-- Step 7: substitutions of the service record, numbered panes to Run, spares to Test (R470, R532). -/
def startPanes (s : State) : State :=
  (List.range 144).foldl (fun s i =>
    let b := i / 9
    let l := s.boot.service.getD b 255
    let number :=
      if i % 9 = 8 then (if l < 8 then some (b * 8 + l) else none)
      else if i % 9 = l then none else some (b * 8 + i % 9)
    s.modPane i (fun p => { p with number, mode := if number.isSome then 0 else 2 })) s

/-- BRING_UP_STEPS_DONE: steps 4 to 7. Memory is written to zero (R288); the memory map and the slot-table defaults of the
image are loaded. Log entry 74, DEDUCED. -/
def bringUp (s : State) (rep : BringUp) : State :=
  if s.boot.phase ≠ 2 ∨ s.boot.hold ∨ s.pwr.st = 5 then s
  else
    match rep.badBays with
    | b :: _ => bootFailed (bootError s 0x06 b)
    | [] =>
      match (List.range 16).find? (stackBad s rep) with
      | some b => bootFailed (bootError s 0x07 b)
      | none =>
        let rd := fun (o n : Nat) => flashAt s (slotBase s.boot.slot + o) n
        let s := (List.range 16).foldl (fun s b => trainStack s b (badNow s rep b)) s
        let s := (List.range 16).foldl (fun s b => s.modMem b (fun m => { m with ready := true })) s
        let s : State := { s with
          dram := [], dramErr := [], dramMis := [], regions := imgMap rd
          slotDef := ((imgSlots rd).mapIdx (fun k x => (k, x))).filter (fun c => c.2 != 0) }
        let s := requestClocks (startPanes s)
        { s with boot := { s.boot with phase := 3 } }

/-- BRING_UP_STEPS_DONE. -/
def execBringUpStepsDone (rep : BringUp) (s : State) : Host.Outcome State Fault Refusal := answer s true (bringUp s rep)

/-- Step 10: the Follux ports whose lasers locked train. -/
def startFollux (s : State) : State :=
  let s := [0, 1].foldl (fun s f => if s.boot.laserFault.contains (8 + f) then s else portEnable s (32 + f)) s
  { s with boot := { s.boot with phase := 5 } }

/-- Does the device meet the conditions of READY that lie outside the link (R483)? -/
def readyOk (s : State) : Bool :=
  (List.range 16).all (fun b => (s.bay b).mem.ready) && (List.range 144).all (fun i => (s.pane i).number.isNone || (s.pane i).mode == 0)

/-- READY is set (R483): CTL_READYT, READY_OUT, vector 50. Log entry 31, DESIGN CHOICE. -/
def setReady (s : State) : State :=
  let (k, s) := s.pick 8
  let s := { s with boot := { s.boot with phase := 6, ready := true, readyCode := 6 + k } }
  raiseIrq (s.setReg64 Reg.CTL_READYT_LO Reg.CTL_READYT_HI s.devTime) 50

/-- What a change of the ports means to bring-up: every enabled port Up ends step 9, one Follux port Up ends step 10. -/
def bootCheck (s : State) : State :=
  let s := if s.boot.phase = 4 ∧ (setBitsOf 32 s.boot.enports).all s.portUp then startFollux s else s
  if s.boot.phase = 5 ∧ (s.portUp 32 || s.portUp 33) ∧ readyOk s then setReady s else s

/-- LASERS_LOCKED: step 8 ends; the ports that ENPORTS names train, but for those of a die whose lasers failed (R482). Log entry 86, DEDUCED. -/
def lasersLocked (s : State) (faulted : List Nat) : State :=
  if s.boot.phase ≠ 3 then s
  else
    let ds := (faulted.filter (· < 10)).eraseDups
    let s := ds.foldl (fun s d => if d < 8 then bootError s 0x08 d else bootError s 0x09 (d - 8)) s
    let s := { s with boot := { s.boot with phase := 4, laserFault := ds } }
    bootCheck ((setBitsOf 32 s.boot.enports).foldl (fun s p => if ds.contains (p / 4) then s else portEnable s p) s)

/-- LASERS_LOCKED. -/
def execLasersLocked (faulted : List Nat) (s : State) : Host.Outcome State Fault Refusal := answer s true (lasersLocked s faulted)

/-- EXCHANGE_TRAINING_TIMEOUT: step 9 ends at 500 ms; a port not Up goes on training. -/
def execExchangeTrainingTimeout (s : State) : Host.Outcome State Fault Refusal :=
  answer s true (if s.boot.phase = 4 then bootCheck (startFollux s) else s)

/-- FOLLUX_TRAINING_TIMEOUT: error 0x0A is recorded and training goes on. -/
def execFolluxTrainingTimeout (s : State) : Host.Outcome State Fault Refusal :=
  answer s true (if s.boot.phase = 5 then bootError s 0x0A 0 else s)

/-! ### Flits, and the link firmware update that waits for a port (R531) -/

/-- Start the shutter in which the next port takes its new firmware. A port that is not Up needs none; one whose peer no
other usable port reaches waits until another port to that peer is Up. -/
def updShutter (s : State) : State :=
  if s.rel.upd ≠ 4 ∨ s.rel.updBegun then s
  else
    let p := s.rel.updPort
    let begun := fun (s : State) => { s with rel := { s.rel with updBegun := true } }
    if !s.portUp p then begun s
    else if (altPort s p).isSome then startShutter (begun s) p 4
    else s

/-- What follows a flit. -/
def afterFlit (s : State) : State := settle (updShutter (bootCheck s))

/-- FLIT_RECEIVE. -/
def execFlitReceive (p flit : Nat) (s : State) : Host.Outcome State Fault Refusal :=
  answer s (okPort p) (afterFlit (flitReceive s p flit))

/-- FLIT_SEND. -/
def execFlitSend (p : Nat) (s : State) : Host.Outcome State Fault Refusal := answer s (okPort p) (afterFlit (flitSend s p))

end Sys2Proof.Machine
end

