-- ==== Sys2Proof/Machine/Commit.lean ====
section
/-! DEFINITION. Staged registers and commit (R11, R12, R485 to R490, R550). A commit target is keyed as CTL_COMMIT names it:
TARGET + INST * 2^8 + LOCAL * 2^12. -/

namespace Sys2Proof.Machine

open Sys2Proof

/-- Instances of a target exist and LOCAL is 0 but for a pane (Table 15-9; R550). -/
def tgtKnown (k : Nat) : Bool :=
  let t := k % 256
  let n := bits k 11 8
  let l := bits k 15 12
  if t = 2 then decide (l ≤ 8)
  else l == 0 && (t == 1 || t == 3 || t == 4 || t == 5 || t == 7 || t == 6 && decide (n < 8) || decide (8 ≤ t ∧ t ≤ 0xB) && n == 0)

/-- The staged registers of a target, but for PANE_MODE, which only the control die writes, and the slot-table entries. -/
def tgtRegs (k : Nat) : List Nat :=
  let t := k % 256
  let n := bits k 11 8
  if t = 1 then [Reg.BAY_BSHARE n] else if t = 3 then [Reg.MEM_CTRL n] else if t = 4 then [Reg.XLT_OTCTRL n, Reg.XLT_OTLIMIT n]
  else if t = 5 then [Reg.DSP_SLICE n, Reg.DSP_BLOCKSW n] else if t = 6 then [Reg.WIN_REPLAYTMO n] else if t = 7 then [Reg.XE_RTMO n]
  else if t = 8 then [Reg.FLX_HTMO] else if t = 9 then [Reg.PWR_P1CLK] else if t = 0xA then [Reg.DBG_TRCCTL]
  else if t = 0xB then [Reg.LOG_CTRL] else []

/-- The target to which a staged register belongs. -/
def tgtOf (a : Nat) : Option Nat :=
  let b := (a - 0x01000000) / 0x100000
  let o := a % 0x100000
  if a = Reg.FLX_HTMO then some 8 else if a = Reg.PWR_P1CLK then some 9 else if a = Reg.DBG_TRCCTL then some 0xA
  else if a = Reg.LOG_CTRL then some 0xB
  else if 0x00800000 ≤ a ∧ a < 0x00808000 ∧ a % 0x1000 = 4 then some (6 + a / 0x1000 % 8 * 2 ^ 8)
  else if a < 0x01000000 ∨ 0x02000000 ≤ a then none
  else if o = 0x20 ∨ o = 0x34 then some (1 + b * 2 ^ 8)
  else if o = 0x3008 then some (3 + b * 2 ^ 8)
  else if o = 0x400C ∨ o = 0x4028 then some (4 + b * 2 ^ 8)
  else if o = 0x5010 ∨ o = 0x5014 then some (5 + b * 2 ^ 8)
  else if o = 0x2010 then some (7 + b * 2 ^ 8) else none

/-- The staged copy of a register. -/
def stagedN (s : State) (a : Nat) : Nat := (tget (regReset a) s.staged a).toNat

/-- Set the staged copy of a register. -/
def putStaged (s : State) (a v : Nat) : State := { s with staged := tset (regReset a) s.staged a (BitVec.ofNat 32 v) }

/-- Hold a write behind the pending commit of its target (R486). Log entry 95, DEDUCED. -/
def holdWrite (s : State) (a v : Nat) : State := { s with mgmt := { s.mgmt with held := s.mgmt.held ++ [{ addr := a, value := v }] } }

/-- A write to a staged register replaces the staged copy; it is held while a commit of its target is pending. Log entry 78, DEDUCED. -/
def stageWrite (s : State) (a v : Nat) : State :=
  match tgtOf a with
  | none => s
  | some k =>
    if a % 0x100000 = 0x34 ∧ 0x01000000 ≤ a then stageSlot s ((a - 0x01000000) / 0x100000) v
    else if s.mgmt.commits.contains k then holdWrite s a v
    else putStaged s a v

/-- Bits of a register that its row defines. -/
def rowMask (a : Nat) : Nat := match regRow a with | some r => r.mask | none => 0

/-- Does the staged copy of a register have a reserved bit set? -/
def reservedSet (s : State) (a : Nat) : Bool := Nat.land (stagedN s a) (rowMask a) != stagedN s a

/-- The first failing check of a target: offset of the register and number of the check (Table 15-9; R515, R513, R537). Log entry 78, DEDUCED. -/
def commitCheck (s : State) (k : Nat) : Option (Nat × Nat) :=
  let t := k % 256
  let n := bits k 11 8
  if t = 1 then
    let w := stagedN s (Reg.BAY_BSHARE n)
    let rd := bits w 5 0
    let wr := bits w 13 8
    if 64 < rd + wr ∨ 64 < rd + wr + bits w 21 16 then some (0x20, 1)
    else if (s.bay n).slotStaged.any (fun e => match e.2 with | some v => !slotWell (e.1 / 2 ^ 18) v | none => false) then some (0x34, 2)
    else none
  else if t = 3 then (if reservedSet s (Reg.MEM_CTRL n) then some (0x8, 4) else none)
  else if t = 4 then
    if bit (stagedN s (Reg.XLT_OTCTRL n)) 0 ∧
        (s.reg64 (Reg.XLT_OTBASE_LO n) (Reg.XLT_OTBASE_HI n) = 0 ∨ stagedN s (Reg.XLT_OTLIMIT n) = 0) then some (0xC, 5) else none
  else if t = 5 then
    let x := Nat.land (stagedN s (Reg.DSP_SLICE n)) (rowMask (Reg.DSP_SLICE n))
    let y := Nat.land (stagedN s (Reg.DSP_BLOCKSW n)) (rowMask (Reg.DSP_BLOCKSW n))
    if x = 0 then some (0x10, 6) else if y = 0 ∨ x < y then some (0x14, 6) else none
  else if t = 6 then (if Nat.land (stagedN s (Reg.WIN_REPLAYTMO n)) (rowMask (Reg.WIN_REPLAYTMO n)) < 400 then some (0x4, 7) else none)
  else if t = 7 then (if Nat.land (stagedN s (Reg.XE_RTMO n)) (rowMask (Reg.XE_RTMO n)) = 0 then some (0x10, 8) else none)
  else if t = 8 then (if Nat.land (stagedN s Reg.FLX_HTMO) (rowMask Reg.FLX_HTMO) = 0 then some (0x4, 8) else none)
  else if t = 9 then (if reservedSet s Reg.PWR_P1CLK then some (0x8, 9) else none)
  else if t = 0xA then (if reservedSet s Reg.DBG_TRCCTL then some (0x8, 10) else none)
  else if t = 0xB then (if reservedSet s Reg.LOG_CTRL then some (0x8, 11) else none)
  else none

/-- CTL_COMMITST shows a commit in a state: 1 pending, 2 applied, 3 rejected (R490). -/
def showCommit (s : State) (k st : Nat) : State :=
  s.setReg Reg.CTL_COMMITST (st + k % 256 * 2 ^ 8 + bits k 11 8 * 2 ^ 16 + bits k 15 12 * 2 ^ 20)

/-- A commit is checked as it is received or released (R485, R486). Log entry 78, DEDUCED. -/
def commitNow (s : State) (v : Nat) : State :=
  let k := v % 65536
  let reject := fun (off chk : Nat) => (showCommit s k 3).setReg Reg.CTL_COMMITERR (off + chk * 2 ^ 16)
  if s.mgmt.commits.contains k then holdWrite s Reg.CTL_COMMIT v
  else if !tgtKnown k then reject 0 0xFF
  else
    match commitCheck s k with
    | some (off, chk) => reject off chk
    | none => let s := showCommit s k 1; { s with mgmt := { s.mgmt with commits := s.mgmt.commits ++ [k] } }

/-- A write of CTL_COMMIT: it is counted in CTL_COMMITSEQ (R550). -/
def commitWrite (s : State) (v : Nat) : State :=
  commitNow (s.setReg Reg.CTL_COMMITSEQ ((s.regN Reg.CTL_COMMITSEQ + 1) % 2 ^ 32)) v

/-- CTL_COMMIT. -/
def execCtlCommit (v : Nat) (s : State) : Host.Outcome State Fault Refusal := answer s true (whenOpen s Reg.CTL_COMMIT (commitWrite s v))

/-- Has the target reached its safe boundary: a pane is idle with no task saved on it (Table 15-9)? -/
def atBoundary (s : State) (k : Nat) : Bool :=
  if k % 256 = 2 then
    let p := s.pane (bits k 11 8 * 9 + bits k 15 12)
    p.task.isNone && p.sw.isNone && !(s.tasks.any (fun t => t.saved.isSome && t.ranOn == p.number && p.number.isSome))
  else true

/-- What a path was answered: reason and data (R546). -/
def noteAnswer (s : State) (path reason data : Nat) : State :=
  if path = 0 then s
  else { s with mgmt := { s.mgmt with last := tset (0, 0) s.mgmt.last path (reason, BitVec.ofNat 32 data) } }

/-- MGRSP of a management message of the companion: the status of Table 18-4; a write's DATA is a free value. Log entry 92, DEDUCED. -/
def mgrsp (s : State) (f : Nat) (m : List Byte) (reason : Nat) (data : Option Nat) : State :=
  let st := if reason = 0 then 0 else if reason = 3 then 0xA else 0xC
  match data with
  | some d => answerHost s (finBay s m) f m 0x2C st (leBytes 4 d)
  | none => let (bs, s) := s.freeBytes 4; answerHost s (finBay s m) f m 0x2C st bs

/-- A write is answered on its path. -/
def answerWrite (s : State) (path reason : Nat) (msg : Option (Nat × List Byte)) : State :=
  let s := noteAnswer s path reason 0
  match msg with
  | some (f, m) => mgrsp s f m reason none
  | none => s

/-- The latest held write belongs to a path, which waits for its answer. -/
def ownHeld (s : State) (path : Nat) (msg : Option (Nat × List Byte)) : State :=
  { s with mgmt := { s.mgmt with held := s.mgmt.held.dropLast ++ (s.mgmt.held.getLast?.toList.map (fun h => { h with path, msg })) } }

/-- A held write is served, and answered unless it is held again. -/
def serveHeld (s : State) (h : HeldWrite) : State :=
  let t := if h.addr = Reg.CTL_COMMIT then commitNow s h.value else stageWrite s h.addr h.value
  if s.mgmt.held.length < t.mgmt.held.length then ownHeld t h.path h.msg else answerWrite t h.path 0 h.msg

/-- Writes held behind a commit are served in arrival order. Log entry 95, DEDUCED. -/
def releaseHeld (s : State) : State := s.mgmt.held.foldl serveHeld { s with mgmt := { s.mgmt with held := [] } }

/-- COMMIT_APPLY: every staged value of the target takes effect together, and what was held behind it is served. Staged slot entries
wait for the next frame boundary of their own table (R58). -/
def commitApply (s : State) (k : Nat) : State :=
  if !(s.mgmt.commits.contains k) || !atBoundary s k then s
  else
    let s : State := (tgtRegs k).foldl (fun s a =>
      let v := Nat.land (stagedN s a) (rowMask a)
      putStaged (s.setReg a v) a v) s
    let s := if k % 256 = 1 then
        s.modBay (bits k 11 8) (fun x => { x with slotDue := x.slotStaged.foldl (fun t e => tset none t e.1 e.2) x.slotDue, slotStaged := [] })
      else s
    let s := if k % 256 = 9 then requestClocks s else s
    let s := if s.regN Reg.CTL_COMMITST = 1 + k % 256 * 2 ^ 8 + bits k 11 8 * 2 ^ 16 + bits k 15 12 * 2 ^ 20 then showCommit s k 2 else s
    releaseHeld { s with mgmt := { s.mgmt with commits := s.mgmt.commits.erase k } }

/-- COMMIT_APPLY. -/
def execCommitApply (tgt : Nat) (s : State) : Host.Outcome State Fault Refusal := answer s true (commitApply s (tgt % 65536))

end Sys2Proof.Machine
end

