-- ==== Sys2Proof/Machine/Sec.lean ====
section
/-! DEFINITION. Security, the flash-programming service, debug and power states (R491 to R516). Paths: 1 SMBus, 2 Follux,
3 test port. -/

namespace Sys2Proof.Machine

open Sys2Proof

/-! ### The debug level (R500) -/

/-- The level falls to Closed: its path gives it up and the trace rings are cleared (R504). Log entry 81, DEDUCED. -/
def dbgClose (s : State) : State :=
  let s := (List.range 16).foldl (fun s b => s.modBay b (fun x => { x with trace := [], traceStopped := false })) s
  { s with dbg := { s.dbg with level := 0, path := 0 } }

/-- Does a path hold a level of at least `lvl`? -/
def holdsLevel (s : State) (path lvl : Nat) : Bool := decide (lvl ≤ s.dbg.level) && s.dbg.path == path

/-! ### SEC_CMD (R498, R499, R510 to R512) -/

/-- Service ends: Sealed, and an Intrude level falls to Closed (Table 16-2). -/
def endService (s : State) : State :=
  let s := { s with sec := { s.sec with st := 1 } }
  if s.dbg.level = 2 then dbgClose s else s

/-- A write of SEC_CMD: refused with 0x08 while a command runs; a code outside Table 16-11 is ignored. Log entry 79, DEDUCED. -/
def secStart (s : State) (code path : Nat) : State :=
  if code = 0 ∨ 6 < code then s
  else if s.sec.run.isSome then { s with sec := { s.sec with result := 8 } }
  else { s with sec := { s.sec with run := some (code, path) } }

/-- SEC_ARGADDR. -/
def argAddr (s : State) : Nat := s.reg64 Reg.SEC_ARGADDR_LO Reg.SEC_ARGADDR_HI

/-- The result of a token, and whether the nonce is used up (R498). Log entry 79, DEDUCED. Log entry 80, DEDUCED. -/
def tokenResult (s : State) (t : List Byte) : Nat × Bool :=
  let lvl := field t 32 1
  let dur := field t 36 4
  let n := field t 64 2
  if field t 0 4 ≠ 0x4F4B5354 ∨ field t 4 2 ≠ 1 ∨ field t 6 2 ≠ 7160 then (7, false)
  else if (t.drop 8).take 16 ≠ s.sec.devid then (2, false)
  else if !s.sec.nonceOk || field t 24 8 != s.sec.nonce then (3, false)
  else if lvl = 0 ∨ 2 < lvl ∨ dur = 0 ∨ 86400 < dur ∨ n = 0 ∨ 1534 < n then (7, true)
  else if Config.falconVerify s.sec.imgKey (Config.shake256 (t.take 64) 64) ((t.drop 66).take n) then (0, true)
  else (1, true)

/-- A token is loaded. Log entry 79, DEDUCED. -/
def loadToken (s : State) (path : Nat) (t : List Byte) : State :=
  let (r, used) := tokenResult s t
  let s := { s with sec := { s.sec with run := none, result := r, nonceOk := s.sec.nonceOk && !used, token := [] } }
  if r ≠ 0 then s
  else { s with sec := { s.sec with st := 2, sessPath := path, sessLevel := field t 32 1, sessEnd := s.devTime + field t 36 4 * 10 ^ 9 } }

/-- Bytes 0 to 255 of an attestation report (Table 16-4). -/
def reportHead (s : State) (challenge : List Byte) : List Byte :=
  leBytes 4 0x4F4B4154 ++ leBytes 2 1 ++ leBytes 2 7160 ++ s.sec.devid ++ challenge ++ leBytes 8 s.devTime ++ s.sec.imgHash
    ++ leBytes 4 s.boot.ver ++ leBytes 4 s.boot.minver ++ leBytes 4 s.sec.floor ++ (s.boot.fw.map (leBytes 4)).flatten
    ++ leBytes 1 s.sec.st ++ leBytes 1 s.dbg.level ++ leBytes 1 s.pwr.st
    ++ leBytes 1 (b2n (s.boot.slot != s.boot.active) + 2 * b2n s.sec.updated + 4 * b2n s.sec.intruded) ++ List.replicate 100 0

/-- The report, signed with the attestation key, zeros after the signature. -/
def report (s : State) (seed challenge : List Byte) : List Byte :=
  let h := reportHead s challenge
  let sig := (Config.falconSign (attestSeed seed) (Config.shake256 h 64)).take 1534
  h ++ leBytes 2 sig.length ++ sig ++ List.replicate (1534 - sig.length) 0

/-- A command ends with a result. -/
def secEnd (s : State) (r : Nat) : State := { s with sec := { s.sec with run := none, result := r } }

/-- Who reads and writes at SEC_ARGADDR for a command. -/
def secWho : Who := .ctl .service

/-- A command goes on with what lies at SEC_ARGADDR once it has been read; an access that fails ends it with result 0x07. -/
def secRead (s : State) (n : Nat) (k : List Byte → State → State) : State :=
  match runMc (sysRead secWho (argAddr s) n) s with
  | (.ok bs, s) => k bs (dropNeeds s secWho)
  | (.error (.need ns), _) => postNeeds s ns
  | (.error .wait, _) => s
  | (.error _, s) => secEnd (dropNeeds s secWho) 7

/-- A command writes at SEC_ARGADDR, and ends when the write has; outside the memory map it ends with result 0x07. -/
def secWrite (s : State) (bs : List Byte) : State :=
  if (linesIn (localPa (argAddr s)) bs.length).any (outOfMap s) then secEnd (sysPost s secWho (argAddr s) bs) 7
  else sysPost s secWho (argAddr s) bs (.fetch secWho)

/-- The writes of the running command. -/
def secWrites (s : State) : List Access := s.accs.filter (fun a => a.purpose == .fetch secWho && a.op == .write)

/-- SEC_COMMAND_COMPLETE: the running command has its effect and its result. Log entry 79, DEDUCED. Log entry 80, DEDUCED. -/
def secDone (s : State) : State :=
  match s.sec.run with
  | none => s
  | some (c, path) =>
    if !(secWrites s).isEmpty then
      if (secWrites s).all (fun a => a.stage == .got) then
        secEnd (dropNeeds s secWho) (if (secWrites s).any (fun a => a.flt.isSome) then 7 else 0)
      else s
    else if c = 1 then
      let (bs, s) := s.freeBytes 8
      { secEnd s 0 with sec := { (secEnd s 0).sec with nonce := leNat bs, nonceOk := true } }
    else if c = 2 then
      if s.sec.st = 0 then secEnd s 6
      else if s.sec.noid then secEnd s 5
      else if s.sec.token.length = 1600 then loadToken s path s.sec.token
      else secRead s 1600 (fun t s => loadToken s path t)
    else if c = 3 then (if s.sec.st = 2 then secEnd (endService s) 0 else secEnd s 6)
    else if c = 4 then
      match s.sec.seed with
      | none => secEnd s (if s.sec.st = 0 then 6 else 5)
      | some seed =>
        if s.sec.st = 0 then secEnd s 6
        else secRead s 32 (fun ch s => secWrite s (report s seed ch))
    else if c = 5 then
      if s.sec.st = 0 then secEnd s 6 else secWrite s (flashAt s 0x13000 0x1000)
    else
      if s.sec.st ≠ 0 then secEnd s 6
      else
        let helper := (Config.pufEnrol s.nonce).take 0x2000
        let s := flashPut { s with nonce := s.nonce + 1 } 0x10000 helper
        let devid := match Config.pufSeed (flashAt s 0x10000 0x2000) with | some seed => devidOf seed | none => s.sec.devid
        { secEnd s 0 with sec := { (secEnd s 0).sec with devid } }

/-- SEC_NEW_NONCE: SEC_CMD 0x1. -/
def execSecNewNonce (s : State) : Host.Outcome State Fault Refusal := answer s true (whenOpen s Reg.SEC_CMD (secStart s 1 0))
/-- SEC_LEAVE_SERVICE: SEC_CMD 0x3. -/
def execSecLeaveService (s : State) : Host.Outcome State Fault Refusal := answer s true (whenOpen s Reg.SEC_CMD (secStart s 3 0))
/-- SEC_ATTEST: SEC_CMD 0x4. -/
def execSecAttest (s : State) : Host.Outcome State Fault Refusal := answer s true (whenOpen s Reg.SEC_CMD (secStart s 4 0))
/-- SEC_CERTIFICATE: SEC_CMD 0x5. -/
def execSecCertificate (s : State) : Host.Outcome State Fault Refusal := answer s true (whenOpen s Reg.SEC_CMD (secStart s 5 0))
/-- SEC_ENROL: SEC_CMD 0x6. -/
def execSecEnrol (s : State) : Host.Outcome State Fault Refusal := answer s true (whenOpen s Reg.SEC_CMD (secStart s 6 0))
/-- SEC_COMMAND_COMPLETE. -/
def execSecCommandComplete (s : State) : Host.Outcome State Fault Refusal := answer s true (secDone s)

/-- A write of SEC_TOKDATA appends 4 B; a full buffer takes no more. -/
def tokData (s : State) (v : Nat) : State :=
  if s.sec.token.length < 1600 then { s with sec := { s.sec with token := s.sec.token ++ leBytes 4 v } } else s

/-- SEC_TOKDATA. -/
def execSecTokdata (v : Nat) (s : State) : Host.Outcome State Fault Refusal := answer s true (whenOpen s Reg.SEC_TOKDATA (tokData s v))

/-- SERVICE_END: device time reaches SEC_SVCEND. -/
def execServiceEnd (s : State) : Host.Outcome State Fault Refusal := answer s true (if s.sec.st = 2 then endService s else s)

/-! ### The flash-programming service (R496, R510) -/

/-- Does the service write a flash address: an image slot or the identity certificate? -/
def fpMay (a : Nat) : Bool := decide (0x800000 ≤ a ∧ a < 0x8000000) || decide (0x13000 ≤ a ∧ a < 0x14000)

/-- SEC_FPADDR. -/
def fpAddr (s : State) : Nat := s.regN Reg.SEC_FPADDR % 2 ^ 27

/-- A write of SEC_FPDATA appends to the page buffer of 256 B. Log entry 33, PRESUMED. -/
def fpdataWrite (s : State) (v : Nat) : State :=
  if s.sec.st = 0 ∧ s.sec.page.length < 256 then { s with sec := { s.sec with page := s.sec.page ++ leBytes 4 v } } else s

/-- A read of SEC_FPDATA: the flash word at SEC_FPADDR, which then advances by 4. Outside Open the service does not run. -/
def fpdataRead (s : State) : Nat × State :=
  if s.sec.st = 0 then (leNat (flashAt s (fpAddr s) 4), s.setReg Reg.SEC_FPADDR ((fpAddr s + 4) % 2 ^ 27)) else (0, s)

/-- A write of SEC_FPCMD: 1 erases the sector, 2 programs the page; refused outside what the service writes and while an
operation runs. Log entry 33, PRESUMED. -/
def fpCmd (s : State) (c : Nat) : State :=
  if s.sec.st ≠ 0 ∨ (c ≠ 1 ∧ c ≠ 2) then s
  else if s.sec.flash.isSome || !fpMay (fpAddr s) then { s with sec := { s.sec with fpRefused := true } }
  else
    { s with sec := { s.sec with flash := some (c, fpAddr s, s.sec.page), fpErr := false, fpRefused := false,
                                 page := if c = 2 then [] else s.sec.page } }

/-- The range of an operation: the part of the 64 KiB sector that the service may write, or the 256 B page. Log entry 33, PRESUMED. -/
def fpRange (c a : Nat) : Nat × Nat :=
  if c = 1 then (if a < 0x800000 then (0x13000, 0x1000) else (a / 0x10000 * 0x10000, 0x10000)) else (a / 256 * 256, 256)

/-- FLASH_OPERATION_COMPLETE: an erased byte reads 0xFF; programming clears bits (log entry 33, PRESUMED). After a failure the bytes of
the range are free values. -/
def flashDone (s : State) (ok : Bool) : State :=
  match s.sec.flash with
  | none => s
  | some (c, a, page) =>
    let (o, n) := fpRange c a
    if ok then
      let old := flashAt s o n
      let new := if c = 1 then List.replicate n 0xFF else old.mapIdx (fun k x => x &&& page.getD k 0xFF)
      let s := flashPut s o new
      { s with sec := { s.sec with flash := none } }
    else
      let (bs, s) := s.freeBytes n
      let s := flashPut s o bs
      { s with sec := { s.sec with flash := none, fpErr := true } }

/-- SEC_FPDATA_WRITE. -/
def execSecFpdataWrite (v : Nat) (s : State) : Host.Outcome State Fault Refusal :=
  answer s true (whenOpen s Reg.SEC_FPDATA (fpdataWrite s v))
/-- SEC_FPDATA_READ. -/
def execSecFpdataRead (s : State) : Host.Outcome State Fault Refusal :=
  answer s true (whenOpen s Reg.SEC_FPDATA ((fpdataRead s).2.readOut (fpdataRead s).1))
/-- FLASH_ERASE. -/
def execFlashErase (s : State) : Host.Outcome State Fault Refusal := answer s true (whenOpen s Reg.SEC_FPCMD (fpCmd s 1))
/-- FLASH_PROGRAM. -/
def execFlashProgram (s : State) : Host.Outcome State Fault Refusal := answer s true (whenOpen s Reg.SEC_FPCMD (fpCmd s 2))
/-- FLASH_OPERATION_COMPLETE. -/
def execFlashOperationComplete (ok : Bool) (s : State) : Host.Outcome State Fault Refusal := answer s true (flashDone s ok)

/-! ### Debug (R500 to R504, R513) -/

/-- Why a level is refused: 0 granted, 1 security state, 2 power state, 3 path, 4 held by another path (Table 16-15). Log entry 81, DEDUCED. -/
def dbgRefusal (s : State) (path lvl : Nat) : Nat :=
  let held := s.dbg.level != 0 && s.dbg.path != path
  if lvl = 0 then (if held then 4 else 0)
  else if s.sec.st = 0 then (if path = 3 then (if held then 4 else 0) else 3)
  else if lvl = 2 ∧ (s.sec.st ≠ 2 ∨ s.sec.sessLevel ≠ 2) then 1
  else if lvl = 2 ∧ s.pwr.st = 3 then 2
  else if lvl = 2 ∧ (path = 1 ∨ path ≠ s.sec.sessPath) then 3
  else if held then 4 else 0

/-- A write of DBG_REQ. Log entry 81, DEDUCED. -/
def dbgReq (s : State) (path v : Nat) : State :=
  let lvl := v % 4
  if lvl = 3 then s
  else
    let r := dbgRefusal s path lvl
    let s := { s with dbg := { s.dbg with lastRes := r } }
    if r ≠ 0 then s
    else if lvl = 0 then dbgClose s
    else
      { s with dbg := { s.dbg with level := lvl, path }
               sec := if lvl = 2 then { s.sec with intruded := true } else s.sec }

/-- May a path halt and step panes: Intrude, in P0 or P1 (Table 16-9)? -/
def mayHalt (s : State) (path : Nat) : Bool := holdsLevel s path 2 && decide (s.pwr.st ≤ 1) && s.boot.ready

/-- A write of DBG_HALT: 1 halt, 2 resume, 3 step; none has an effect on a pane that runs no task of a queue. -/
def dbgHalt (s : State) (path pn act : Nat) : State :=
  if !mayHalt s path then s
  else
    match s.instOf pn with
    | none => s
    | some i =>
      if (s.pane i).task.isNone || (s.pane i).ctx == 0 then s
      else if act = 1 then s.modPane i (fun p => { p with halted := true })
      else if act = 2 then s.modPane i (fun p => { p with halted := false, stepping := false })
      else if act = 3 then s.modPane i (fun p => if p.halted then { p with stepping := true } else p)
      else s

/-- DBG_MADDR. -/
def maddr (s : State) : Nat := s.reg64 Reg.DBG_MADDR_LO Reg.DBG_MADDR_HI
/-- DBG_MADDR advances by 4. -/
def maddrNext (s : State) : State := s.setReg64 Reg.DBG_MADDR_LO Reg.DBG_MADDR_HI ((maddr s + 4) % 2 ^ 52)

/-- Who makes the Intrude accesses. -/
def dbgWho : Who := .ctl .intrude

/-- A read of DBG_MDATA: a system read (R503); below Intrude, and over another path, it reads 0 (R549). Bytes that the memory
does not deliver are free values. None: the line has not come yet. Log entry 82, DESIGN CHOICE. -/
def mdataRead (s : State) (path : Nat) : Option Nat × State :=
  if !holdsLevel s path 2 then (some 0, s)
  else
    let s := { s with accs := s.accs.filter (fun a => !(a.purpose == .fetch dbgWho && a.va / 64 != localPa (maddr s) / 64)) }
    match runMc (sysRead dbgWho (maddr s) 4) s with
    | (.ok bs, s) => (some (leNat bs), maddrNext (dropNeeds s dbgWho))
    | (.error (.need ns), _) => (none, postNeeds s ns)
    | (.error .wait, _) => (none, s)
    | (.error _, s) =>
      let (bs, s) := (dropNeeds s dbgWho).freeBytes 4
      (some (leNat bs), maddrNext s)

/-- A write of DBG_MDATA: a system write, logged with its address and value. -/
def mdataWrite (s : State) (path v : Nat) : State :=
  if !holdsLevel s path 2 then s
  else
    let t := sysPost s dbgWho (maddr s) (leBytes 4 v)
    maddrNext (if outOfMap s (localPa (maddr s)) then t else logE t 0x14 8 0 (maddr s) 0 v)

/-- The bytes of a trace record (R504). -/
def traceBytes (r : List Nat) : List Byte :=
  leBytes 8 (r.getD 0 0) ++ leBytes 1 (r.getD 1 0) ++ leBytes 1 (r.getD 2 0) ++ leBytes 1 (r.getD 3 0) ++ leBytes 1 0 ++ leBytes 4 (r.getD 4 0)

/-- A read of DBG_TRCDATA: the selected word; the word then advances. -/
def trcdataRead (s : State) : Nat × State :=
  let v := s.regN Reg.DBG_TRCSEL
  let w := match (s.bay (v % 16)).trace[bits v 13 4]? with
    | some r => field (traceBytes r) (4 * bits v 15 14) 4
    | none => 0
  (w, s.setField Reg.DBG_TRCSEL 15 14 (bits v 15 14 + 1))

/-- EXTEST (R501): accepted at Intrude over the test port, in Open or Service, in P4; it drives the status pins but not
READY_OUT. -/
def execExtest (drive : Nat) (s : State) : Host.Outcome State Fault Refusal :=
  answer s true (if holdsLevel s 3 2 && s.sec.st != 1 && s.pwr.st == 4 then { s with dbg := { s.dbg with extest := some drive } } else s)

/-! ### Power (R505 to R507, Tables 16-5 to 16-7) -/

/-- The state a transition reaches next on its way to a target. -/
def nextPower (st target : Nat) : Nat :=
  if 4 ≤ target ∨ st = 4 then target else if st < target then st + 1 else st - 1

/-- What a transition does as it starts: leaving P4 lets bring-up go on from step 4; entry to P3 snoops every Owned line. Log entry 109, DEDUCED. -/
def powerBegins (s : State) : State :=
  let n := nextPower s.pwr.st s.pwr.target
  if s.pwr.st = 4 ∧ n < 2 then { s with boot := { s.boot with hold := false } }
  else if n = 3 then
    (List.range 16).foldl (fun s b => ((s.bay b).dir.filter (·.owned)).foldl (fun s d => sendSnoop s b d.line) s) s
  else s

/-- Take a request from the state reached: refused outside 0 to 5, in Open but for P5, and from P4 to P2 or P3. Log entry 109, DEDUCED. -/
def takePower (s : State) (t : Nat) : State :=
  if 5 < t ∨ (s.sec.st = 0 ∧ t ≠ 5) ∨ (s.pwr.st = 4 ∧ (t = 2 ∨ t = 3)) then
    { s with pwr := { s.pwr with refused := true, moving := false } }
  else
    let s := { s with pwr := { s.pwr with refused := false, target := t, moving := t != s.pwr.st } }
    if t = s.pwr.st then s else powerBegins s

/-- A write of PWR_REQ: held while a transition runs. -/
def pwrReq (s : State) (v : Nat) : State :=
  if s.pwr.moving then { s with pwr := { s.pwr with heldReq := some (v % 8) } } else takePower s (v % 8)

/-- PWR_REQ. -/
def execPwrReq (v : Nat) (s : State) : Host.Outcome State Fault Refusal := answer s true (whenOpen s Reg.PWR_REQ (settle (pwrReq s v)))

/-- May the transition end: panes paused for P2; for P3 no Owned line, no shutter, no evacuation; READY on leaving P4? Log entry 109, DEDUCED. -/
def powerMayEnd (s : State) (n : Nat) : Bool :=
  if s.pwr.st = 4 ∧ n < 2 then s.boot.ready
  else if n = 2 ∧ s.pwr.st < 2 then
    (List.range 144).all (fun i => [1, 2, 3, 5, 6, 7].all (fun e => runningOf (s.pane i).seq e == 0 && !reading s i e)
      && (s.pane i).seq.streams.all (fun e => e.2.blocks.all (fun x => !x.writing)) && !(s.accs.any (fun a => a.purpose == .line i)))
  else if n = 3 then
    (List.range 16).all (fun b => (s.bay b).dir.all (fun d => !d.owned) && (s.bay b).mem.shut.isNone
      && (s.bay b).mem.evac.isNone)
  else true

/-- Entry to P2 from P1: the panes are gated; halts are released and the trace is cleared (R504, Table 16-9). Log entry 81, DEDUCED. -/
def enterP2 (s : State) : State :=
  let s := (List.range 144).foldl (fun s i =>
    if (s.pane i).task.isSome then (stopStreams s i).modPane i (fun p => { p with halted := false, stepping := false }) else s) s
  (List.range 16).foldl (fun s b => s.modBay b (fun x => { x with trace := [], traceStopped := false })) s

/-- Panes resume on the way out of P2: a wait that ended badly meanwhile faults its task (R509). Log entry 85, DEDUCED. -/
def leaveP2 (s : State) : State :=
  let s := (List.range 144).foldl (fun s i =>
    if (s.pane i).task.isSome && (s.pane i).sw.isNone && (s.pane i).seq.waits.any (fun w => decide (3 ≤ w.status)) then resumeWaits s i else s) s
  let ts := s.tasks.filter (fun t => t.st == .waiting)
  ts.foldl (fun s t => match (t.saved.getD {}).waits.find? (fun w => decide (3 ≤ w.status)) with
    | some w => taskFault s t.id (waitCode w.status) { tag := w.tag }
    | none => s) s

/-- POWER_TRANSITION_DONE: the next state of the chain is reached; a held request is taken from it. Log entry 109, DEDUCED. -/
def powerDone (s : State) : State :=
  let n := nextPower s.pwr.st s.pwr.target
  if !s.pwr.moving || !powerMayEnd s n then s
  else if n = 4 then restartDevice s false true
  else if n = 5 then enterP5 s
  else
    let was := s.pwr.st
    let s := { s with pwr := { s.pwr with st := n, moving := n != s.pwr.target } }
    let s := if n = 2 ∧ was < 2 then enterP2 s else if n = 1 ∧ was = 2 then leaveP2 s
      else if n = 3 ∧ s.dbg.level = 2 then dbgClose s else s
    let s := if n < 2 then requestClocks s else s
    match s.pwr.heldReq with
    | some t => takePower { s with pwr := { s.pwr with heldReq := none } } t
    | none => if s.pwr.moving then powerBegins s else s

/-- POWER_TRANSITION_DONE. -/
def execPowerTransitionDone (s : State) : Host.Outcome State Fault Refusal := answer s true (settle (powerDone s))

/-- Register of PWR_TJ0 to PWR_TJ3 that shows a bay. -/
def tjReg (b : Nat) : Nat := Reg.PWR_TJ0 + 4 * (b / 4)

/-- JUNCTION_SENSOR_READ: the actions of Table 16-7 on a bay's hottest junction. Log entry 84, DEDUCED. -/
def junction (s : State) (b temp : Nat) : State :=
  if !s.baysOn || s.pwr.st == 5 then s
  else if 110 ≤ temp then thermalTrip s
  else
    let s := s.setField (tjReg b) (8 * (b % 4) + 7) (8 * (b % 4)) temp
    let x := s.bay b
    let hot := decide (100 ≤ temp) || (x.jctHot && decide (97 ≤ temp))
    let want := min x.clkPwr x.mem.clkLimit
    let due := fun (n : Nat) => decide (x.jctStep + n ≤ s.devTime)
    let x' := { x with jctHot := hot }
    let x' := if hot && (!x.jctHot || due 100000) then { x' with clkJct := min x.clkJct want - 1, jctStep := s.devTime }
      else if !hot && decide (x.clkJct < 7) && due 1000000 then
        { x' with clkJct := if want ≤ x.clkJct + 1 then 7 else x.clkJct + 1, jctStep := s.devTime }
      else x'
    let s := s.modBay b (fun _ => x')
    if hot && !x.jctHot then logE s 0x12 2 b 0 0 1 else s

/-- JUNCTION_SENSOR_READ. -/
def execJunctionSensorRead (b temp : Nat) (s : State) : Host.Outcome State Fault Refusal := answer s (okBay b) (junction s b temp)

end Sys2Proof.Machine
end

