-- ==== Sys2Proof/Machine/Reliab.lean ====
section
/-! DEFINITION. Self-tests and their verdicts, pane replacement, domain resets' ends and live firmware updates (R517 to
R535). Fault domains are keyed dkind * 256 + instance. -/

namespace Sys2Proof.Machine

open Sys2Proof

/-- Does the package have a fault domain (Table 17-1)? Log entry 90, DESIGN CHOICE. -/
def okDom (k : Nat) : Bool :=
  decide (k % 256 < [0, 144, 16, 16, 4, 34, 8, 2, 1].getD (k / 256) 0)

/-! ### Recoveries -/

/-- The current recovery enters a phase. -/
def setPhase (s : State) (k ph : Nat) : State :=
  match (s.dom k).cur with
  | some r => s.setDom k { s.dom k with cur := some { r with phase := ph } }
  | none => s

/-- The recovery of a pane instance that calls for its replacement ends. -/
def endPaneRecovery (s : State) (i : Nat) : State :=
  match (s.dom (256 + i)).cur with
  | some r => if r.phase = 2 then endRecovery s (256 + i) else s
  | none => s

/-- A pane is taken out of dispatch, and its task is switched out under Table 2-8. -/
def vacatePane (s : State) (i : Nat) : State :=
  let s := s.modPane i (fun p => { p with offDispatch := true })
  if (s.pane i).task.isSome && (s.pane i).sw.isNone then beginSwitch s i .ready none else s

/-- Does a pane hold no task? -/
def paneEmpty (s : State) (i : Nat) : Bool := (s.pane i).task.isNone && (s.pane i).sw.isNone

/-- A pane that passed its test serves again: a numbered one in Run, a spare in Test. -/
def returnPane (s : State) (i : Nat) : State :=
  s.modPane i (fun p => { p with offDispatch := false, mode := if p.number.isSome then 0 else 2 })

/-! ### Spare panes (R532, R533) -/

/-- The pane number goes out of service. -/
def outOfService (s : State) (r : Replace) : State :=
  let s := s.modPane r.old (fun p => { p with out := true })
  let s := logE s 0x0E 1 r.old r.number 0 0xFF
  endPaneRecovery { s with rel := { s.rel with repl := s.rel.repl.erase r } } r.old

/-- The instance that is the bay's spare, while it holds no number and has not failed. Log entry 88, DEDUCED. -/
def spareOf (s : State) (b : Nat) : Option Nat :=
  let i := b * 9 + 8
  if (s.pane i).number.isNone && !(s.pane i).offDispatch then some i else none

/-- Steps 1 to 3 of Table 17-9: the number leaves dispatch, its task is switched out, and the spare is to be tested; with
no spare left the number goes out of service. -/
def beginReplace (s : State) (r : Replace) : State :=
  let s := vacatePane s r.old
  match spareOf s r.bay with
  | none => outOfService s r
  | some i => strike s (.pane i) r.number 2 false

/-- A pane instance is to be replaced: at once, or when the bay's replacement that runs has ended (Table 17-10). -/
def askReplace (s : State) (i : Nat) : State :=
  match (s.pane i).number with
  | none => endPaneRecovery (s.modPane i (fun p => { p with offDispatch := true })) i
  | some n =>
    let r : Replace := { bay := i / 9, number := n, old := i, step := 1 }
    let busy := s.rel.repl.any (fun x => x.bay == r.bay)
    let s : State := { s with rel := { s.rel with repl := s.rel.repl ++ [r] } }
    if busy then vacatePane s i else beginReplace s r

/-- Step 4: what is resident on the old instance, and its sequencer state, as the spare holds them: a word that fails its
check is zero, is logged, and its context's next task on the number faults. -/
def copyPane (s : State) (old spare : Nat) : State :=
  let p := s.pane old
  let badS := ((p.spErr.filter (fun e => (eccRead e.2).isNone)).map (·.1))
  let badA := ((p.accErr.filter (fun e => (eccRead e.2).isNone)).map (·.1))
  let hit := (badS.map (fun w => (w, regOwner p (w / 0x10000))) ++ badA.map (fun w => (w, tileOwner p (w / 0x4000)))).filter
    (fun x => x.2 != 0xFFFF)
  let s := hit.foldl (fun s x => logE s 0x04 1 old x.1 (detail 0xE2 x.2)) s
  let sp := (healWords (badS.foldl (fun t w => tdrop t w (w + 4)) p.sp) p.spErr (p.spErr.map (·.1))).1
  let acc := (healWords (badA.foldl (fun t w => tdrop t w (w + 4)) p.acc) p.accErr (p.accErr.map (·.1))).1
  s.setPane spare { Pane.reset spare with
    number := none, mode := 2, seq := p.seq, sp, acc, tiles := p.tiles, longTiles := p.longTiles, regOwn := p.regOwn,
                    tileOwn := p.tileOwn, bases := p.bases, savedFlags := p.savedFlags, poison := (p.poison ++ hit.map (·.2)).eraseDups }

/-- Steps 4 to 6: the spare takes the number and enters Run, and the service record names the instance it replaces. -/
def finishReplace (s : State) (r : Replace) (spare : Nat) : State :=
  let s := copyPane s r.old spare
  let s := s.setPane r.old { Pane.reset r.old with number := none, mode := 2, offDispatch := true }
  let s := s.modPane spare (fun p => { p with number := some r.number, mode := 0 })
  let s := logE s 0x0E 1 spare r.number 0 (spare % 9)
  let s : State := { s with
    rel := { s.rel with repl := s.rel.repl.erase r }
    boot := { s.boot with service := (List.range 16).map (fun b => if b = r.bay then r.old % 9 else s.boot.service.getD b 255) } }
  endPaneRecovery (writeService s) r.old

/-- The spare's self-test has ended: the replacement goes on or fails, and the bay's next one follows. -/
def spareVerdict (s : State) (spare : Nat) (lasting : Bool) : State :=
  match s.rel.repl.find? (fun r => r.bay == spare / 9) with
  | none => s
  | some r =>
    let s := if lasting then outOfService (s.modPane spare (fun p => { p with offDispatch := true })) r else finishReplace s r spare
    match s.rel.repl.find? (fun r => r.bay == spare / 9) with
    | some r' => beginReplace s r'
    | none => s

/-! ### TARGETED_SELF_TEST (R520, R521) -/

/-- The self-test of a domain's current recovery starts once its target can be held out of service; the recovery of a
resource that serves no more just ends. Log entry 88, DEDUCED. -/
def selfTest (s : State) (k : Nat) : State :=
  let d := s.dom k
  match d.cur with
  | none => s
  | some r =>
    if r.phase ≠ 0 ∨ d.resetting then s
    else match r.target with
    | .dramRow b ch _ | .dramLane b ch =>
      let s' := askShutter s b ch 3
      if (s'.bay b).mem.shutQ.contains (ch, 3) then s' else endRecovery s k
    | .spBank _ _ => testStarts s k
    | .wire _ _ => testStarts s k
    | .optLane p lane => if (s.port p).lanes.contains lane then s else testStarts s k
    | .pane i =>
      if r.why = 4 then askReplace (setPhase s k 2) i
      else if r.why = 2 then
        match s.rel.repl.find? (fun x => x.bay == i / 9) with
        | some x => if paneEmpty s x.old then testStarts s k else vacatePane s x.old
        | none => endRecovery s k
      else if paneEmpty s i then testStarts (s.modPane i (fun p => { p with offDispatch := true, mode := 2 })) k
      else vacatePane s i
    | .other _ _ => endRecovery s k

/-- TARGETED_SELF_TEST of the current recovery of domain `k`. -/
def execTargetedSelfTest (k : Nat) (s : State) : Host.Outcome State Fault Refusal := answer s (okDom k) (settle (selfTest s k))

/-! ### SELF_TEST_VERDICT (R522) -/

/-- The words of a row that can be read are restored with valid check bits (Table 17-3). Log entry 89, DEDUCED. -/
def restoreRow (s : State) (b ch row : Nat) : State :=
  let ws := (s.dramErr.filter (fun e => match servedAt s e.1 with
    | some (st, c, off) => st == b && c == ch && rowOf off == row | none => false)).map (·.1)
  let (d, e) := healWords s.dram s.dramErr ws
  { s with dram := d, dramErr := e }

/-- The tested group of a scratchpad bank is restored: 32 words of 64 bytes around the failing word. Log entry 89, DEDUCED. -/
def restoreBank (s : State) (i bank addr : Nat) : State :=
  s.modPane i (fun p =>
    let ws := (p.spErr.filter (fun e => e.1 / 64 % 32 == bank && e.1 / 65536 == addr / 65536)).map (·.1)
    let (sp, spErr) := healWords p.sp p.spErr ws
    { p with sp, spErr })

/-- Spare wires left of a wire group. -/
def sparesLeft (s : State) (l g : Nat) : Nat := tget 2 s.rel.wires (l * 256 + g)

/-- A lasting verdict on a wire group: a spare wire serves, or the link fails (R534). -/
def wireFails (s : State) (l g : Nat) : State :=
  let n := sparesLeft s l g
  if n = 0 then
    logE { s with rel := { s.rel with failedLinks := s.rel.failedLinks ++ [(l, g)] } } 0x0D 4 l (Target.wire l g).addr 0 0
  else
    logE { s with rel := { s.rel with wires := tset 2 s.rel.wires (l * 256 + g) (n - 1) } } 0x0D 4 l (Target.wire l g).addr 0 (n - 1)

/-- What a lasting verdict calls for. -/
def lastingVerdict (s : State) (k : Nat) (r : Recovery) (repairable : Bool) : State :=
  match r.target with
  | .dramRow b ch row =>
    let s := rowFails s b ch row
    if (s.bay b).mem.remapDue.isSome && !(s.bay b).mem.shutQ.contains (ch, 2) then
      endRecovery (s.modMem b (fun m => { m with remapDue := none })) k
    else s
  | .dramLane b ch =>
    if repairable then
      let s' := askShutter s b ch 1
      if (s'.bay b).mem.shutQ.contains (ch, 1) then s' else endRecovery s k
    else endRecovery (channelGone s b ch) k
  | .spBank i _ => askReplace s i
  | .pane i =>
    if r.why = 2 then spareVerdict (endRecovery s k) i true else askReplace s i
  | .optLane p lane =>
    endRecovery (s.modPort p (fun x => { x with
      bad := if bit x.bad lane then x.bad else x.bad + 2 ^ lane
      good := if bit x.good lane then x.good - 2 ^ lane else x.good
      spares := x.spares.erase lane })) k
  | .wire l g => endRecovery (wireFails s l g) k
  | .other _ _ => endRecovery s k

/-- What a transient verdict leaves: the target serves again. -/
def transientVerdict (s : State) (k : Nat) (r : Recovery) : State :=
  let s := endRecovery s k
  match r.target with
  | .pane i => if r.why = 2 then spareVerdict s i false else returnPane s i
  | .optLane p lane =>
    s.modPort p (fun x => if x.lanes.contains lane || x.spares.contains lane then x else { x with spares := x.spares ++ [lane] })
  | _ => s

/-- The running self-test of a domain ends: the verdict is logged and has its consequences. Log entry 15, DESIGN CHOICE. -/
def verdict (s : State) (k : Nat) (lasting repairable : Bool) : State :=
  match (s.dom k).cur with
  | none => s
  | some r =>
    if r.phase ≠ 1 then s
    else
      let s := logEvt s 0x09 (if lasting then 2 else 1) (k / 256) (k % 256) r.target.addr 0 (s.devTime - r.start)
      let s := match r.target with
        | .dramRow b ch row => restoreRow s b ch row
        | .spBank i bank => restoreBank s i bank r.addr
        | _ => s
      if lasting then lastingVerdict (setPhase s k 2) k r repairable else transientVerdict s k r

/-- SELF_TEST_VERDICT of domain `k`; `repairable`: the memory channel has a spare data lane left. -/
def execSelfTestVerdict (k : Nat) (lasting repairable : Bool) (s : State) : Host.Outcome State Fault Refusal :=
  answer s (okDom k) (settle (verdict s k lasting repairable))

/-! ### DOMAIN_RESET_DONE (R524, Table 17-4) -/

/-- A domain's reset ends: it serves again, and the oldest self-test that waits becomes current. -/
def resetDone (s : State) (k : Nat) : State :=
  if !(s.dom k).resetting then s
  else
    let dk := k / 256
    let n := k % 256
    let s := endRecovery (s.setDom k { s.dom k with resetting := false }) k
    if dk = 1 then
      if (s.pane n).out || s.rel.repl.any (fun r => r.old == n) || (s.pane n).number.isNone then s else returnPane s n
    else if dk = 3 then s.modMem n (fun m => { m with ready := true, resetting := false, trainFails := [] })
    else if dk = 5 then portEnable s n
    else if dk = 6 ∨ dk = 7 then (domChildren k).foldl (fun s c => portEnable s (c % 256)) s
    else s

/-- DOMAIN_RESET_DONE. -/
def execDomainResetDone (dkind inst : Nat) (s : State) : Host.Outcome State Fault Refusal :=
  answer s (decide (inst < 256) && okDom (dkind * 256 + inst)) (settle (resetDone s (dkind * 256 + inst)))

/-! ### CTL_PANESVC (R529, R539) -/

/-- CTL_PANESVC 0b01. -/
def panesvcTest (s : State) (n : Nat) : State :=
  match s.instOf n with
  | some i => if (s.pane i).out then s else strike s (.pane i) n 1 false
  | none => s

/-- CTL_PANESVC 0b10: a recovery of the pane's domain whose work is the replacement. Log entry 88, DEDUCED. -/
def panesvcReplace (s : State) (n : Nat) : State :=
  match s.instOf n with
  | none => s
  | some i =>
    if (s.pane i).out then s
    else
      let s := strike s (.pane i) n 4 false
      match (s.dom (256 + i)).cur with
      | some r => if r.target = .pane i ∧ r.why = 4 ∧ r.phase = 0 then askReplace (setPhase s (256 + i) 2) i else s
      | none => s

/-- PANESVC_SELF_TEST. -/
def execPanesvcSelfTest (n : Nat) (s : State) : Host.Outcome State Fault Refusal :=
  answer s (decide (n < 128)) (whenOpen s Reg.CTL_PANESVC (settle (panesvcTest s n)))
/-- PANESVC_REPLACE. -/
def execPanesvcReplace (n : Nat) (s : State) : Host.Outcome State Fault Refusal :=
  answer s (decide (n < 128)) (whenOpen s Reg.CTL_PANESVC (settle (panesvcReplace s n)))

/-! ### Firmware update (R530, R531, Table 17-8) -/

/-- An update enters a state of Table 17-8. -/
def updTo (s : State) (st : Nat) : State := { s with rel := { s.rel with upd := st } }
/-- An update ends with a result. -/
def updEnd (s : State) (res : Nat) : State :=
  let s := dropNeeds s (.ctl .update)
  { s with rel := { s.rel with upd := 0, updRes := res, updImg := [] } }

/-- CTL_UPDCMD start. -/
def updStart (s : State) : State :=
  if s.rel.upd ≠ 0 then { s with rel := { s.rel with updRes := 7 } }
  else if s.sec.st = 0 then updEnd s 6
  else { s with rel := { s.rel with upd := 1, updPort := 0, updBegun := false, updImg := [] } }

/-- The slot that is not active. -/
def updSlot (s : State) : Nat := 1 - s.boot.active

/-- Program the first `n` bytes of an erased slot. -/
def programSlot (s : State) (n : Nat) : State :=
  let a := slotBase (updSlot s)
  flashPut { s with flash := s.flash.filter (fun c => !(decide (a ≤ c.1 ∧ c.1 < a + 0x3C00000))) } a (s.rel.updImg.take n)

/-- CTL_UPDCMD abort, in Verify or Write: the inactive slot may be partly written. Log entry 91, DEDUCED. -/
def updAbort (s : State) : State :=
  if s.rel.upd = 1 then updEnd s 5
  else if s.rel.upd = 2 then
    let (n, s) := s.pick (s.rel.updImg.length + 1)
    updEnd (programSlot s n) 5
  else s

/-- CTL_UPDADDR. -/
def updAddr (s : State) : Nat := s.reg64 Reg.CTL_UPDADDR_LO Reg.CTL_UPDADDR_HI

/-- The image at CTL_UPDADDR: its header first, then LENGTH bytes; a LENGTH that fits no slot reads the header alone. -/
def readImage (a : Nat) : Mc (List Byte) := do
  let h ← sysRead (.ctl .update) a 32
  let n := field h 16 4
  if 0x3C00000 < n then pure h else sysRead (.ctl .update) a n

/-- UPDATE_VERIFY_DONE: the image's checks (R475, R497) end. Log entry 91, DEDUCED. -/
def updVerify (s : State) : State :=
  if s.rel.upd ≠ 1 then s
  else
    match runMc (readImage (updAddr s)) s with
    | (.error (.need ns), _) => postNeeds s ns
    | (.error .wait, _) => s
    | (.error _, s) => updEnd s 2
    | (.ok img, s) =>
      let s := dropNeeds s (.ctl .update)
      let v := imgVerdict (fun o n => (img.drop o).take n) (floorOf s)
      if v ≠ 0 then updEnd s v else { s with rel := { s.rel with upd := 2, updImg := img } }

/-- UPDATE_WRITE_DONE: the slot reads back equal to the image, or a flash error ends the update with the slot partly written
and the page at the error free. Log entry 91, DEDUCED. -/
def updWrite (s : State) (ok : Bool) : State :=
  if s.rel.upd ≠ 2 then s
  else if ok then updTo (programSlot s s.rel.updImg.length) 3
  else
    let (n, s) := s.pick (s.rel.updImg.length + 1)
    let (bs, s) := s.freeBytes 256
    updEnd (flashPut (programSlot s (n / 256 * 256)) (slotBase (updSlot s) + n / 256 * 256) bs) 4

/-- The new control firmware takes over, once no commit is pending. -/
def updTakeOver (s : State) : State :=
  let fw := imgFw (fun o n => (s.rel.updImg.drop o).take n)
  let s := logE s 0x11 8 0 1 0 (fw.getD 0 0)
  let s : State := { s with
    rel := { s.rel with upd := 4, updPort := 0, updBegun := false }
    boot := { s.boot with fw := s.boot.fw.set 0 (fw.getD 0 0) }
    sec := { s.sec with updated := true } }
  updShutter s

/-- LINK_FIRMWARE_PORT_DONE: a port runs its new firmware; after the last one the directory names the new slot. Log entry 91, DEDUCED. -/
def updPortDone (s : State) : State :=
  if s.rel.upd ≠ 4 ∨ !s.rel.updBegun then s
  else
    let n := s.rel.updPort + 1
    let fw := imgFw (fun o n => (s.rel.updImg.drop o).take n)
    let s := if n = 32 then { s with boot := { s.boot with fw := s.boot.fw.set 1 (fw.getD 1 0) } }
      else if n = 34 then { s with boot := { s.boot with fw := s.boot.fw.set 2 (fw.getD 2 0) } } else s
    let s : State := { s with rel := { s.rel with updPort := n, updBegun := false } }
    if n = 34 then
      let k := updSlot s
      let s := writeDirectory s k
      updEnd { s with boot := { s.boot with active := k } } 0
    else updShutter s

/-- UPDATE_START. -/
def execUpdateStart (s : State) : Host.Outcome State Fault Refusal := answer s true (whenOpen s Reg.CTL_UPDCMD (updStart s))
/-- UPDATE_ABORT. -/
def execUpdateAbort (s : State) : Host.Outcome State Fault Refusal := answer s true (whenOpen s Reg.CTL_UPDCMD (updAbort s))
/-- UPDATE_VERIFY_DONE. -/
def execUpdateVerifyDone (s : State) : Host.Outcome State Fault Refusal := answer s true (settle (updVerify s))
/-- UPDATE_WRITE_DONE. -/
def execUpdateWriteDone (ok : Bool) (s : State) : Host.Outcome State Fault Refusal := answer s true (updWrite s ok)
/-- LINK_FIRMWARE_PORT_DONE. -/
def execLinkFirmwarePortDone (s : State) : Host.Outcome State Fault Refusal := answer s true (settle (updPortDone s))

end Sys2Proof.Machine
end

