-- ==== Sys2Proof/Machine/CtxReset.lean ====
section
/-! DEFINITION. Context reset (R372, R70, R276, R378, Table 10-8). -/

namespace Sys2Proof.Machine

open Sys2Proof

/-- The streams of a pane are discarded without further access (R276, Table 8-6). -/
def discardStreams (s : State) (i : Nat) : State :=
  { s with accs := s.accs.filter (fun a => match a.purpose with | .se j _ _ _ => j != i | _ => true) }

/-- Steps 1 and 2: the tasks of the context leave in every state, panes that run one stop at once with their streams
discarded, and the context's regions and tiles are released. A task-fault record not yet on its way to its ring is not posted. Log entry 49, DEDUCED. -/
def removeTasks (s : State) (ctx : Nat) : State :=
  let ids := (s.tasks.filter (fun t => t.ctx == ctx)).map (·.id)
  let gone := fun (o : Option Nat) => match o with | some t => if ids.contains t then none else some t | none => none
  let s := (List.range 144).foldl (fun s i =>
    let p := s.pane i
    let s := if (gone p.task).isNone && p.task.isSome then
        (idlePane (discardStreams s i) i false).modPane i (fun p => { p with seq := {} })
      else s
    let s := if p.sw.isSome then
        s.modPane i (fun p => { p with sw := p.sw.map (fun w => { w with outTask := gone w.outTask, inTask := gone w.inTask }) })
      else s
    releaseCtx s i ctx) s
  let s := (List.range 16).foldl (fun s b =>
    let n := b2n (ringBusy s 0 b)
    s.modBay b (fun x => { x with tfHeld := x.tfHeld.take n ++ (x.tfHeld.drop n).filter (fun r => r.task.all (fun t => !ids.contains t)) })) s
  ids.foldl (fun s t => freeEntry (dropFqWaits (dropWaits s t) t) t) s

/-- Steps 3 and 4: the context's objects break, and its waiter records leave their objects; a take behind a removed one is
served at once if its threshold is met. -/
def breakOwned (s : State) (ctx : Nat) : State :=
  let objs := (s.syn.filter (fun e => e.2.st == 1 && e.2.owner == ctx)).map (·.1)
  let s := objs.foldl (fun s o => retryStalled (breakObj s o) (o / 4096)) s
  (List.range 16).foldl (fun s b =>
    let ws := ((s.bay b).waiters ++ (s.bay b).stalledWaits).filter (fun w => w.ctx == ctx)
    if ws.isEmpty then s
    else
      let s := s.modBay b (fun x => { x with waiters := x.waiters.filter (fun w => w.ctx != ctx),
                                             stalledWaits := x.stalledWaits.filter (fun w => w.ctx != ctx) })
      retryStalled (((ws.map (·.obj)).eraseDups).foldl settleObj s) b) s

/-- Step 5: pending fault-queue entries of the context become free without a notice; a migration goes on with no waiter. Log entry 49, DEDUCED. -/
def freeFaults (s : State) (ctx : Nat) : State :=
  let s := { s with gx := { s.gx with stalls := s.gx.stalls.filter (fun l => l.getD 2 0 != ctx) } }
  retryStalls ((s.gx.fq).foldl (fun s e => match e.2 with
    | some x =>
      if x.ctx ≠ ctx then s
      else
        let y := { x with panes := [], bays := [], tasks := [] }
        let s := setFq { s with accs := s.accs.filter (fun a => !heldFor x a) } e.1 (some y)
        if x.st = 1 then freeWhenTold s e.1 y none else s
    | none => s) s)

/-- What a table engine keeps for a context goes: its staged rows. Log entry 49, DEDUCED. -/
def dropStaged (s : State) (ctx : Nat) : State :=
  (List.range 16).foldl (fun s b => s.modTe b (fun x => { x with staged := x.staged.filter (fun e => e.1 / 2 ^ 33 != ctx) })) s

/-- A context reset runs. Log entry 49, DEDUCED. -/
def ctxResetRun (s : State) (ctx : Nat) : State :=
  let s := freeFaults (breakOwned (removeTasks s ctx) ctx) ctx
  let s := dropStaged s ctx
  { s with ctxReset := some ctx, ctxDead := if s.ctxDead.contains ctx then s.ctxDead else s.ctxDead ++ [ctx] }

/-- A write of DSP_CTXRESET: 0x0000 and 0xFFFF are ignored; while a reset runs the write is held. -/
def ctxResetWrite (s : State) (v : Nat) : State :=
  let ctx := v % 65536
  if ctx = 0 ∨ ctx = 0xFFFF then s
  else if s.ctxReset.isSome then { s with ctxResetQ := s.ctxResetQ ++ [ctx] }
  else ctxResetRun s ctx

/-- The running reset ends, and the oldest one held starts. -/
def ctxResetDone (s : State) : State :=
  match s.ctxReset with
  | none => s
  | some _ =>
    match s.ctxResetQ with
    | [] => { s with ctxReset := none }
    | c :: q => ctxResetRun { s with ctxReset := none, ctxResetQ := q } c

/-- CONTEXT_RESET: a write of `v` to DSP_CTXRESET of a bay. -/
def execContextReset (b v : Nat) (s : State) : Host.Outcome State Fault Refusal :=
  answer s (okBay b) (whenOpen s (Reg.DSP_CTXRESET b) (settle (ctxResetWrite s v)))

/-- CONTEXT_RESET_DONE. -/
def execContextResetDone (s : State) : Host.Outcome State Fault Refusal := answer s true (settle (ctxResetDone s))

end Sys2Proof.Machine
end

