-- ==== Sys2Proof/Machine/Views.lean ====
section
/-! DEFINITION. What every register of the management window reads as (R551 and the register rules of the chapters). A view
has no side effect; registers that no view computes read their stored value, write-only ones 0. -/

namespace Sys2Proof.Machine

open Sys2Proof

/-- The bits of a list of flags, the first at bit 0. -/
def packBits (bs : List Bool) : Nat := bs.foldr (fun b n => b2n b + 2 * n) 0

/-- A word with the bits of a list of positions set. -/
def maskOf (ks : List Nat) : Nat := ks.foldl (fun a k => if bit a k then a else a + 2 ^ k) 0

/-- A number held to a field of `w` bits that saturates. -/
def capped (w n : Nat) : Nat := min n (2 ^ w - 1)

/-! ### The control and supply dies -/

/-- Numbered panes in service (CTL_CAPS). -/
def panesInService (s : State) : Nat :=
  ((List.range 144).filter (fun i => (s.pane i).number.isSome && !(s.pane i).out)).length

/-- DEGRADED (Table 18-7): a pane number out of service, a channel removed or lost, a lintel failed, or the lasers of a window
die faulted. -/
def degraded (s : State) : Bool :=
  (List.range 144).any (fun i => (s.pane i).out)
    || (List.range 16).any (fun b => (s.bay b).mem.removed.isSome || !(s.bay b).mem.lost.isEmpty)
    || s.rel.failedLinks.any (fun l => decide (32 ≤ l.2)) || s.boot.laserFault.any (fun d => decide (d < 8))

/-- Does some domain run a recovery (LOG_STAT.RECBUSY)? -/
def recBusy (s : State) : Bool := s.rel.doms.any (fun d => d.2.cur.isSome)

/-- Is a bay lowering or holding its clock for its junction (PWR_STAT.TJTHR)? -/
def junctionActs (x : Bay) : Bool := x.jctHot || decide (x.clkJct < 7)

/-- PEND or MASK of 32 vectors from `lo`. -/
def irqWord (s : State) (lo k : Nat) : Nat :=
  (List.range 32).foldl (fun a v => if lo + v ≤ 50 && bit (s.regN (Reg.FLX_MSICTL (lo + v))) k then a + 2 ^ v else a) 0

/-- CTL_DEVSTAT (Table 18-7). -/
def devStat (s : State) : Nat :=
  b2n s.boot.ready + s.pwr.st * 2 + s.sec.st * 2 ^ 4 + s.dbg.level * 2 ^ 6 + b2n s.boot.recovery * 2 ^ 8 + b2n (degraded s) * 2 ^ 9
    + b2n (recBusy s) * 2 ^ 10 + b2n (!s.gx.stalls.isEmpty) * 2 ^ 11
    + b2n ((List.range 16).any (fun b => junctionActs (s.bay b) || (s.bay b).mem.throttle)) * 2 ^ 12

/-- CTL_BOOTSTAT (Table 15-12). Log entry 31, DESIGN CHOICE. -/
def bootStat (s : State) : Nat :=
  let p := s.boot
  let booted := decide (2 ≤ p.phase) && !p.recovery
  (if p.phase = 6 then p.readyCode else p.phase) % 16 + b2n (booted && p.slot == 1) * 2 ^ 4
    + b2n (booted && p.slot != p.active) * 2 ^ 5 + b2n p.recovery * 2 ^ 6 + b2n p.ready * 2 ^ 7 + p.lastErr % 256 * 2 ^ 8

/-- CTL registers. -/
def ctlView (s : State) (path a : Nat) : Option Nat :=
  if a = Reg.CTL_CHIPID then some s.chip
  else if a = Reg.CTL_CAPS then some (0x14101000 + panesInService s)
  else if a = Reg.CTL_DEVSTAT then some (devStat s)
  else if a = Reg.CTL_TIME_LO then some (s.devTime % 2 ^ 32)
  else if a = Reg.CTL_TIME_HI then some (tget 0 s.mgmt.timeHi path).toNat
  else if a = Reg.CTL_IRQPEND0 then some (irqWord s 0 1)
  else if a = Reg.CTL_IRQPEND1 then some (irqWord s 32 1)
  else if a = Reg.CTL_IRQMASK0 then some (irqWord s 0 0)
  else if a = Reg.CTL_IRQMASK1 then some (irqWord s 32 0)
  else if a = Reg.CTL_BOOTSTAT then some (bootStat s)
  else if a = Reg.CTL_IMGVER then some s.boot.ver
  else if a = Reg.CTL_UPDSTAT then some (s.rel.upd + s.rel.updRes * 2 ^ 4 + s.rel.updPort * 2 ^ 12)
  else none

/-- SUP registers (Table 19-11). -/
def supView (s : State) (a : Nat) : Option Nat :=
  if a = Reg.SUP_STAT then
    some (packBits [s.sup.vinOk, s.sup.vauxOk, s.sup.vioOk, s.sup.refUsed == 1, s.sup.ref0Lost, s.sup.ref1Lost])
  else if a = Reg.SUP_STRAP then some (s.sup.chip + s.sup.smba * 2 ^ 12 + s.sup.recoverN * 2 ^ 14)
  else none

/-- Is the migration pool empty while a CAUSE 0x5 entry stays pending for it (R350)? -/
def poolStarved (s : State) : Bool :=
  s.gx.mig.isNone && poolEmpty s && s.gx.fq.any (fun e => match e.2 with | some x => x.st == 1 && x.cause == 5 | none => false)

/-- Global XLT and FLX registers. -/
def linkView (s : State) (a : Nat) : Option Nat :=
  if a = Reg.XLT_FQSTAT then
    some (fqUsed s + b2n (!s.gx.stalls.isEmpty) * 2 ^ 9 + b2n (s.gx.noticeStuck || (s.regN Reg.XLT_FNHEAD + 1) % 512 == s.regN Reg.XLT_FNTAIL) * 2 ^ 10 + b2n s.gx.mig.isSome * 2 ^ 11
      + b2n (poolStarved s) * 2 ^ 12 + (match s.gx.mig with | some m => m.entry * 2 ^ 13 | none => 0))
  else if a = Reg.FLX_LINK then some (packBits [s.portUp 32, s.portUp 33, s.portUp 32 || s.portUp 33])
  else none

/-- SEC registers (R511). -/
def secView (s : State) (a : Nat) : Option Nat :=
  if a = Reg.SEC_STAT then
    some (s.sec.st + packBits [s.sec.noid, s.sec.intruded, s.sec.nonceOk, s.sec.run.isSome] * 4)
  else if Reg.SEC_DEVID0 ≤ a ∧ a ≤ Reg.SEC_DEVID3 then some (field s.sec.devid (a - Reg.SEC_DEVID0) 4)
  else if a = Reg.SEC_FLOOR then some s.sec.floor
  else if a = Reg.SEC_NONCE_LO then some (s.sec.nonce % 2 ^ 32)
  else if a = Reg.SEC_NONCE_HI then some (s.sec.nonce / 2 ^ 32)
  else if a = Reg.SEC_RESULT then some s.sec.result
  else if a = Reg.SEC_SVCEND_LO then some (s.sec.sessEnd % 2 ^ 32)
  else if a = Reg.SEC_SVCEND_HI then some (s.sec.sessEnd / 2 ^ 32)
  else if a = Reg.SEC_FPSTAT then some (packBits [s.sec.flash.isSome, s.sec.fpErr, s.sec.fpRefused])
  else none

/-- Are trace records being written somewhere (R504)? -/
def tracing (s : State) : Bool :=
  decide (1 ≤ s.dbg.level ∧ s.pwr.st ≤ 1) && bit (s.regN Reg.DBG_TRCCTL) 0 && (List.range 16).any (fun b => !(s.bay b).traceStopped || bit (s.regN Reg.DBG_TRCCTL) 1)

/-- Panes `lo` to `lo + 31` that are halted. -/
def haltedWord (s : State) (lo : Nat) : Nat :=
  (List.range 32).foldl (fun a k =>
    if (match s.instOf (lo + k) with | some i => (s.pane i).halted | none => false) then a + 2 ^ k else a) 0

/-- DBG registers (Table 16-15; R549). -/
def dbgView (s : State) (a : Nat) : Option Nat :=
  if a = Reg.DBG_STAT then
    some (s.dbg.level + [0, 2, 3, 1].getD s.dbg.path 0 * 4 + b2n (tracing s) * 2 ^ 4 + s.dbg.lastRes * 2 ^ 5)
  else if a = Reg.DBG_HALTED0 then some (haltedWord s 0)
  else if a = Reg.DBG_HALTED1 then some (haltedWord s 32)
  else if a = Reg.DBG_HALTED2 then some (haltedWord s 64)
  else if a = Reg.DBG_HALTED3 then some (haltedWord s 96)
  else if a = Reg.DBG_MADDR_LO ∧ s.dbg.level < 2 then some 0
  else none

/-- PWR registers (Table 16-17). Log entry 75, DEDUCED. -/
def pwrView (s : State) (a : Nat) : Option Nat :=
  if a = Reg.PWR_STAT then
    some (s.pwr.st + (if s.pwr.moving then s.pwr.target * 2 ^ 3 else 0) + b2n s.pwr.moving * 2 ^ 6 + b2n s.pwr.refused * 2 ^ 7
      + maskOf ((List.range 16).filter (fun b => junctionActs (s.bay b))) * 2 ^ 8)
  else none

/-- The bytes of a log entry (Table 17-5). -/
def logBytes (e : LogEnt) : List Byte :=
  leBytes 8 e.time ++ leBytes 4 e.seq ++ leBytes 1 e.event ++ leBytes 1 (e.cls + e.verdict * 8) ++ leBytes 1 e.dkind
    ++ leBytes 1 e.inst ++ leBytes 8 e.addr ++ leBytes 4 e.detail0 ++ leBytes 4 e.detail1

/-- The word that LOG_SEL selects; an index never written reads 0. Log entry 93, DEDUCED. -/
def logWord (s : State) : Nat :=
  let v := s.regN Reg.LOG_SEL
  match tget none s.rel.log (v % 8192) with
  | some e => field (logBytes e) (4 * bits v 15 13) 4
  | none => 0

/-- LOG registers (R537, R538). -/
def logView (s : State) (a : Nat) : Option Nat :=
  if a = Reg.LOG_STAT then
    some (packBits [decide (8193 ≤ s.rel.logSeq), recBusy s, s.rel.doms.any (fun d => !d.2.queue.isEmpty)])
  else if a = Reg.LOG_SEQ then some (s.rel.logSeq % 2 ^ 32)
  else if a = Reg.LOG_DOMSTAT then
    let v := s.regN Reg.LOG_DOMSEL
    let d := s.dom (v % 16 * 256 + bits v 15 8)
    some (b2n d.cur.isSome + capped 4 d.queue.length * 2 + capped 16 d.resets * 2 ^ 16)
  else none

/-! ### Rim dies -/

/-- The worst lane of the last 1 ms, and its corrected symbols. -/
def worstLane (s : State) (x : Port) : Nat × Nat :=
  if x.laneWin + 1000000 ≤ s.devTime then (0, 0)
  else x.laneErr.foldl (fun w e => if w.2 < e.2 then e else w) (0, 0)

/-- A register of a port: `o` is its offset from WIN_PSTAT or FLX_PSTAT. Log entry 97, DEDUCED. -/
def portView (s : State) (p o : Nat) : Option Nat :=
  let x := s.port p
  if o = 0 then
    some (x.st + b2n (x.rxSwap.isSome || x.txSwap.isSome) * 2 ^ 4 + b2n x.drain.isSome * 2 ^ 5
      + (x.lanes.length + x.spares.length) % 32 * 2 ^ 6 + x.replay.length % 512 * 2 ^ 11)
  else if o = 4 then
    some (match x.peer with
      | some (c, q) => if p < 32 then c % 4096 + q % 32 * 2 ^ 16 + 2 ^ 31 else q % 2 + 2 ^ 31
      | none => 0)
  else if o = 8 then some (maskOf x.lanes)
  else if o = 0xC then some (maskOf x.spares)
  else if o = 0x30 ∧ p < 32 then some ((worstLane s x).1 + (worstLane s x).2 % 2 ^ 24 * 2 ^ 8)
  else none

/-- WIN registers. Log entry 97, DEDUCED. -/
def winView (s : State) (k o : Nat) : Option Nat :=
  if o = 0 then
    some (maskOf ((List.range 4).filter (fun j => s.portUp (4 * k + j)))
      + maskOf ((List.range 4).filter (fun j => (s.port (4 * k + j)).st == 9)) * 2 ^ 8)
  else if 0x100 ≤ o then portView s (4 * k + (o - 0x100) / 0x40) (o % 0x40)
  else none

/-! ### Bays -/

/-- BAY, XE, XLT and DSP registers of bay `b`. -/
def bayView (s : State) (b o : Nat) : Option Nat :=
  let x := s.bay b
  if o = 0x14 then some (s.regN (Reg.BAY_DBSTAT b) % 2 ^ 24 + b2n (freeEntries s b == 0) * 2 ^ 24)
  else if o = 0x1008 then
    match x.te.jobs with
    | j :: _ =>
      let refresh := cbits j.cmd 8 12 12 == 1
      let rows := j.op != 6 && j.op != 7 && (j.op != 3 || j.done == 0)
      some (1 + b2n (j.op == 4 && !refresh) * 2 + b2n (j.op == 4 && refresh) * 4 + (s.pane j.pane).number.getD 0 % 8 * 2 ^ 4 + j.op * 2 ^ 8
        + (if rows then capped 11 ((j.sent.map (fun e => e.2.length)).foldl (· + ·) 0) else 0) * 2 ^ 16
        + capped 5 x.te.copies.length * 2 ^ 27)
    | [] => some (capped 5 x.te.copies.length * 2 ^ 27)
  else if o = 0x2000 then
    some (capped 13 (x.xe.reqs.filter (fun r => !r.host)).length + b2n (x.xe.flows.any (fun f => f.held)) * 2 ^ 13
      + b2n (bayEngBusy s b 6) * 2 ^ 14)
  else if o = 0x4000 then
    some (capped 13 x.xlt.tlb.length + capped 5 (x.xlt.walks.filter (fun w => w.host.isNone)).length * 2 ^ 13
      + capped 7 (x.xlt.walks.filter (fun w => w.host.isSome)).length * 2 ^ 18)
  else if o = 0x5000 then
    some (freeEntries s b + capped 11 (s.tasks.filter (fun t => t.bay == b && t.st == .held)).length * 2 ^ 11
      + b2n (tfFull s b) * 2 ^ 22 + b2n s.ctxReset.isSome * 2 ^ 23)
  else if 0x502C ≤ o ∧ o ≤ 0x5038 then
    let n := fun (pr : Nat) => (s.tasks.filter (fun t => t.bay == b && t.st == .ready && t.prio == pr)).length
    let k := (o - 0x502C) / 4 * 2
    some (capped 11 (n k) + capped 11 (n (k + 1)) * 2 ^ 16)
  else none

/-- MEM registers of bay `b` (Tables 9-5 and 9-15). -/
def memView (s : State) (b o : Nat) : Option Nat :=
  let m := (s.bay b).mem
  let remCh := match m.removed, m.evac with | some c, _ => c | none, some (c, _, _) => c | none, none => 0
  if o = 0x3004 then
    some (packBits [m.ready, m.hot, m.throttle, m.hold, m.shut.isSome]
      + (match m.shut with | some h => h.ch | none => 0) * 2 ^ 5 + b2n m.evac.isSome * 2 ^ 10 + b2n m.removed.isSome * 2 ^ 11
      + remCh * 2 ^ 12 + b2n (!m.lost.isEmpty) * 2 ^ 17 + m.lost.getLastD 0 * 2 ^ 18 + b2n (rqFull s b) * 2 ^ 23 + b2n (m.rtfull || decide (1024 ≤ m.refused.length)) * 2 ^ 24)
  else if o = 0x3034 then some m.refused.length
  else if o = 0x303C then
    let v := s.regN (Reg.MEM_RMAPSEL b)
    match (m.remaps.filter (fun r => r.ch == bits v 12 8))[v % 64]? with
    | some r => some (1 + b2n r.bad * 2 + r.pc * 4 + r.bank * 2 ^ 3 + r.spare * 2 ^ 9 + r.fails * 2 ^ 12 + r.row * 2 ^ 17)
    | none => some 0
  else if o = 0x304C then some (min 31 (m.evacPos * 64 / bandBytes))
  else none

/-- SYN registers of bay `b` (Tables 11-11 and 11-12; R383, R549). -/
def synView (s : State) (b o : Nat) : Option Nat :=
  let k := selObj s b
  let x := s.obj k
  let seen := decide (1 ≤ s.dbg.level)
  let ws := ((s.bay b).waiters ++ (s.bay b).stalledWaits).filter (fun w => w.obj == k)
  let w := ws[s.regN (Reg.SYN_WSEL b) % 64]?
  let sig := fun (f : Nat × Nat × Nat × Nat → Nat) => match x.last with | some l => if seen then f l else 0 | none => 0
  if o = 0x14 then some (x.st + b2n x.anyctx * 4 + b2n x.sat * 8 + x.owner * 2 ^ 16)
  else if o = 0x18 then some (x.val % 2 ^ 32)
  else if o = 0x1C then some (x.val / 2 ^ 32)
  else if o = 0x20 then some (sig (fun l => l.1 % 128 + l.2.1 % 4096 * 2 ^ 8))
  else if o = 0x24 then some (sig (fun l => l.2.2.1))
  else if o = 0x28 then some (sig (fun l => l.2.2.2 % 2 ^ 32))
  else if o = 0x2C then some (sig (fun l => l.2.2.2 / 2 ^ 32))
  else if o = 0x30 then some (if seen then capped 12 ws.length else 0)
  else if o = 0x38 then
    some (match w with
      | some w =>
        let pn := match s.taskOf w.task with
          | some t => if w.kind = 2 then t.bay * 8 else t.ranOn.getD (t.bay * 8 + t.lpane)
          | none => 0
        if seen then pn % 128 + w.kind * 2 ^ 7 + b2n w.parked * 2 ^ 9 + w.ctx * 2 ^ 16 else 0
      | none => 0)
  else if o = 0x3C then some (match w with | some w => if seen then w.thr % 2 ^ 32 else 0 | none => 0)
  else if o = 0x40 then some (capped 12 (s.bay b).waiters.length)
  else none

/-! ### Pane instances -/

/-- PANE_STATE (Table 2-15). Log entry 87, DEDUCED. -/
def paneState (p : Pane) : Nat :=
  let st := match p.sw with | some w => if 4 ≤ w.step then 2 else 1 | none => if p.task.isSome then 1 else if p.stopped then 3 else 0
  let run := p.task.isSome
  p.mode + st * 4 + (if run then p.dclass * 16 else 0) + b2n p.number.isNone * 2 ^ 6 + p.number.getD 0x7F * 2 ^ 8
    + (if run then p.ctx * 2 ^ 16 else 0)

/-- Lanes that a running TABULATE uses: the manual does not say which of Table 6-12's codes (log entry 34, DESIGN CHOICE). -/
def vecLanes (s : State) : Nat := Config.pick s.nonce 3 % 3

/-- A register of pane instance `i` at offset `o` in its 64 KiB. -/
def paneView (s : State) (i o : Nat) : Option Nat :=
  let p := s.pane i
  if o = 0 then some (paneState p)
  else if o = 4 then some (p.seq.pc % 2 ^ 32)
  else if o = 8 then some (p.seq.pc / 2 ^ 32)
  else if o = 0xC then some (match p.task.bind s.taskOf with | some t => t.spbase % 256 + t.spcount % 256 * 2 ^ 8 | none => 0)
  else if o = 0x18 then some p.mode
  else if o = 0x100 then some (arrStat p)
  else if o = 0x204 then let t := s.regN (Reg.PANE_TFSEL i) % 128; some (tflagBits (shownFlags p t) t)
  else if 0x210 ≤ o ∧ o ≤ 0x21C then some (tileMask p ((o - 0x210) * 8) (·.sat))
  else if 0x220 ≤ o ∧ o ≤ 0x22C then some (tileMask p ((o - 0x220) * 8) (·.canc))
  else if o = 0x1000 then
    some (match p.vec with
      | some _ => 1 + 3 * 2 ^ 8 + vecLanes s * 2 ^ 16
      | none => b2n (tget 0 p.seq.progress 102 != 0) * 2)
  else if o = 0x2000 then
    some (match p.nge with
      | some j => 1 + j.op * 2 ^ 8 + capped 10 ((j.fetches.map (fun f => f.pend.length)).foldl (· + ·) 0) * 2 ^ 16
      | none => b2n (tget 0 p.seq.progress 103 != 0) * 2)
  else if o = 0x3000 then
    let mine := s.accs.filter (fun a => match a.purpose with | .se j _ _ _ => j == i | _ => false)
    some (maskOf ((p.seq.streams.filter (fun e => openStream e.2)).map (·.1)) + b2n (p.seq.streams.any (fun e => e.2.status == 5)) * 2 ^ 16
      + b2n (mine.any (fun a => match a.purpose with | .se _ _ k _ => decide (2 ^ 40 ≤ k) | _ => false)) * 2 ^ 17
      + capped 8 mine.length * 2 ^ 24)
  else none

/-! ### The whole window -/

/-- What a register computes for a read over a path; none: it reads its stored value. -/
def regCalc (s : State) (path a : Nat) : Option Nat :=
  if a < 0x1000 then ctlView s path a
  else if a < 0x2000 then supView s a
  else if a < 0x5000 then linkView s a
  else if a < 0x6000 then secView s a
  else if a < 0x7000 then dbgView s a
  else if a < 0x8000 then pwrView s a
  else if a < 0x9000 then logView s a
  else if a < 0x00900000 then winView s ((a - 0x00800000) / 0x1000) (a % 0x1000)
  else if a < 0x01000000 then portView s (32 + (a - 0x00900000) / 0x1000) (a % 0x1000)
  else
    match paneAt a with
    | some i => paneView s i (a % 0x10000)
    | none =>
      let b := (a - 0x01000000) / 0x100000
      let o := a % 0x100000
      if 0x3000 ≤ o ∧ o < 0x4000 then memView s b o
      else if 0x6000 ≤ o ∧ o < 0x7000 then synView s b (o - 0x6000)
      else bayView s b o

/-- What a register of a die or domain in reset reads (R548): its Reset value; a pane's state that of a pane reset. Log entry 87, DEDUCED. -/
def resetView (a : Nat) : Nat :=
  match paneAt a with
  | some i => if a % 0x10000 = 0 then paneState (Pane.reset i) else (regReset a).toNat
  | none => (regReset a).toNat

/-- What a register shows, before any force. -/
def regShows (s : State) (path a : Nat) : Nat :=
  if inReset s a then resetView a
  else
    match regRow a with
    | none => 0
    | some r => if r.acc = .wo then 0 else match regCalc s path a with | some v => v % 2 ^ 32 | none => s.regN a

/-- What a register reads as: a forced value stands until the device updates the register (R503). Log entry 94, DEDUCED. -/
def regView (s : State) (path a : Nat) : Nat :=
  let v := regShows s path a
  let f := tget (0, 0) s.mgmt.forced a
  if v = f.1.toNat ∧ f ≠ (0, 0) then f.2.toNat else v

end Sys2Proof.Machine
end

