-- ==== Sys2Proof/Machine/Mgmt.lean ====
section
/-! DEFINITION. Management accesses (R9 to R14, R438, R543 to R551, R575): which are served, what a read delivers, what a write
does, and the rows of the three paths. Paths: 1 SMBus, 2 Follux, 3 test port. -/

namespace Sys2Proof.Machine

open Sys2Proof

/-! ### Addresses -/

/-- Is a window address in the alias range (Table 18-1)? -/
def isAlias (a : Nat) : Bool := decide (0x04000000 ≤ a ∧ a < 0x04800000)

/-- The pane number of an alias address. -/
def aliasPane (a : Nat) : Nat := (a - 0x04000000) / 0x10000

/-- The instance that an alias reaches; none: its number is out of service (R543). -/
def aliasInst (s : State) (a : Nat) : Option Nat :=
  match s.instOf (aliasPane a) with
  | some i => if (s.pane i).out then none else some i
  | none => none

/-- The instance address of an access. -/
def resolve (s : State) (a : Nat) : Nat :=
  if isAlias a then paneBase ((aliasInst s a).getD 0) + a % 0x10000 else a

/-! ### The reasons of Table 18-4 -/

/-- Identity registers and the boot registers: the first two rows of Table 15-8. -/
def bootReg (a : Nat) : Bool := decide (a < 0x10) || decide (0x200 ≤ a ∧ a < 0x214)

/-- The status registers of Table 15-8. -/
def statusReg (a : Nat) : Bool :=
  a == Reg.FLX_LINK || decide (0x00800000 ≤ a ∧ a < 0x00808000) &&
      (a % 0x1000 == 0 || a % 0x1000 == 8 || decide (0x100 ≤ a % 0x1000 ∧ a % 0x1000 < 0x200 ∧ a % 0x40 < 8))
    || decide (0x00900000 ≤ a ∧ a < 0x00902000 ∧ a % 0x1000 < 8)
    || decide (0x01000000 ≤ a ∧ a < 0x02000000) && (a % 0x100000 == 0x3004 || a % 0x100000 == 0x300C)

/-- The log-read registers (R528). -/
def logReg (a : Nat) : Bool := a == Reg.LOG_STAT || a == Reg.LOG_SEQ || a == Reg.LOG_SEL || a == Reg.LOG_DATA

/-- Does the control die answer an access before READY (R477, R484, R506, R508, Table 16-9; log entry 32, DEDUCED)? -/
def answersEarly (s : State) (path a : Nat) (wr : Bool) : Bool :=
  if a = Reg.CTL_RESTART then wr
  else if s.boot.recovery then
    path != 2 && (!wr && bootReg a
      || path == 1 && decide (0x5000 ≤ a ∧ a < 0x6000)
      || path == 3 && (decide (0x6000 ≤ a ∧ a < 0x7000) || decide (a < 0x9000) && holdsLevel s 3 (if wr then 2 else 1)))
  else
    !wr && (bootReg a || statusReg a) || path != 3 && logReg a && (!wr || a == Reg.LOG_SEL)
      || s.boot.hold && s.boot.phase == 2 && path != 2 && decide (a < 0x9000)

/-- May a register force reach a register: in P4 and Open only the control die's; in P2 and P3 not a pane's (Table 16-9)? Log entry 94, DEDUCED. -/
def mayForce (s : State) (a : Nat) : Bool :=
  (s.boot.ready || decide (a < 0x9000)) && !gatedReg s a

/-- Is a DBG register marked Intrude only, or an Intrude access (R503, R549)? -/
def intrudeReg (a : Nat) : Bool := a == Reg.DBG_HALT || a == Reg.DBG_MADDR_LO || a == Reg.DBG_MDATA || a == Reg.DBG_FDATA

/-- Does the security state, the debug level or the power state forbid a write (R496, R500, Table 16-9)? -/
def stateForbids (s : State) (a : Nat) : Bool :=
  if intrudeReg a then
    s.dbg.level < 2 || a == Reg.DBG_HALT && !(s.boot.ready && decide (s.pwr.st ≤ 1)) || a == Reg.DBG_MDATA && !s.boot.ready
      || a == Reg.DBG_FDATA && !mayForce s (resolve s (s.regN Reg.DBG_FADDR))
  else (a == Reg.SEC_FPDATA || a == Reg.SEC_FPCMD) && s.sec.st != 0

/-- The reason with which an access is answered, in the order of R575; 0: it is served. Log entry 32, DEDUCED. Log entry 92, DEDUCED. -/
def accessReason (s : State) (path a : Nat) (wr : Bool) : Nat :=
  let r := resolve s a
  if a % 4 ≠ 0 then 2
  else if !s.boot.ready && !answersEarly s path a wr then 3
  else if (regRow r).isNone then 1
  else if isAlias a && (aliasInst s a).isNone then 5
  else if wr && (inReset s r || gatedReg s r) then 5
  else if wr && r == Reg.DBG_FDATA && holdsLevel s path 2 && s.boot.ready && inReset s (resolve s (s.regN Reg.DBG_FADDR)) then 5
  else if wr && stateForbids s r then 4
  else if wr && intrudeReg r && s.dbg.path != path then 6
  else if r = Reg.CTL_RESTART ∧ wr ∧ !s.boot.ready ∧ path ≠ 1 then 6
  else 0

/-- A refusal is recorded (R546). Log entry 92, DEDUCED. -/
def refuseAccess (s : State) (path a reason : Nat) (wr : Bool) : State :=
  ((s.setReg Reg.CTL_ACCERR (reason + path * 2 ^ 8 + b2n wr * 2 ^ 10)).setReg Reg.CTL_ACCADDR a).incReg Reg.CTL_ACCCNT

/-! ### Reads -/

/-- A read of CTL_TIME_LO latches the high half of device time for its path (R551). -/
def timeLoRead (s : State) (path : Nat) : Nat × State :=
  (s.devTime % 2 ^ 32, { s with mgmt := { s.mgmt with timeHi := tset 0 s.mgmt.timeHi path (BitVec.ofNat 32 (s.devTime / 2 ^ 32)) } })

/-- A read of LOG_DATA: the selected word; the word moves on, then the index (R537). Log entry 93, DEDUCED. -/
def logDataRead (s : State) : Nat × State :=
  let v := s.regN Reg.LOG_SEL
  let w := bits v 15 13
  (logWord s, s.setReg Reg.LOG_SEL (if w = 7 then (v % 8192 + 1) % 8192 else v % 8192 + (w + 1) * 2 ^ 13))

/-- What a read of a register delivers and does; none: it waits for a line of memory. -/
def readEffect (s : State) (path a : Nat) : Option Nat × State :=
  let some' := fun (r : Nat × State) => (some r.1, r.2)
  let o := a % 0x100000
  let b := (a - 0x01000000) / 0x100000
  if inReset s a then (some (resetView a), s)
  else if a = Reg.CTL_TIME_LO then some' (timeLoRead s path)
  else if a = Reg.SEC_FPDATA then some' (fpdataRead s)
  else if a = Reg.DBG_MDATA then mdataRead s path
  else if a = Reg.DBG_TRCDATA then some' (trcdataRead s)
  else if a = Reg.LOG_DATA then some' (logDataRead s)
  else if a < 0x01000000 then (some (regView s path a), s)
  else
    match paneAt a with
    | some i =>
      if a % 0x10000 = 0x20 then some' (paneSlotdataRead s i)
      else if a % 0x10000 = 0x3038 then some' (strdataRead s i)
      else (some (regView s path a), s)
    | none => if o = 0x34 then some' (slotdataRead s b) else (some (regView s path a), s)

/-! ### Writes -/

/-- A write of FLX_MSICTL: MASK is written, PEND stays; a pending vector whose MASK is clear is sent (R442). -/
def msictlWrite (s : State) (v w : Nat) : State :=
  sendMsi (s.setReg (Reg.FLX_MSICTL v) (s.regN (Reg.FLX_MSICTL v) / 2 % 2 * 2 + w % 2)) v

/-- A write of CTL_RESTART: without the key, or with another kind, it is ignored (R488). -/
def restartWrite (s : State) (v : Nat) : State :=
  if v % 256 ≠ 0xA5 then s
  else if bits v 9 8 = 1 then restartDevice s false false
  else if bits v 9 8 = 2 then restartDevice s true false
  else s

/-- A write of CTL_IRQTEST raises the vector it names; a reserved one is ignored. -/
def irqTest (s : State) (v : Nat) : State := raiseIrq s (v % 64)

/-- A write of SUP_EVENTS clears the flags written 1 (R573). -/
def eventsClear (s : State) (v : Nat) : State :=
  let w := s.regN Reg.SUP_EVENTS
  s.setReg Reg.SUP_EVENTS (w - Nat.land w v)

/-- A write of CTL_UPDCMD. -/
def updCmd (s : State) (v : Nat) : State := if v % 4 = 1 then updStart s else if v % 4 = 2 then updAbort s else s

/-- A write of CTL_PANESVC. -/
def panesvc (s : State) (v : Nat) : State :=
  if bits v 9 8 = 1 then panesvcTest s (v % 128) else if bits v 9 8 = 2 then panesvcReplace s (v % 128) else s

/-- A write of MEM_SVC (R312, R529). -/
def memSvc (s : State) (b v : Nat) : State :=
  let ch := v % 32
  let act := bits v 7 5
  if act = 1 then askShutter s b ch 0
  else if act = 2 then strike s (.dramLane b ch) ch 1 false
  else if act = 3 then channelGone s b ch
  else s

/-- A write by the access code of a register's row (R11, R13). -/
def plainWrite (s : State) (a v : Nat) : State :=
  match regRow a with
  | none => s
  | some r =>
    match r.acc with
    | .ro => s
    | .rw => s.setReg a (Nat.land v r.mask)
    | .w1c => s.setReg a (s.regN a - Nat.land (s.regN a) (Nat.land v r.mask))
    | .wo => s
    | .rws => stageWrite s a v

/-- A write to a register of bay `b` at offset `o`. -/
def bayWrite (s : State) (b o a v : Nat) : State :=
  if o = 0x10 then doorbell s b v
  else if o = 0x18 then qerrClear s b v
  else if o = 0x1064 then teClear s b v
  else if o = 0x200C then rtFlush s b v
  else if o = 0x3020 ∨ o = 0x3024 then (plainWrite s a v).modMem b (fun m => { m with rqStuck := false })
  else if o = 0x302C then rqtailWrite s b v
  else if o = 0x3030 then rack s b v
  else if o = 0x3048 then memSvc s b v
  else if o = 0x4024 then
    let s := if bit v 0 then flushTlb s b else s
    if bit v 1 then flushOwner s b else s
  else if o = 0x5018 ∨ o = 0x501C then (plainWrite s a v).modBay b (fun x => { x with tfStuck := false })
  else if o = 0x5024 then tftailWrite s b v
  else if o = 0x5028 then ctxResetWrite s v
  else if o = 0x6004 then synCtrl s b v
  else plainWrite s a v

/-- A write to a register of the control die or the supply die, but for a force. -/
def ctlWrite (s : State) (path a v : Nat) : State :=
  if a = Reg.CTL_IRQTEST then irqTest s v
  else if a = Reg.CTL_RESTART then restartWrite s v
  else if a = Reg.CTL_COMMIT then commitWrite s v
  else if a = Reg.CTL_UPDCMD then updCmd s v
  else if a = Reg.CTL_PANESVC then panesvc s v
  else if a = Reg.SUP_EVENTS then eventsClear s v
  else if a = Reg.XLT_FNBASE_LO ∨ a = Reg.XLT_FNBASE_HI then
    let s := plainWrite s a v
    retryStalls { s with gx := { s.gx with noticeStuck := false } }
  else if a = Reg.XLT_FNTAIL then fntailWrite s v
  else if a = Reg.XLT_FRESOLVE then fresolve s v
  else if a = Reg.XLT_MPTAIL then mptailWrite s v
  else if 0x4000 ≤ a ∧ a < 0x5000 ∧ a % 16 = 0xC then msictlWrite s ((a - 0x4000) / 16) v
  else if a = Reg.SEC_CMD then secStart s (v % 16) path
  else if a = Reg.SEC_TOKDATA then tokData s v
  else if a = Reg.SEC_FPDATA then fpdataWrite s v
  else if a = Reg.SEC_FPCMD then fpCmd s (v % 4)
  else if a = Reg.DBG_REQ then dbgReq s path v
  else if a = Reg.DBG_HALT then dbgHalt s path (v % 128) (bits v 9 8)
  else if a = Reg.DBG_MDATA then mdataWrite s path v
  else if a = Reg.PWR_REQ then pwrReq s v
  else plainWrite s a v

/-- What a write does to a register, but for a force. -/
def writeEffect (s : State) (path a v : Nat) : State :=
  if a < 0x9000 then ctlWrite s path a v
  else if 0x00800000 ≤ a ∧ a < 0x00808000 then
    if 0x100 ≤ a % 0x1000 ∧ a % 0x40 = 0x10 then portCtrl s ((a - 0x00800000) / 0x1000 * 4 + (a % 0x1000 - 0x100) / 0x40) v
    else plainWrite s a v
  else if 0x00900000 ≤ a ∧ a < 0x00902000 then
    if a % 0x1000 = 0x10 then portCtrl s (32 + (a - 0x00900000) / 0x1000) v else plainWrite s a v
  else
    match paneAt a with
    | some _ => if a % 0x10000 = 0x18 then s else plainWrite s a v
    | none => if a % 0x100000 = 0x34 then stageWrite s a v else bayWrite s ((a - 0x01000000) / 0x100000) (a % 0x100000) a v

/-- A force of BAY_SLOTDATA replaces the entry in force at the selected index. Log entry 94, DEDUCED. -/
def forceSlot (s : State) (b v : Nat) : State :=
  match slotSel s b with
  | none => s
  | some (k, n, j) => slotNext (s.modBay b (fun x => { x with slotIn := tset none x.slotIn (slotKey k n j) (some (v % 65536)) })) b k j

/-- A register force (R503): the value stands whatever the access code, until the device's own next update; a write-only
register takes it as a write. Every force is logged with its address and value. Log entry 94, DEDUCED. -/
def force (s : State) (path v : Nat) : State :=
  let fa := s.regN Reg.DBG_FADDR
  let a := resolve s fa
  match regRow a with
  | none => s
  | some r =>
    if 0x5000 ≤ a ∧ a < 0x6000 then s
    else
      let s := logE s 0x14 8 0 fa 0 v
      if r.acc = .wo ∨ r.acc = .rw then (if a = Reg.DBG_FDATA then s else writeEffect s path a v)
      else
        let s := match paneAt a with
          | some i => if a % 0x10000 = 0x18 then s.modPane i (fun p => { p with mode := v % 4 }) else s.setReg a v
          | none => if 0x01000000 ≤ a ∧ a % 0x100000 = 0x34 then forceSlot s ((a - 0x01000000) / 0x100000) v else s.setReg a v
        let w := regShows s path a
        if w = v then s
        else { s with mgmt := { s.mgmt with forced := tset (0, 0) s.mgmt.forced a (BitVec.ofNat 32 w, BitVec.ofNat 32 v) } }

/-! ### Accesses -/

/-- A read over a path: reason and data, or none while it waits for a line of memory. -/
def serveRead (s : State) (path a : Nat) : Option (Nat × Nat) × State :=
  let r := accessReason s path a false
  if r ≠ 0 then (some (r, 0xE0000000 + r), refuseAccess s path a r false)
  else
    match readEffect s path (resolve s a) with
    | (some v, s) => (some (0, v), s)
    | (none, s) => (none, s)

/-- A write over a path: its reason, or none while the control die holds it behind a commit. -/
def serveWrite (s : State) (path a v : Nat) (msg : Option (Nat × List Byte)) : Option Nat × State :=
  let r := accessReason s path a true
  if r ≠ 0 then (some r, refuseAccess s path a r true)
  else
    let x := resolve s a
    let t := if x = Reg.DBG_FDATA then force s path v else writeEffect s path x v
    if s.mgmt.held.length < t.mgmt.held.length then (none, ownHeld t path msg) else (some 0, t)

/-- Does a path wait for the answer of a held access? It carries one access at a time (R544). Log entry 95, DEDUCED. -/
def pathBusy (s : State) (path : Nat) : Bool := s.mgmt.held.any (fun h => h.path == path) || s.mgmt.waiting.any (fun x => x.1 == path)

/-- A read by SMBus or the test port is served and answered. -/
def pathRead (s : State) (path a : Nat) : State :=
  match serveRead s path a with
  | (some (r, v), s) => (noteAnswer s path r v).readOut v
  | (none, s) => s

/-- A write by SMBus or the test port is served and answered. -/
def pathWrite (s : State) (path a v : Nat) : State :=
  match serveWrite s path a v none with
  | (some r, s) => noteAnswer s path r 0
  | (none, s) => s

/-- An access by SMBus or the test port: unanswered in P5, held during a handover (R530) and behind a held write of its path. -/
def pathAccess (s : State) (path a v : Nat) (wr : Bool) : State :=
  if s.pwr.st = 5 ∨ pathBusy s path then s
  else if s.rel.upd = 3 then { s with mgmt := { s.mgmt with waiting := s.mgmt.waiting ++ [(path, a, v, wr)] } }
  else if wr then pathWrite s path a v else pathRead s path a

/-- An access by a row that names its register and its path. One over Follux stands for a message already taken: its answer
is noted, and during a handover it is not yet served. Log entry 77, DEDUCED. -/
def rowAccess (s : State) (path a v : Nat) (wr : Bool) : State :=
  if path = 2 ∧ s.rel.upd = 3 then s else pathAccess s path a v wr

/-- Paths of R544. -/
def okPath (path : Nat) : Bool := decide (1 ≤ path ∧ path ≤ 3)

/-- SMBUS_READ. -/
def execSmbusRead (a : Nat) (s : State) : Host.Outcome State Fault Refusal :=
  answer s (decide (a < 2 ^ 32)) (settle (pathAccess s 1 a 0 false))
/-- SMBUS_WRITE. -/
def execSmbusWrite (a v : Nat) (s : State) : Host.Outcome State Fault Refusal :=
  answer s (decide (a < 2 ^ 32 ∧ v < 2 ^ 32)) (settle (pathAccess s 1 a v true))
/-- DBGACC. -/
def execDbgacc (a v : Nat) (wr : Bool) (s : State) : Host.Outcome State Fault Refusal :=
  answer s (decide (a < 2 ^ 32 ∧ v < 2 ^ 32)) (settle (pathAccess s 3 a v wr))

/-- SMBUS_TIMEOUT: an SMBus access that the control die has held for 20 ms without starting it is abandoned (R545). Log entry 95, DEDUCED. -/
def smbusTimeout (s : State) (a : Nat) (wr : Bool) : State :=
  let p := fun (x : Nat × Nat × Nat × Bool) => x.1 == 1 && x.2.1 == a && x.2.2.2 == wr
  let q := fun (h : HeldWrite) => wr && h.path == 1 && h.addr == a
  let gone := fun (s : State) => noteAnswer (refuseAccess s 1 a 7 wr) 1 7 (if wr then 0 else 0xE0000007)
  if s.mgmt.waiting.any p then gone { s with mgmt := { s.mgmt with waiting := eraseFirst p s.mgmt.waiting } }
  else if s.mgmt.held.any q then gone { s with mgmt := { s.mgmt with held := eraseFirst q s.mgmt.held } }
  else s

/-- SMBUS_TIMEOUT. -/
def execSmbusTimeout (a : Nat) (wr : Bool) (s : State) : Host.Outcome State Fault Refusal :=
  answer s (decide (a < 2 ^ 32)) (smbusTimeout s a wr)

/-! ### The Follux window (R438, R439, R443) -/

/-- A management message of the companion is served once the writes before it are done, unless the path waits. -/
def hostAccess (s : State) (f t : Nat) (serve : List Byte → State → State) : State :=
  match takeHost s f t with
  | none => s
  | some (m, s') =>
    if s.pwr.st = 5 ∨ s.rel.upd = 3 ∨ pathBusy s 2 ∨ !hostWritesDone s f then s else serve m s'

/-- A message refused before READY is counted (R443). Log entry 92, DEDUCED. -/
def countEarly (s : State) (f reason : Nat) : State := if reason = 3 then s.incReg (Reg.FLX_EARLY f) else s

/-- MGRD: while its access waits for a line of memory the message stays. -/
def mgrd (s : State) (f : Nat) : State :=
  hostAccess s f 0x2A (fun m s' =>
    match serveRead s' 2 (field (mBody m) 0 4) with
    | (some (r, v), t) => mgrsp (noteAnswer (countEarly t f r) 2 r v) f m r (some v)
    | (none, t) => { t with fin := s.fin })

/-- MGWR: no MGRSP follows a write that resets the device. -/
def mgwr (s : State) (f : Nat) : State :=
  hostAccess s f 0x2B (fun m s' =>
    match serveWrite s' 2 (field (mBody m) 0 4) (field (mBody m) 4 4) (some (f, m)) with
    | (some r, t) => if t.boot.ready || !s.boot.ready then answerWrite (countEarly t f r) 2 r (some (f, m)) else t
    | (none, t) => t)

/-- MGRD. -/
def execMgrd (f : Nat) (s : State) : Host.Outcome State Fault Refusal := answer s (decide (f < 2)) (settle (mgrd s f))
/-- MGWR. -/
def execMgwr (f : Nat) (s : State) : Host.Outcome State Fault Refusal := answer s (decide (f < 2)) (settle (mgwr s f))

/-! ### Rows that name their register -/

/-- FLX_MSICTL_WRITE: a write of `v` to FLX_MSICTL of a vector. -/
def execFlxMsictlWrite (vec v : Nat) (s : State) : Host.Outcome State Fault Refusal :=
  answer s (decide (vec ≤ 50)) (whenOpen s (Reg.FLX_MSICTL vec) (msictlWrite s vec v))
/-- CTL_IRQTEST. -/
def execCtlIrqtest (v : Nat) (s : State) : Host.Outcome State Fault Refusal := answer s true (whenOpen s Reg.CTL_IRQTEST (irqTest s v))
/-- RESTART: CTL_RESTART with its key and KIND 0b01. -/
def execRestart (path : Nat) (s : State) : Host.Outcome State Fault Refusal :=
  answer s (okPath path) (rowAccess s path Reg.CTL_RESTART 0x1A5 true)
/-- RECOVERY: CTL_RESTART with its key and KIND 0b10. -/
def execRecovery (path : Nat) (s : State) : Host.Outcome State Fault Refusal :=
  answer s (okPath path) (rowAccess s path Reg.CTL_RESTART 0x2A5 true)
/-- DBG_FDATA. -/
def execDbgFdata (path v : Nat) (s : State) : Host.Outcome State Fault Refusal :=
  answer s (decide (okPath path ∧ v < 2 ^ 32)) (settle (rowAccess s path Reg.DBG_FDATA v true))
/-- CTL_TIME_LO_READ. -/
def execCtlTimeLoRead (path : Nat) (s : State) : Host.Outcome State Fault Refusal :=
  answer s (okPath path) (rowAccess s path Reg.CTL_TIME_LO 0 false)
/-- REGISTER_WRITE. Log entry 136, DESIGN CHOICE. -/
def execRegisterWrite (path a v : Nat) (s : State) : Host.Outcome State Fault Refusal :=
  answer s (decide (okPath path ∧ a < 2 ^ 32 ∧ v < 2 ^ 32)) (settle (rowAccess s path a v true))

/-- SEC_LOAD_TOKEN: SEC_CMD 0x2 over a path. -/
def execSecLoadToken (path : Nat) (s : State) : Host.Outcome State Fault Refusal :=
  answer s (okPath path) (rowAccess s path Reg.SEC_CMD 2 true)
/-- DBG_REQ. -/
def execDbgReq (path v : Nat) (s : State) : Host.Outcome State Fault Refusal :=
  answer s (okPath path) (rowAccess s path Reg.DBG_REQ v true)
/-- HALT: DBG_HALT with action 0b01 on pane `v`. -/
def execHalt (path v : Nat) (s : State) : Host.Outcome State Fault Refusal :=
  answer s (okPath path) (settle (rowAccess s path Reg.DBG_HALT (v % 128 + 0x100) true))
/-- RESUME: DBG_HALT with action 0b10. -/
def execResume (path v : Nat) (s : State) : Host.Outcome State Fault Refusal :=
  answer s (okPath path) (settle (rowAccess s path Reg.DBG_HALT (v % 128 + 0x200) true))
/-- STEP: DBG_HALT with action 0b11. -/
def execStep (path v : Nat) (s : State) : Host.Outcome State Fault Refusal :=
  answer s (okPath path) (settle (rowAccess s path Reg.DBG_HALT (v % 128 + 0x300) true))
/-- DBG_MDATA_READ. -/
def execDbgMdataRead (path : Nat) (s : State) : Host.Outcome State Fault Refusal :=
  answer s (okPath path) (rowAccess s path Reg.DBG_MDATA 0 false)
/-- DBG_MDATA_WRITE. -/
def execDbgMdataWrite (path v : Nat) (s : State) : Host.Outcome State Fault Refusal :=
  answer s (okPath path) (settle (rowAccess s path Reg.DBG_MDATA v true))
/-- DBG_TRCDATA_READ. -/
def execDbgTrcdataRead (path : Nat) (s : State) : Host.Outcome State Fault Refusal :=
  answer s (okPath path) (rowAccess s path Reg.DBG_TRCDATA 0 false)

/-- Do the log-read registers answer (R528): before READY and in every power state but P5? -/
def logOpen (s : State) : Bool := s.pwr.st != 5 && s.rel.upd != 3 && (!s.boot.recovery || s.boot.ready || decide (1 ≤ s.dbg.level))

/-- LOG_DATA_READ. -/
def execLogDataRead (s : State) : Host.Outcome State Fault Refusal :=
  answer s true (if logOpen s then (logDataRead s).2.readOut (logDataRead s).1 else s)

/-! ### UPDATE_HANDOVER (R530) -/

/-- The accesses held during a handover are served in arrival order. Log entry 95, DEDUCED. -/
def serveWaiting (s : State) : State :=
  s.mgmt.waiting.foldl (fun s x =>
    pathAccess s x.1 x.2.1 x.2.2.1 x.2.2.2) { s with mgmt := { s.mgmt with waiting := [] } }

/-- UPDATE_HANDOVER: in Control, once no commit is pending, the new control firmware takes over. -/
def execUpdateHandover (s : State) : Host.Outcome State Fault Refusal :=
  answer s true (if s.rel.upd = 3 ∧ s.mgmt.commits = [] then settle (serveWaiting (updTakeOver s)) else s)

end Sys2Proof.Machine
end

