-- ==== Sys2Proof/Machine/Package.lean ====
section
/-! DEFINITION. Rails, reference clocks and sensors of the package (R559 to R574). -/

namespace Sys2Proof.Machine

open Sys2Proof

/-- A flag of SUP_EVENTS is set: 0 REFSW, 1 VINDIP, 2 VINUV. -/
def supEvent (s : State) (k : Nat) : State := s.setField Reg.SUP_EVENTS k k 1

/-- SUP_EVENTS_CLEAR: a write of `v` to SUP_EVENTS. -/
def execSupEventsClear (v : Nat) (s : State) : Host.Outcome State Fault Refusal :=
  answer s true (whenOpen s Reg.SUP_EVENTS (eventsClear s v))

/-! ### Reference clocks (R565) -/

/-- REFCLK0 shows no edge: the device moves to REFCLK1 while that one runs, and stays there. Log entry 96, DESIGN CHOICE. -/
def refclk0Loss (s : State) : State :=
  if s.sup.ref0Lost then s
  else
    let s := { s with sup := { s.sup with ref0Lost := true } }
    if s.sup.refUsed = 0 ∧ !s.sup.ref1Lost then supEvent { s with sup := { s.sup with refUsed := 1 } } 0 else s

/-- REFCLK0_LOSS. -/
def execRefclk0Loss (s : State) : Host.Outcome State Fault Refusal := answerSupply s (refclk0Loss s)

/-- REFCLK_BOTH_LOST: P5 on the internal oscillator. -/
def execRefclkBothLost (s : State) : Host.Outcome State Fault Refusal :=
  answerSupply s (let s := enterP5 s; { s with sup := { s.sup with ref0Lost := true, ref1Lost := true } })

/-- REFCLK1_LOSS: while REFCLK0 runs, REFCLK1 stops or shows edges again. Log entry 96, DESIGN CHOICE. -/
def execRefclk1Loss (s : State) : Host.Outcome State Fault Refusal :=
  answerSupply s (if s.sup.ref0Lost then s else { s with sup := { s.sup with ref1Lost := !s.sup.ref1Lost } })

/-! ### Rails (R562, R573) -/

/-- VIN_UNDERVOLTAGE: while VAUX is in regulation the device enters P5, with VINUV. -/
def execVinUndervoltage (s : State) : Host.Outcome State Fault Refusal :=
  answerSupply s (if !s.sup.vauxOk then s else
    let s := enterP5 s
    supEvent { s with sup := { s.sup with vinOk := false } } 2)

/-- VAUX falls: the whole device resets, and only a power-up brings it back. Log entry 96, DESIGN CHOICE. -/
def vauxUndervoltage (s : State) : State :=
  { resetAll s with
    regs := []
    sup := { s.sup with vauxOk := false, keep := [], refUsed := 0, ref0Lost := false, ref1Lost := false }
    pwr := { st := 5 } }

/-- VAUX_UNDERVOLTAGE. -/
def execVauxUndervoltage (s : State) : Host.Outcome State Fault Refusal := answerSupply s (vauxUndervoltage s)

/-- VIN_DIP: VIN leaves regulation, with VINDIP, or returns. Log entry 96, DESIGN CHOICE. -/
def execVinDip (s : State) : Host.Outcome State Fault Refusal :=
  answerSupply s (
    let t := { s with sup := { s.sup with vinOk := !s.sup.vinOk } }
    if s.sup.vinOk then supEvent t 1 else t)

/-- VIO_UNDERVOLTAGE: VIO falls below its level or returns into regulation. Log entry 96, DESIGN CHOICE. -/
def execVioUndervoltage (s : State) : Host.Outcome State Fault Refusal :=
  answerSupply s { s with sup := { s.sup with vioOk := !s.sup.vioOk } }

/-! ### Sensors (R569, R571) -/

/-- STACK_TEMPERATURE_READ: the temperatures of the twelve DRAM dies of a bay's stack. -/
def execStackTemperatureRead (b : Nat) (temps : List Nat) (s : State) : Host.Outcome State Fault Refusal :=
  answer s (okBay b) (if !s.baysOn || s.pwr.st == 5 then s
    else if 110 ≤ (hottest (temps.take 12)).1 then thermalTrip s else settle (stackTemp s b temps))

/-- A port of a window die whose lasers turn off at 85 °C: it goes Dark, and its traffic to failover. -/
def laserOff (s : State) (p : Nat) : State :=
  let x := s.port p
  let s := s.modPort p (fun x => { x with laserHot := true, laser := false })
  if x.st = 0 then s
  else
    let s := setPortSt s p 1
    if x.st == 8 || x.drain.isSome then checkHost (failover s p) p else s

/-- A port whose lasers lock again below 75 °C. -/
def laserOn (s : State) (p : Nat) : State :=
  s.modPort p (fun x => { x with laserHot := false, laser := x.st != 0 })

/-- The hottest laser source of a die among those read. -/
def laserTemp (rep : Sensors) (k : Nat) : Option Nat :=
  match (rep.lasers.filter (fun e => e.1 == k)).map (·.2) with
  | [] => none
  | t :: ts => some (ts.foldl max t)

/-- The laser sources of window die `k` are read. The row of the log entry's DETAIL1 is a free value: neither table it names
has one for lasers (log entry 35, DESIGN CHOICE). -/
def laserRead (s : State) (rep : Sensors) (k : Nat) : State :=
  match laserTemp rep k with
  | none => s
  | some t =>
    let s := s.setReg (Reg.WIN_TEMP k) (t % 256)
    let ports := (List.range 4).map (· + 4 * k)
    let hot := ports.any (fun p => (s.port p).laserHot)
    if 85 ≤ t ∧ !hot then
      let s := ports.foldl laserOff s
      let (n, s) := s.pick (2 ^ 32)
      logE s 0x12 6 k 0 0 n
    else if t < 75 ∧ hot then ports.foldl laserOn s
    else s

/-- The hottest die of all (SUP_TEMP). Log entry 97, DEDUCED. -/
def hottestDie (s : State) (rep : Sensors) : Nat :=
  let tjs := (List.range 16).map (fun b => s.regN (tjReg b) / 2 ^ (8 * (b % 4)) % 256)
  let mems := (List.range 16).map (fun b => s.regN (Reg.MEM_TEMP b) % 256)
  let wins := (List.range 8).map (fun k => s.regN (Reg.WIN_TEMP k) % 256)
  (tjs ++ mems ++ wins ++ rep.lasers.map (·.2) ++ rep.lintels.map (·.2) ++ [rep.ctl, rep.sup]).foldl max 0

/-- Rails and input power as read; SUP_PIN keeps the highest since reset. -/
def railRead (s : State) (e : Nat × Nat) : State :=
  if e.1 = 4 then s.setReg Reg.SUP_VIN e.2
  else if e.1 = 8 then
    let w := e.2 % 65536
    s.setReg Reg.SUP_PIN (w + max w (s.regN Reg.SUP_PIN / 65536) * 65536)
  else if e.1 = 0xC then s.setReg Reg.SUP_VAUX e.2
  else s

/-- SENSOR_READ. Log entry 97, DEDUCED. -/
def sensorRead (s : State) (rep : Sensors) : State :=
  if s.pwr.st = 5 then s
  else if (rep.lasers.map (·.2) ++ rep.lintels.map (·.2) ++ [rep.ctl, rep.sup]).any (fun t => decide (110 ≤ t)) then thermalTrip s
  else
    let s := if s.rimOn then (List.range 8).foldl (fun s k => laserRead s rep k) s else s
    let s := rep.rails.foldl railRead s
    let lint := (rep.lintels.map (·.2)).foldl max 0
    settle (s.setReg Reg.SUP_TEMP (rep.sup % 256 + rep.ctl % 256 * 2 ^ 8 + lint % 256 * 2 ^ 16 + hottestDie s rep % 256 * 2 ^ 24))

/-- SENSOR_READ. -/
def execSensorRead (rep : Sensors) (s : State) : Host.Outcome State Fault Refusal := answer s true (sensorRead s rep)

/-! ### Device time -/

/-- A nanosecond passes with no command waiting (R8; log entry 1, DESIGN CHOICE); in P5 device time does not run. Log entry 112, DESIGN CHOICE. -/
def tick (s : State) : State := if s.pwr.st = 5 then s else { s with devTime := (s.devTime + 1) % 2 ^ 64 }

end Sys2Proof.Machine
end

