-- ==== Sys2Proof/Machine/Dispatch.lean ====
section
/-! DEFINITION. The one case split over the commands: each arm calls the meaning of its row. -/

namespace Sys2Proof.Machine

open Sys2Proof

/-- A command's effect on everything but the queue. Log entry 5, DESIGN CHOICE. -/
def exec (i : Instr) (s : State) : Host.Outcome State Fault Refusal :=
  match i with
  | .arrayClockStep b => Sys2Proof.Machine.execArrayClockStep b s
  | .bayDoorbell b v => Sys2Proof.Machine.execBayDoorbell b v s
  | .taskFetch b => Sys2Proof.Machine.execTaskFetch b s
  | .nop pane c => Sys2Proof.Machine.execNop pane c s
  | .fence pane c => Sys2Proof.Machine.execFence pane c s
  | .signal pane c => Sys2Proof.Machine.execSignal pane c s
  | .wait pane c => Sys2Proof.Machine.execWait pane c s
  | .take pane c => Sys2Proof.Machine.execTake pane c s
  | .endList pane c => Sys2Proof.Machine.execEndList pane c s
  | .commandTimeLimit pane eng => Sys2Proof.Machine.execCommandTimeLimit pane eng s
  | .memoryChannelSlot b ch upsets => Sys2Proof.Machine.execMemoryChannelSlot b ch upsets s
  | .lintelPortSlot b lintel inward bad => Sys2Proof.Machine.execLintelPortSlot b lintel inward bad s
  | .scratchpadBankSlot pane bank req => Sys2Proof.Machine.execScratchpadBankSlot pane bank req s
  | .accumulatorPortSlot pane port req => Sys2Proof.Machine.execAccumulatorPortSlot pane port req s
  | .bayEngineCommandSlot b eng => Sys2Proof.Machine.execBayEngineCommandSlot b eng s
  | .switchDrained pane => Sys2Proof.Machine.execSwitchDrained pane s
  | .switchSaveDone pane => Sys2Proof.Machine.execSwitchSaveDone pane s
  | .switchRestoreDone pane => Sys2Proof.Machine.execSwitchRestoreDone pane s
  | .baySlotdataWrite b v => Sys2Proof.Machine.execBaySlotdataWrite b v s
  | .baySlotdataRead b => Sys2Proof.Machine.execBaySlotdataRead b s
  | .paneSlotdataRead pane => Sys2Proof.Machine.execPaneSlotdataRead pane s
  | .bayQerrClear b v => Sys2Proof.Machine.execBayQerrClear b v s
  | .matmul pane c => Sys2Proof.Machine.execMatmul pane c s
  | .matmulResultWrite pane => Sys2Proof.Machine.execMatmulResultWrite pane s
  | .drain pane c => Sys2Proof.Machine.execDrain pane c s
  | .encode pane c => Sys2Proof.Machine.execEncode pane c s
  | .chstep pane c => Sys2Proof.Machine.execChstep pane c s
  | .chainRecordLand b => Sys2Proof.Machine.execChainRecordLand b s
  | .gather pane c => Sys2Proof.Machine.execGather pane c s
  | .seggather pane c => Sys2Proof.Machine.execSeggather pane c s
  | .degscan pane c => Sys2Proof.Machine.execDegscan pane c s
  | .seqstage pane c => Sys2Proof.Machine.execSeqstage pane c s
  | .seqsoft pane c => Sys2Proof.Machine.execSeqsoft pane c s
  | .narrowReadReturn pane k => Sys2Proof.Machine.execNarrowReadReturn pane k s
  | .sash pane c => Sys2Proof.Machine.execSash pane c s
  | .reduce pane c => Sys2Proof.Machine.execReduce pane c s
  | .tabulate pane c => Sys2Proof.Machine.execTabulate pane c s
  | .lineUpdate b => Sys2Proof.Machine.execLineUpdate b s
  | .tlookup pane c => Sys2Proof.Machine.execTlookup pane c s
  | .tprefetch pane c => Sys2Proof.Machine.execTprefetch pane c s
  | .tgrad pane c => Sys2Proof.Machine.execTgrad pane c s
  | .tstepApply pane c => Sys2Proof.Machine.execTstepApply pane c s
  | .tstepRefresh pane c => Sys2Proof.Machine.execTstepRefresh pane c s
  | .trepl pane c => Sys2Proof.Machine.execTrepl pane c s
  | .tmigrate pane c => Sys2Proof.Machine.execTmigrate pane c s
  | .trowwrite pane c => Sys2Proof.Machine.execTrowwrite pane c s
  | .rowRequest b => Sys2Proof.Machine.execRowRequest b s
  | .rowResponse b => Sys2Proof.Machine.execRowResponse b s
  | .contribution b => Sys2Proof.Machine.execContribution b s
  | .migrationCopyDone b => Sys2Proof.Machine.execMigrationCopyDone b s
  | .teCtrclr b v => Sys2Proof.Machine.execTeCtrclr b v s
  | .sopen pane c => Sys2Proof.Machine.execSopen pane c s
  | .srelease pane c => Sys2Proof.Machine.execSrelease pane c s
  | .spost pane c => Sys2Proof.Machine.execSpost pane c s
  | .scancel pane c => Sys2Proof.Machine.execScancel pane c s
  | .blockDelivered pane st => Sys2Proof.Machine.execBlockDelivered pane st s
  | .streamSlip pane st => Sys2Proof.Machine.execStreamSlip pane st s
  | .seStrdataRead pane => Sys2Proof.Machine.execSeStrdataRead pane s
  | .marginMonitorLow b ch => Sys2Proof.Machine.execMarginMonitorLow b ch s
  | .shutterStart b => Sys2Proof.Machine.execShutterStart b s
  | .shutterEnd b => Sys2Proof.Machine.execShutterEnd b s
  | .retrainingFailure b => Sys2Proof.Machine.execRetrainingFailure b s
  | .memRqtailWrite b v => Sys2Proof.Machine.execMemRqtailWrite b v s
  | .memRack b v => Sys2Proof.Machine.execMemRack b v s
  | .memSvcRetrain b ch => Sys2Proof.Machine.execMemSvcRetrain b ch s
  | .memSvcSelfTest b ch => Sys2Proof.Machine.execMemSvcSelfTest b ch s
  | .memSvcDeclareFailed b ch => Sys2Proof.Machine.execMemSvcDeclareFailed b ch s
  | .evacuationCopyDone b => Sys2Proof.Machine.execEvacuationCopyDone b s
  | .stackTemperatureRead b temps => Sys2Proof.Machine.execStackTemperatureRead b temps s
  | .pageWalkLine b k => Sys2Proof.Machine.execPageWalkLine b k s
  | .walkrsp b => Sys2Proof.Machine.execWalkrsp b s
  | .companionWalkTimeout b k => Sys2Proof.Machine.execCompanionWalkTimeout b k s
  | .inval b => Sys2Proof.Machine.execInval b s
  | .invack b => Sys2Proof.Machine.execInvack b s
  | .xltFresolve v => Sys2Proof.Machine.execXltFresolve v s
  | .xltFntailWrite v => Sys2Proof.Machine.execXltFntailWrite v s
  | .xltMptailWrite v => Sys2Proof.Machine.execXltMptailWrite v s
  | .migrationStart => Sys2Proof.Machine.execMigrationStart s
  | .migrationStepDone => Sys2Proof.Machine.execMigrationStepDone s
  | .xltFlushTlb b => Sys2Proof.Machine.execXltFlushTlb b s
  | .xltFlushOwner b => Sys2Proof.Machine.execXltFlushOwner b s
  | .taskComplete pane => Sys2Proof.Machine.execTaskComplete pane s
  | .dspTftailWrite b v => Sys2Proof.Machine.execDspTftailWrite b v s
  | .sliceExpiry pane => Sys2Proof.Machine.execSliceExpiry pane s
  | .blockedSwitch pane => Sys2Proof.Machine.execBlockedSwitch pane s
  | .contextReset b v => Sys2Proof.Machine.execContextReset b v s
  | .contextResetDone => Sys2Proof.Machine.execContextResetDone s
  | .signalApply b => Sys2Proof.Machine.execSignalApply b s
  | .waitTimeout b k => Sys2Proof.Machine.execWaitTimeout b k s
  | .synCreate b v => Sys2Proof.Machine.execSynCreate b v s
  | .synDestroy b v => Sys2Proof.Machine.execSynDestroy b v s
  | .synSetValue b v => Sys2Proof.Machine.execSynSetValue b v s
  | .winPctrlRetrain p => Sys2Proof.Machine.execWinPctrlRetrain p s
  | .winPctrlReplaceLane p lane => Sys2Proof.Machine.execWinPctrlReplaceLane p lane s
  | .winPctrlDisable p => Sys2Proof.Machine.execWinPctrlDisable p s
  | .winPctrlEnable p => Sys2Proof.Machine.execWinPctrlEnable p s
  | .lightDetected p lanes => Sys2Proof.Machine.execLightDetected p lanes s
  | .darkRetry p => Sys2Proof.Machine.execDarkRetry p s
  | .ringsTuned p => Sys2Proof.Machine.execRingsTuned p s
  | .clockLock p lanes => Sys2Proof.Machine.execClockLock p lanes s
  | .lockTimeout p => Sys2Proof.Machine.execLockTimeout p s
  | .trainingWord p lane w => Sys2Proof.Machine.execTrainingWord p lane w s
  | .codeword p errs => Sys2Proof.Machine.execCodeword p errs s
  | .flitReceive p flit => Sys2Proof.Machine.execFlitReceive p flit s
  | .flitSend p => Sys2Proof.Machine.execFlitSend p s
  | .replayTimeout p => Sys2Proof.Machine.execReplayTimeout p s
  | .laneFault p lane lost => Sys2Proof.Machine.execLaneFault p lane lost s
  | .lightLost p lanes => Sys2Proof.Machine.execLightLost p lanes s
  | .drainDone p => Sys2Proof.Machine.execDrainDone p s
  | .drainTimeout p => Sys2Proof.Machine.execDrainTimeout p s
  | .flowRelease b => Sys2Proof.Machine.execFlowRelease b s
  | .rdreq b => Sys2Proof.Machine.execRdreq b s
  | .wrreq b => Sys2Proof.Machine.execWrreq b s
  | .atomic b => Sys2Proof.Machine.execAtomic b s
  | .rdresp b => Sys2Proof.Machine.execRdresp b s
  | .wrack b => Sys2Proof.Machine.execWrack b s
  | .atack b => Sys2Proof.Machine.execAtack b s
  | .lkreq b => Sys2Proof.Machine.execLkreq b s
  | .lkresp b => Sys2Proof.Machine.execLkresp b s
  | .grad b => Sys2Proof.Machine.execGrad b s
  | .grack b => Sys2Proof.Machine.execGrack b s
  | .chrec b => Sys2Proof.Machine.execChrec b s
  | .signalMessage b => Sys2Proof.Machine.execSignalMessage b s
  | .tesvc b => Sys2Proof.Machine.execTesvc b s
  | .failover p => Sys2Proof.Machine.execFailover p s
  | .remoteTimeout b k => Sys2Proof.Machine.execRemoteTimeout b k s
  | .xeRtflush b v => Sys2Proof.Machine.execXeRtflush b v s
  | .crds f => Sys2Proof.Machine.execCrds f s
  | .crdo f => Sys2Proof.Machine.execCrdo f s
  | .crdu f => Sys2Proof.Machine.execCrdu f s
  | .cwr f => Sys2Proof.Machine.execCwr f s
  | .cwb f => Sys2Proof.Machine.execCwb f s
  | .cevict f => Sys2Proof.Machine.execCevict f s
  | .snprsp f => Sys2Proof.Machine.execSnprsp f s
  | .snoopTimeout b k => Sys2Proof.Machine.execSnoopTimeout b k s
  | .doorbell f => Sys2Proof.Machine.execDoorbell f s
  | .mgrd f => Sys2Proof.Machine.execMgrd f s
  | .mgwr f => Sys2Proof.Machine.execMgwr f s
  | .companionTimeout b k => Sys2Proof.Machine.execCompanionTimeout b k s
  | .flxMsictlWrite vec v => Sys2Proof.Machine.execFlxMsictlWrite vec v s
  | .ctlIrqtest v => Sys2Proof.Machine.execCtlIrqtest v s
  | .check pane c => Sys2Proof.Machine.execCheck pane c s
  | .powerUp chip smba recoverN => Sys2Proof.Machine.execPowerUp chip smba recoverN s
  | .pinReset chip smba recoverN => Sys2Proof.Machine.execPinReset chip smba recoverN s
  | .restart path => Sys2Proof.Machine.execRestart path s
  | .recovery path => Sys2Proof.Machine.execRecovery path s
  | .bootDirectoryRead => Sys2Proof.Machine.execBootDirectoryRead s
  | .slotVerifyDone => Sys2Proof.Machine.execSlotVerifyDone s
  | .bringUpStepsDone rep => Sys2Proof.Machine.execBringUpStepsDone rep s
  | .lasersLocked faulted => Sys2Proof.Machine.execLasersLocked faulted s
  | .exchangeTrainingTimeout => Sys2Proof.Machine.execExchangeTrainingTimeout s
  | .folluxTrainingTimeout => Sys2Proof.Machine.execFolluxTrainingTimeout s
  | .ctlCommit v => Sys2Proof.Machine.execCtlCommit v s
  | .commitApply tgt => Sys2Proof.Machine.execCommitApply tgt s
  | .secNewNonce => Sys2Proof.Machine.execSecNewNonce s
  | .secLoadToken path => Sys2Proof.Machine.execSecLoadToken path s
  | .secLeaveService => Sys2Proof.Machine.execSecLeaveService s
  | .secAttest => Sys2Proof.Machine.execSecAttest s
  | .secCertificate => Sys2Proof.Machine.execSecCertificate s
  | .secEnrol => Sys2Proof.Machine.execSecEnrol s
  | .secTokdata v => Sys2Proof.Machine.execSecTokdata v s
  | .serviceEnd => Sys2Proof.Machine.execServiceEnd s
  | .secFpdataWrite v => Sys2Proof.Machine.execSecFpdataWrite v s
  | .secFpdataRead => Sys2Proof.Machine.execSecFpdataRead s
  | .flashErase => Sys2Proof.Machine.execFlashErase s
  | .flashProgram => Sys2Proof.Machine.execFlashProgram s
  | .dbgReq path v => Sys2Proof.Machine.execDbgReq path v s
  | .halt path v => Sys2Proof.Machine.execHalt path v s
  | .resume path v => Sys2Proof.Machine.execResume path v s
  | .step path v => Sys2Proof.Machine.execStep path v s
  | .dbgMdataRead path => Sys2Proof.Machine.execDbgMdataRead path s
  | .dbgMdataWrite path v => Sys2Proof.Machine.execDbgMdataWrite path v s
  | .dbgFdata path v => Sys2Proof.Machine.execDbgFdata path v s
  | .dbgTrcdataRead path => Sys2Proof.Machine.execDbgTrcdataRead path s
  | .pwrReq v => Sys2Proof.Machine.execPwrReq v s
  | .powerTransitionDone => Sys2Proof.Machine.execPowerTransitionDone s
  | .junctionSensorRead b temp => Sys2Proof.Machine.execJunctionSensorRead b temp s
  | .targetedSelfTest k => Sys2Proof.Machine.execTargetedSelfTest k s
  | .selfTestVerdict k lasting repairable => Sys2Proof.Machine.execSelfTestVerdict k lasting repairable s
  | .domainResetDone dkind inst => Sys2Proof.Machine.execDomainResetDone dkind inst s
  | .logDataRead => Sys2Proof.Machine.execLogDataRead s
  | .updateStart => Sys2Proof.Machine.execUpdateStart s
  | .updateAbort => Sys2Proof.Machine.execUpdateAbort s
  | .updateVerifyDone => Sys2Proof.Machine.execUpdateVerifyDone s
  | .updateWriteDone ok => Sys2Proof.Machine.execUpdateWriteDone ok s
  | .updateHandover => Sys2Proof.Machine.execUpdateHandover s
  | .linkFirmwarePortDone => Sys2Proof.Machine.execLinkFirmwarePortDone s
  | .panesvcSelfTest n => Sys2Proof.Machine.execPanesvcSelfTest n s
  | .panesvcReplace n => Sys2Proof.Machine.execPanesvcReplace n s
  | .smbusRead a => Sys2Proof.Machine.execSmbusRead a s
  | .smbusWrite a v => Sys2Proof.Machine.execSmbusWrite a v s
  | .smbusTimeout a wr => Sys2Proof.Machine.execSmbusTimeout a wr s
  | .dbgacc a v wr => Sys2Proof.Machine.execDbgacc a v wr s
  | .ctlTimeLoRead path => Sys2Proof.Machine.execCtlTimeLoRead path s
  | .registerWrite path a v => Sys2Proof.Machine.execRegisterWrite path a v s
  | .supEventsClear v => Sys2Proof.Machine.execSupEventsClear v s
  | .refclk0Loss => Sys2Proof.Machine.execRefclk0Loss s
  | .refclkBothLost => Sys2Proof.Machine.execRefclkBothLost s
  | .vinUndervoltage => Sys2Proof.Machine.execVinUndervoltage s
  | .vauxUndervoltage => Sys2Proof.Machine.execVauxUndervoltage s
  | .sensorRead rep => Sys2Proof.Machine.execSensorRead rep s
  | .vinDip => Sys2Proof.Machine.execVinDip s
  | .vioUndervoltage => Sys2Proof.Machine.execVioUndervoltage s
  | .refclk1Loss => Sys2Proof.Machine.execRefclk1Loss s
  | .secCommandComplete => Sys2Proof.Machine.execSecCommandComplete s
  | .flashOperationComplete ok => Sys2Proof.Machine.execFlashOperationComplete ok s
  | .extest drive => Sys2Proof.Machine.execExtest drive s

end Sys2Proof.Machine
end

