-- ==== Sys2Proof/WellFormed.lean ====
section
/-! DEFINITION. Which operands the commands of the package can carry: the ranges of Table 1-1 for the instances a command
names, 32 bits for a register value or window address, 256 bytes for an engine command (R48), and the field widths of what the
block reads from its sensors, pins and lines. -/

namespace Sys2Proof

/-- Every key of a list lies below a bound. -/
def keysBelow (n : Nat) (l : List (Nat × Nat)) : Bool := l.all (fun e => decide (e.1 < n))

/-- Instances of a fault domain of a kind (Table 17-1): panes, bays, stacks, lintels, ports, window dies, Follux dies, the
device. -/
def domainCount (dkind : Nat) : Nat := [0, 144, 16, 16, 4, 34, 8, 2, 1].getD dkind 0

/-- Is every operand of a command one that the package can carry? -/
def Instr.wellFormed : Instr → Bool
  | .arrayClockStep b => decide (b < 16)
  | .bayDoorbell b v => decide (b < 16) && decide (v < 2 ^ 32)
  | .taskFetch b => decide (b < 16)
  | .nop i c => decide (i < 144) && decide (c < 2 ^ 2048)
  | .fence i c => decide (i < 144) && decide (c < 2 ^ 2048)
  | .signal i c => decide (i < 144) && decide (c < 2 ^ 2048)
  | .wait i c => decide (i < 144) && decide (c < 2 ^ 2048)
  | .take i c => decide (i < 144) && decide (c < 2 ^ 2048)
  | .endList i c => decide (i < 144) && decide (c < 2 ^ 2048)
  | .commandTimeLimit i eng => decide (i < 144) && decide (eng < 8)
  | .memoryChannelSlot b ch upsets => decide (b < 16) && decide (ch < 32) && keysBelow (2 ^ 52) upsets && upsets.all (fun e => decide (e.2 < 2 ^ 39))
  | .lintelPortSlot b lintel _ _ => decide (b < 16) && decide (lintel < 4)
  | .scratchpadBankSlot i bank _ => decide (i < 144) && decide (bank < 32)
  | .accumulatorPortSlot i port _ => decide (i < 144) && decide (port < 2)
  | .bayEngineCommandSlot b eng => decide (b < 16) && decide (5 ≤ eng ∧ eng ≤ 7)
  | .switchDrained i => decide (i < 144)
  | .switchSaveDone i => decide (i < 144)
  | .switchRestoreDone i => decide (i < 144)
  | .baySlotdataWrite b v => decide (b < 16) && decide (v < 2 ^ 32)
  | .baySlotdataRead b => decide (b < 16)
  | .paneSlotdataRead i => decide (i < 144)
  | .bayQerrClear b v => decide (b < 16) && decide (v < 2 ^ 32)
  | .matmul i c => decide (i < 144) && decide (c < 2 ^ 2048)
  | .matmulResultWrite i => decide (i < 144)
  | .drain i c => decide (i < 144) && decide (c < 2 ^ 2048)
  | .encode i c => decide (i < 144) && decide (c < 2 ^ 2048)
  | .chstep i c => decide (i < 144) && decide (c < 2 ^ 2048)
  | .chainRecordLand b => decide (b < 16)
  | .gather i c => decide (i < 144) && decide (c < 2 ^ 2048)
  | .seggather i c => decide (i < 144) && decide (c < 2 ^ 2048)
  | .degscan i c => decide (i < 144) && decide (c < 2 ^ 2048)
  | .seqstage i c => decide (i < 144) && decide (c < 2 ^ 2048)
  | .seqsoft i c => decide (i < 144) && decide (c < 2 ^ 2048)
  | .narrowReadReturn i _ => decide (i < 144)
  | .sash i c => decide (i < 144) && decide (c < 2 ^ 2048)
  | .reduce i c => decide (i < 144) && decide (c < 2 ^ 2048)
  | .tabulate i c => decide (i < 144) && decide (c < 2 ^ 2048)
  | .lineUpdate b => decide (b < 16)
  | .tlookup i c => decide (i < 144) && decide (c < 2 ^ 2048)
  | .tprefetch i c => decide (i < 144) && decide (c < 2 ^ 2048)
  | .tgrad i c => decide (i < 144) && decide (c < 2 ^ 2048)
  | .tstepApply i c => decide (i < 144) && decide (c < 2 ^ 2048)
  | .tstepRefresh i c => decide (i < 144) && decide (c < 2 ^ 2048)
  | .trepl i c => decide (i < 144) && decide (c < 2 ^ 2048)
  | .tmigrate i c => decide (i < 144) && decide (c < 2 ^ 2048)
  | .trowwrite i c => decide (i < 144) && decide (c < 2 ^ 2048)
  | .rowRequest b => decide (b < 16)
  | .rowResponse b => decide (b < 16)
  | .contribution b => decide (b < 16)
  | .migrationCopyDone b => decide (b < 16)
  | .teCtrclr b v => decide (b < 16) && decide (v < 2 ^ 32)
  | .sopen i c => decide (i < 144) && decide (c < 2 ^ 2048)
  | .srelease i c => decide (i < 144) && decide (c < 2 ^ 2048)
  | .spost i c => decide (i < 144) && decide (c < 2 ^ 2048)
  | .scancel i c => decide (i < 144) && decide (c < 2 ^ 2048)
  | .blockDelivered i st => decide (i < 144) && decide (st < 16)
  | .streamSlip i st => decide (i < 144) && decide (st < 16)
  | .seStrdataRead i => decide (i < 144)
  | .marginMonitorLow b ch => decide (b < 16) && decide (ch < 32)
  | .shutterStart b => decide (b < 16)
  | .shutterEnd b => decide (b < 16)
  | .retrainingFailure b => decide (b < 16)
  | .memRqtailWrite b v => decide (b < 16) && decide (v < 2 ^ 32)
  | .memRack b v => decide (b < 16) && decide (v < 2 ^ 32)
  | .memSvcRetrain b ch => decide (b < 16) && decide (ch < 32)
  | .memSvcSelfTest b ch => decide (b < 16) && decide (ch < 32)
  | .memSvcDeclareFailed b ch => decide (b < 16) && decide (ch < 32)
  | .evacuationCopyDone b => decide (b < 16)
  | .stackTemperatureRead b _ => decide (b < 16)
  | .pageWalkLine b _ => decide (b < 16)
  | .walkrsp b => decide (b < 16)
  | .companionWalkTimeout b _ => decide (b < 16)
  | .inval b => decide (b < 16)
  | .invack b => decide (b < 16)
  | .xltFresolve v => decide (v < 2 ^ 32)
  | .xltFntailWrite v => decide (v < 2 ^ 32)
  | .xltMptailWrite v => decide (v < 2 ^ 32)
  | .migrationStart => true
  | .migrationStepDone => true
  | .xltFlushTlb b => decide (b < 16)
  | .xltFlushOwner b => decide (b < 16)
  | .taskComplete i => decide (i < 144)
  | .dspTftailWrite b v => decide (b < 16) && decide (v < 2 ^ 32)
  | .sliceExpiry i => decide (i < 144)
  | .blockedSwitch i => decide (i < 144)
  | .contextReset b v => decide (b < 16) && decide (v < 2 ^ 32)
  | .contextResetDone => true
  | .signalApply b => decide (b < 16)
  | .waitTimeout b _ => decide (b < 16)
  | .synCreate b v => decide (b < 16) && decide (v < 2 ^ 32)
  | .synDestroy b v => decide (b < 16) && decide (v < 2 ^ 32)
  | .synSetValue b v => decide (b < 16) && decide (v < 2 ^ 32)
  | .winPctrlRetrain p => decide (p < 34)
  | .winPctrlReplaceLane p _ => decide (p < 34)
  | .winPctrlDisable p => decide (p < 34)
  | .winPctrlEnable p => decide (p < 34)
  | .lightDetected p lanes => decide (p < 34) && decide (lanes < 2 ^ 18)
  | .darkRetry p => decide (p < 34)
  | .ringsTuned p => decide (p < 34)
  | .clockLock p lanes => decide (p < 34) && decide (lanes < 2 ^ 18)
  | .lockTimeout p => decide (p < 34)
  | .trainingWord p _ w => decide (p < 34) && decide (w < 2 ^ 128)
  | .codeword p errs => decide (p < 34) && errs.all (fun e => decide (e.1 < 544 ∧ e.2 < 1024))
  | .flitReceive p flit => decide (p < 34) && decide (flit < 2 ^ 2048)
  | .flitSend p => decide (p < 34)
  | .replayTimeout p => decide (p < 34)
  | .laneFault p _ _ => decide (p < 34)
  | .lightLost p lanes => decide (p < 34) && decide (lanes < 2 ^ 18)
  | .drainDone p => decide (p < 34)
  | .drainTimeout p => decide (p < 34)
  | .flowRelease b => decide (b < 16)
  | .rdreq b => decide (b < 16)
  | .wrreq b => decide (b < 16)
  | .atomic b => decide (b < 16)
  | .rdresp b => decide (b < 16)
  | .wrack b => decide (b < 16)
  | .atack b => decide (b < 16)
  | .lkreq b => decide (b < 16)
  | .lkresp b => decide (b < 16)
  | .grad b => decide (b < 16)
  | .grack b => decide (b < 16)
  | .chrec b => decide (b < 16)
  | .signalMessage b => decide (b < 16)
  | .tesvc b => decide (b < 16)
  | .failover p => decide (p < 34)
  | .remoteTimeout b _ => decide (b < 16)
  | .xeRtflush b v => decide (b < 16) && decide (v < 2 ^ 32)
  | .crds f => decide (f < 2)
  | .crdo f => decide (f < 2)
  | .crdu f => decide (f < 2)
  | .cwr f => decide (f < 2)
  | .cwb f => decide (f < 2)
  | .cevict f => decide (f < 2)
  | .snprsp f => decide (f < 2)
  | .snoopTimeout b _ => decide (b < 16)
  | .doorbell f => decide (f < 2)
  | .mgrd f => decide (f < 2)
  | .mgwr f => decide (f < 2)
  | .companionTimeout b _ => decide (b < 16)
  | .flxMsictlWrite vec v => decide (vec ≤ 50) && decide (v < 2 ^ 32)
  | .ctlIrqtest v => decide (v < 2 ^ 32)
  | .check i c => decide (i < 144) && decide (c < 2 ^ 2048)
  | .powerUp chip smba recoverN => decide (chip < 4096) && decide (smba < 4) && decide (recoverN < 2)
  | .pinReset chip smba recoverN => decide (chip < 4096) && decide (smba < 4) && decide (recoverN < 2)
  | .restart path => decide (1 ≤ path ∧ path ≤ 3)
  | .recovery path => decide (1 ≤ path ∧ path ≤ 3)
  | .bootDirectoryRead => true
  | .slotVerifyDone => true
  | .bringUpStepsDone _ => true
  | .lasersLocked _ => true
  | .exchangeTrainingTimeout => true
  | .folluxTrainingTimeout => true
  | .ctlCommit v => decide (v < 2 ^ 32)
  | .commitApply _ => true
  | .secNewNonce => true
  | .secLoadToken path => decide (1 ≤ path ∧ path ≤ 3)
  | .secLeaveService => true
  | .secAttest => true
  | .secCertificate => true
  | .secEnrol => true
  | .secTokdata v => decide (v < 2 ^ 32)
  | .serviceEnd => true
  | .secFpdataWrite v => decide (v < 2 ^ 32)
  | .secFpdataRead => true
  | .flashErase => true
  | .flashProgram => true
  | .dbgReq path v => decide (1 ≤ path ∧ path ≤ 3) && decide (v < 2 ^ 32)
  | .halt path v => decide (1 ≤ path ∧ path ≤ 3) && decide (v < 2 ^ 32)
  | .resume path v => decide (1 ≤ path ∧ path ≤ 3) && decide (v < 2 ^ 32)
  | .step path v => decide (1 ≤ path ∧ path ≤ 3) && decide (v < 2 ^ 32)
  | .dbgMdataRead path => decide (1 ≤ path ∧ path ≤ 3)
  | .dbgMdataWrite path v => decide (1 ≤ path ∧ path ≤ 3) && decide (v < 2 ^ 32)
  | .dbgFdata path v => decide (1 ≤ path ∧ path ≤ 3) && decide (v < 2 ^ 32)
  | .dbgTrcdataRead path => decide (1 ≤ path ∧ path ≤ 3)
  | .pwrReq v => decide (v < 2 ^ 32)
  | .powerTransitionDone => true
  | .junctionSensorRead b _ => decide (b < 16)
  | .targetedSelfTest k => decide (k % 256 < domainCount (k / 256))
  | .selfTestVerdict k _ _ => decide (k % 256 < domainCount (k / 256))
  | .domainResetDone dkind inst => decide (inst < domainCount dkind)
  | .logDataRead => true
  | .updateStart => true
  | .updateAbort => true
  | .updateVerifyDone => true
  | .updateWriteDone _ => true
  | .updateHandover => true
  | .linkFirmwarePortDone => true
  | .panesvcSelfTest n => decide (n < 128)
  | .panesvcReplace n => decide (n < 128)
  | .smbusRead a => decide (a < 2 ^ 32)
  | .smbusWrite a v => decide (a < 2 ^ 32) && decide (v < 2 ^ 32)
  | .smbusTimeout a _ => decide (a < 2 ^ 32)
  | .dbgacc a v _ => decide (a < 2 ^ 32) && decide (v < 2 ^ 32)
  | .ctlTimeLoRead path => decide (1 ≤ path ∧ path ≤ 3)
  | .registerWrite path a v => decide (1 ≤ path ∧ path ≤ 3) && decide (a < 2 ^ 32) && decide (v < 2 ^ 32)
  | .supEventsClear v => decide (v < 2 ^ 32)
  | .refclk0Loss => true
  | .refclkBothLost => true
  | .vinUndervoltage => true
  | .vauxUndervoltage => true
  | .sensorRead _ => true
  | .vinDip => true
  | .vioUndervoltage => true
  | .refclk1Loss => true
  | .secCommandComplete => true
  | .flashOperationComplete _ => true
  | .extest _ => true

end Sys2Proof
end

