-- ==== Sys2Proof/Safety.lean ====
section
/-! DEFINITION. The terms that claims about the block are said in: legal states, which commands the supply die answers in P5,
when a pane's engine starts a command and what its completion does, and the canonical form of every byte memory. -/

namespace Sys2Proof.Machine

open Sys2Proof

/-! ### Outcomes -/

/-- A step that does not stop the machine. -/
def Runs (o : Host.Outcome State Fault Refusal) : Prop := ∃ t, o = .next t

/-- The next state of a command of state `s` whose effect is `t`, with what follows every step (`settle`): the queue and the
straps stay as they are. -/
def followed (s t : State) : State := keepStraps s (settle t)

/-- The next state where the effect is one of the table engine, whose bays settle after every step of it. -/
def followedTe (s t : State) : State := keepStraps s (settleTe t)

/-! ### Legal states -/

/-- Straps as the supply die can have sampled them (R540, R545): CHIP_ID 12 bits, SMBADDR 2 bits, RECOVER_N one. -/
def StrapsLegal (s : State) : Prop := s.sup.chip < 2 ^ 12 ∧ s.sup.smba < 2 ^ 2 ∧ s.sup.recoverN < 2

/-- The byte memories of the block in canonical form: keys strictly rising, no entry equal to what an unlisted address reads
as. -/
def Memory.wf (s : State) : Bool := twf 0 s.dram && twf 0xFF s.flash && twf 0 s.slotDef

/-- The scratchpad and accumulators of a pane in canonical form. -/
def Pane.wf (p : Pane) : Bool := twf 0 p.sp && twf 0 p.acc

/-- A memory map as R473 states it: regions of whole 256 KiB units, of a known kind, in a stack of the package, none over another. -/
def MapLegal (s : State) : Prop :=
  (∀ r ∈ s.regions, r.base % 0x40000 = 0 ∧ r.size % 0x40000 = 0 ∧ 0 < r.size ∧ r.kind ≤ 2 ∧ r.stack < 16) ∧
    s.regions.Pairwise (fun x y => x.base + x.size ≤ y.base ∨ y.base + y.size ≤ x.base)

/-- The commands that sample the straps: power-up and pin reset. -/
def samplesStraps : Instr → Bool
  | .powerUp _ _ _ | .pinReset _ _ _ => true
  | _ => false

/-- The events that the wake logic of the supply die meets in P5 too (R505, R548, R556 to R565). -/
def supplyEvent : Instr → Bool
  | .refclk0Loss | .refclk1Loss | .refclkBothLost | .vinUndervoltage | .vauxUndervoltage | .vinDip | .vioUndervoltage => true
  | _ => false

/-! ### When an engine starts a command (R50, R51, R59) -/

/-- May a bay engine accept the command from the pane now: the slot that is up names the pane, and no pane's command runs? -/
def bayAccepts (s : State) (i eng : Nat) : Bool :=
  eng < 5 || (bayGate s i eng == none && !bayEngBusy s (bayOf i) eng)

/-- The state in which a command that a bay engine takes runs: the slot that was up is used (R51); a pane's own engine needs none. -/
def taken (s : State) (i eng : Nat) : State := if 5 ≤ eng then takeGrant s (bayOf i) eng else s

/-- The state in which the engine runs the body of command `c` when this step starts it: a command issued before starts when
its engine is free, or goes on once what it reads has come; else the sequencer reads it from the list and issues it. None when this
step does not start it. -/
def startState (s : State) (i c : Nat) (r : CmdRow) (busy : State → Bool) : Option State :=
  if waitsToStart s i c r then
    if busy s then none
    else if 5 ≤ r.eng ∧ !reading s i r.eng then
      if bayAccepts s i r.eng then some (taken (unqueued s i c r) i r.eng) else none
    else some (unqueued s i c r)
  else if !mayIssue s i then none
  else
    match runMc (readCmd i c) s with
    | (.ok true, s') =>
      if (headerFault (s'.pane i).seq c).isNone && hEng c == r.eng && hOp c == r.op && opKnown r.eng r.op
        && waitMet (s'.pane i).seq c && !((s'.pane i).seq.unstarted.any (fun u => u.1 == r.eng)) && !busy s'
        && bayAccepts s' i r.eng
      then some (taken (issued s' i c r) i r.eng) else none
    | _ => none

/-- Is the command of the length that its row gives, without immediate data? -/
def plainForm (c : Nat) (len : Nat) : Bool := hLen c == len && !hImm c

/-- The state after a command of engine `eng` has begun and goes on running: the single step of a stepped pane is used, and so are the
lines that the sequencer and the engine have read for it. -/
def underWay (s : State) (i eng : Nat) : State :=
  dropFetched (dropFetched (s.modPane i (fun p => { p with stepping := false })) i 0) i eng

/-- The state after a command has run to its end, from the state its body leaves: the command is no longer incomplete, and is counted
and traced. -/
def completed (s : State) (i c : Nat) (r : CmdRow) : State := cmdDone (underWay s i r.eng) i r.eng r.op (hTag c)

/-! ### Management accesses (R543 to R549, R575) -/

/-- Does an access name, at a time when registers answer it, a register that exists? -/
def Addressed (s : State) (path a : Nat) (wr : Bool) : Prop :=
  a % 4 = 0 ∧ (s.boot.ready = true ∨ answersEarly s path a wr = true) ∧ (regRow (resolve s a)).isSome = true ∧
    (isAlias a = true → (aliasInst s a).isSome = true)

/-- Is a write to a register unavailable: its domain is in reset or its clock stands, or it forces such a register (R543, R548)? -/
def writeUnavailable (s : State) (path r : Nat) : Bool :=
  inReset s r || gatedReg s r ||
    r == Reg.DBG_FDATA && holdsLevel s path 2 && s.boot.ready && inReset s (resolve s (s.regN Reg.DBG_FADDR))

/-- Does a write come by a path that its register does not take: one that does not hold the debug level, or, for CTL_RESTART before
READY, one that is not SMBus (R549)? -/
def wrongPath (s : State) (path r : Nat) : Bool :=
  intrudeReg r && s.dbg.path != path || r == Reg.CTL_RESTART && !s.boot.ready && path != 1

end Sys2Proof.Machine
end

