-- ==== Sys2Proof/Certificates/Slice0/Obligations.lean ====
section
/-! DEFINITION. The statements for the provers. Each is about commands of the table by their rows (Sys2Proof/Syntax.lean), in the words of
Sys2Proof/Safety.lean: what a command's step leaves, said as the whole next state wherever the rules fix it, so that everything a statement does
not name is unchanged. -/

open Sys2Proof Sys2Proof.Machine

/-- A step takes the command at the front of the queue and runs `exec` on the state with the queue's rest; with nothing waiting
a nanosecond of device time passes, but for P5, where time does not run (the model's choice, log entry 1, DESIGN CHOICE). -/
def Obligations.StepRunsFrontCommand : Prop :=
  (∀ (c : Instr) (rest : List Instr) (s : State),
    step { s with pending := c :: rest } = exec c { s with pending := rest }) ∧
  (∀ s : State, s.pwr.st ≠ 5 →
    step { s with pending := [] } = .next { s with pending := [], devTime := (s.devTime + 1) % 2 ^ 64 }) ∧
  (∀ s : State, s.pwr.st = 5 → step { s with pending := [] } = .next { s with pending := [] })

/-- No command is refused and no command faults but for operands that the package does not have (log entry 4, DESIGN CHOICE): a command whose
operands the package can carry always answers a next state. -/
def Obligations.NoCommandStops : Prop :=
  ∀ (c : Instr) (s : State),
    (Runs (exec c s) ∨ exec c s = .fault .noSuchInstance) ∧ (c.wellFormed = true → Runs (exec c s))

/-- No command touches the queue of waiting commands: a step shortens it by exactly the command it took (R544: commands are
served one after another in the order in which they came). -/
def Obligations.QueueIsFirstInFirstOut : Prop :=
  (∀ (c : Instr) (s t : State), exec c s = .next t → t.pending = s.pending) ∧
  (∀ (s t : State), step s = .next t → t.pending = s.pending.tail)

/-- The straps keep the form in which the supply die samples them (R540, R545): every step that answers a next state leaves
CHIP_ID below 2^12, SMBADDR below 4 and RECOVER_N below 2, whatever the command and its operands. -/
def Obligations.StrapsStayLegal : Prop :=
  ∀ s t : State, StrapsLegal s → step s = .next t → StrapsLegal t

/-- The state after reset has legal straps, an empty queue and byte memories in canonical form. -/
def Obligations.ResetIsLegal : Prop :=
  StrapsLegal State.reset ∧ State.reset.pending = [] ∧ Memory.wf State.reset = true ∧ State.reset.devTime = 0 ∧
    State.reset.pwr.st = 4 ∧ State.reset.sec.st = 0 ∧ State.reset.boot.ready = false

/-- In P5 only the wake logic of the supply die runs (R505, R506): a command that is neither a power-up, a pin reset nor an
event of the rails and reference clocks leaves the whole state as it was, and only power-up and pin reset leave P5. -/
def Obligations.P5AnswersOnlyTheSupplyDie : Prop :=
  (∀ (c : Instr) (s t : State), s.pwr.st = 5 → samplesStraps c = false → supplyEvent c = false → exec c s = .next t → t = s) ∧
  (∀ (c : Instr) (s t : State), s.pwr.st = 5 → samplesStraps c = false → exec c s = .next t → t.pwr.st = 5)

/-- The slot step of the array clock, doorbells and queue errors. ARRAY_CLOCK_STEP moves the clock one step toward the lowest of
the three limits (R31, R316). A doorbell that finds a credit waits for its queue's descriptor; once that has come, the tail is
accepted when the queue is enabled and the ring can hold it, and a tail beyond the ring is a queue error (R41, R43). Without a
credit the doorbell is refused, counted with its queue, and the bay owes a credit return (R44). BAY_QERR_CLEAR with bit 31 set
clears QERR and keeps the queue number (Table 2-12). Each changes nothing else but what then settles. -/
def Obligations.QueueRegistersAndDoorbells : Prop :=
  (∀ (b : Nat) (s : State), b < 16 → s.pwr.st ≠ 5 →
    exec (.arrayClockStep b) s = .next (keepStraps s (s.modBay b (fun x =>
      { x with clk := if x.clk < clkTarget x then x.clk + 1 else if clkTarget x < x.clk then x.clk - 1 else x.clk })))) ∧
  (∀ (b v : Nat) (s : State), b < 16 → regOpen s (Reg.BAY_DOORBELL b) = true → freeEntries s b ≠ 0 →
    exec (.bayDoorbell b v) s = .next (followed s (s.modBay b (fun x => { x with dbWait := x.dbWait ++ [v] })))) ∧
  (∀ (b v : Nat) (s s1 : State) (d : List Byte),
    runMc (sysRead (.bay b .doorbell) (qdescAddr s b (bits v 23 16)) 64) s = (.ok d, s1) → bit (field d 8 4) 20 = true →
    runMc (doorbellRead b v) s = (.ok (), if (bits v 15 0 + 65536 - field d 12 2) % 65536 ≤ 2 ^ bits (field d 8 4) 19 16
      then s1.modBay b (fun x => { x with tails := tset none x.tails (bits v 23 16) (some (bits v 15 0)) })
      else queueError s1 b (bits v 23 16) (some d))) ∧
  (∀ (b v : Nat) (s : State), b < 16 → regOpen s (Reg.BAY_DOORBELL b) = true → freeEntries s b = 0 →
    exec (.bayDoorbell b v) s = .next (followed s ((s.setReg (Reg.BAY_DBSTAT b)
      (min (bits (s.regN (Reg.BAY_DBSTAT b)) 15 0 + 1) 65535 + bits v 23 16 * 2 ^ 16)).modBay b (fun x => { x with owedCredit := true })))) ∧
  (∀ (b v : Nat) (s : State), b < 16 → regOpen s (Reg.BAY_QERR b) = true → bit v 31 = true →
    exec (.bayQerrClear b v) s = .next (keepStraps s (s.setReg (Reg.BAY_QERR b) (s.regN (Reg.BAY_QERR b) % 2 ^ 31))))

/-- TASK_FETCH serves the first queue of its order that is enabled and not empty: HEAD advances by one, the queue becomes the
one last served, and the entry that passes the checks of R45 becomes a task, Ready at once when it has no dependence record
(R359 to R361). The queue's descriptor and the entry have been read from the stack by then, and the write of HEAD is posted. -/
def Obligations.TaskFetchTakesOneEntry : Prop :=
  ∀ (b q : Nat) (qs : List Nat) (d e : List Byte) (s s1 s2 : State), b < 16 → s.pwr.st ≠ 5 → freeEntries s b ≠ 0 →
    visitOrder (s.bay b) = q :: qs → runMc (fetchable b q) s = (.ok (some d), s1) →
    runMc (sysRead (.bay b .fetch) (field d 0 8 + 64 * (field d 12 2 % 2 ^ bits (field d 8 4) 19 16)) 64) s1 = (.ok e, s2) →
    entryFault e (field d 8 2) = none → field e 20 4 = 0xFFFFFFFF →
    let t := entryTask s2 b q (field d 12 2 % 2 ^ bits (field d 8 4) 19 16) e
    let s3 := (sysPost s2 (.bay b .fetch) (qdescAddr s2 b q + 12) (leBytes 2 ((field d 12 2 + 1) % 65536))).modBay b
      (fun x => { x with lastQ := q })
    (t.anypane = true ∨ numberOut s2 (b * 8 + t.lpane) = false) →
    exec (.taskFetch b) s = .next (followed s (dropNeeds
      (makeReady { s3 with tasks := s3.tasks ++ [t], taskSeq := s3.taskSeq + 1 } t.id) (.bay b .fetch)))

/-- The sequencer's own commands, when they start (R374, R376, Table 2-6): NOP completes with no effect; FENCE completes once no
earlier command is incomplete; SIGNAL sends its amount to its object with the pane's identity behind the writes its task has
posted; END ends the list; WAIT and TAKE block the sequencer and arrive at the home of their object with their threshold and
their timeout of 64 µs units. A completed command is counted and leaves the incomplete ones. -/
def Obligations.SequencerCommandsComplete : Prop :=
  (∀ (i c : Nat) (s s1 : State), i < 144 → s.pwr.st ≠ 5 → plainForm c 16 = true →
    startState s i c (seqRow 0) (fun _ => false) = some s1 →
    exec (.nop i c) s = .next (followed s (completed s1 i c (seqRow 0)))) ∧
  (∀ (i c : Nat) (s s1 : State), i < 144 → s.pwr.st ≠ 5 → plainForm c 16 = true →
    startState s i c (seqRow 1) (fun _ => false) = some s1 → (s1.pane i).seq.inflight.length ≤ 1 →
    exec (.fence i c) s = .next (followed s (completed s1 i c (seqRow 1)))) ∧
  (∀ (i c : Nat) (s s1 : State), i < 144 → s.pwr.st ≠ 5 → plainForm c 16 = true →
    startState s i c (seqRow 2) (fun _ => false) = some s1 → cbytes c 10 2 = 0 →
    exec (.signal i c) s = .next (followed s (underWay { s1 with sigs := s1.sigs ++ [
      { obj := cbytes c 8 2, amount := cbytes c 12 4, pane := (s1.pane i).number.getD 0, chip := s1.sup.chip, ctx := (s1.pane i).ctx,
        task := (s1.pane i).task, completes := true,
        guards := paneWrites s1 i, tag := hTag c }] } i 0))) ∧
  (∀ (i c : Nat) (s s1 : State), i < 144 → s.pwr.st ≠ 5 → plainForm c 16 = true →
    startState s i c (seqRow 5) (fun _ => false) = some s1 →
    exec (.endList i c) s = .next (followed s (completed (s1.modPane i (fun p => { p with seq := { p.seq with ended := true } })) i c
      (seqRow 5)))) ∧
  (∀ (i c kind : Nat) (s s1 : State) (t : Task), i < 144 → s.pwr.st ≠ 5 → plainForm c 16 = true → kind < 2 →
    startState s i c (seqRow (3 + kind)) (fun _ => false) = some s1 → (s1.pane i).task.bind s1.taskOf = some t →
    let ex := if cbytes c 10 2 = 0 then none else some (s1.devTime + cbytes c 10 2 * 64000)
    exec (if kind = 0 then .wait i c else .take i c) s = .next (followed s (underWay (arrive
      (s1.modPane i (fun p => { p with
        blockedAt := some s1.devTime
        seq := { p.seq with waits := [{ obj := cbytes c 8 2, kind, thr := cbytes c 12 4, expiry := ex, status := 0, tag := hTag c }] } }))
      { obj := cbytes c 8 2, kind, task := t.id, ctx := t.ctx, thr := cbytes c 12 4, expiry := ex, parked := false, tag := hTag c }) i 0)))

/-- When a command starts (R50): the list holds it, its header is sound, its engine knows its opcode and no earlier command of
the same engine waits, WAITMASK is met, and the engine is free; a bay engine also needs the command slot of the pane, which it
uses (R51). Its incomplete-command entry is made and the list moves past it. A command issued before starts as soon as its
engine is free, or goes on when its engine reads for it already. COMMAND_TIME_LIMIT stops a command of the array, the vector
engine, the NGE or the table engine that still runs at its limit: its task faults with code 0x0A (R53). A TSTEP or TMIGRATE has
no limit (R227). -/
def Obligations.CommandStartConditions : Prop :=
  (∀ (i c : Nat) (r : CmdRow) (busy : State → Bool) (s s' : State),
    waitsToStart s i c r = false → mayIssue s i = true → runMc (readCmd i c) s = (.ok true, s') →
    engKnown (hEng c) = true → hRsv c = 0 → (s'.pane i).seq.pc + hLen c ≤ (s'.pane i).seq.listEnd → hEng c = r.eng →
    hOp c = r.op → opKnown r.eng r.op = true → (∀ e ∈ (s'.pane i).seq.inflight, bit (hWait c) e = false) →
    (∀ u ∈ (s'.pane i).seq.unstarted, u.1 ≠ r.eng) → busy s' = false → (5 ≤ r.eng → bayAccepts s' i r.eng = true) →
    startState s i c r busy = some (taken (issued s' i c r) i r.eng) ∧
      ((issued s' i c r).pane i).seq.pc = (s'.pane i).seq.pc + hLen c ∧
      ((issued s' i c r).pane i).seq.inflight = (s'.pane i).seq.inflight ++ [r.eng]) ∧
  (∀ (i c : Nat) (r : CmdRow) (busy : State → Bool) (s : State),
    waitsToStart s i c r = true → busy s = false → (5 ≤ r.eng → reading s i r.eng = true ∨ bayAccepts s i r.eng = true) →
    startState s i c r busy = some (if reading s i r.eng then unqueued s i c r else taken (unqueued s i c r) i r.eng)) ∧
  (∀ (i eng : Nat) (s : State), i < 144 → s.pwr.st ≠ 5 → (eng = 1 ∨ eng = 2 ∨ eng = 3 ∨ eng = 5) →
    0 < runningOf (s.pane i).seq eng →
    (eng = 5 → ∀ j ∈ (s.bay (bayOf i)).te.jobs, j.pane = i → j.op ≠ 4 ∧ j.op ≠ 6) →
    exec (.commandTimeLimit i eng) s = .next (followed s (paneFault s i 0x0A (runSrc s i eng))))

/-- The pane's share of dispatch (R365, R368, R370). A task whose list has ended with every command complete completes: DONESYNC
is signalled when DONEEN asks for it, the count of tasks rises, the pane is idle and the entry is free. At the end of its slice
a running task gives way to a candidate of its own priority. A blocked one gives way to any candidate and waits. Task-fault
records: a write of DSP_TFTAIL sets its eight bits, and then the oldest record held goes to the ring when that has room: it is
written at DSP_TFHEAD (R371). -/
def Obligations.TasksCompleteAndGiveWay : Prop :=
  (∀ (i : Nat) (s : State) (t : Task), i < 144 → s.pwr.st ≠ 5 → taskDone (s.pane i) = true →
    (s.pane i).task.bind s.taskOf = some t →
    let s1 := if t.doneen then paneSignal s i t.donesync t.doneadd false (paneWrites s i) else s
    exec (.taskComplete i) s = .next (followed s (freeEntry ((idlePane (s1.incReg (Reg.DSP_TASKS t.bay)) i false).modPane i
      (fun p => { p with sw := p.sw.map (fun w => { w with outTask := none }) })) t.id))) ∧
  (∀ (i : Nat) (s : State) (x c : Task), i < 144 → s.pwr.st ≠ 5 → (s.pane i).blockedAt = none →
    (s.pane i).task.bind s.taskOf = some x → candidate s i = some c → (s.pane i).sw = none → (s.pane i).halted = false →
    x.prio = c.prio →
    exec (.sliceExpiry i) s = .next (followed s ((beginSwitch s i .ready (some c.id)).incReg (Reg.DSP_SLICED (bayOf i))))) ∧
  (∀ (i : Nat) (s : State) (c : Task), i < 144 → s.pwr.st ≠ 5 → (s.pane i).blockedAt.isSome = true →
    (s.pane i).sw = none → (s.pane i).halted = false → candidate s i = some c →
    exec (.blockedSwitch i) s = .next (followed s (beginSwitch s i .waiting (some c.id)))) ∧
  (∀ (b v : Nat) (s : State), b < 16 → regOpen s (Reg.DSP_TFTAIL b) = true →
    exec (.dspTftailWrite b v) s = .next (followed s (s.setReg (Reg.DSP_TFTAIL b) (v % 256)))) ∧
  (∀ (b : Nat) (s : State) (r : TfRec) (rs : List TfRec), (s.bay b).tfHeld = r :: rs → (s.bay b).tfStuck = false →
    (s.regN (Reg.DSP_TFHEAD b) + 1) % 256 ≠ s.regN (Reg.DSP_TFTAIL b) → ringBusy s 0 b = false →
    let a := s.reg64 (Reg.DSP_TFBASE_LO b) (Reg.DSP_TFBASE_HI b) + 32 * s.regN (Reg.DSP_TFHEAD b)
    (linesIn (localPa a) 32).any (outOfMap s) = false →
    sendTf s b = sysPost s (.bay b .fetch) a (tfBytes r) (.ring 0 b))

/-- Sync objects (R373 to R380, R389). An admitted signal whose guarded writes are done adds its amount, saturating at 2^64 - 1,
records its signaller, and then settles the waits and takes of its object. SYN_CREATE makes a Free object Live with the initial
value, owner and ANYCTX; on one that is not Free it is only counted. SYN_DESTROY releases every waiter broken and frees the
object. SYN_SET_VALUE gives a Live object the value of SYN_INIT. A wait whose time runs out leaves its object, its task faults
with 0xA4 through its release, and the takes behind it are settled. -/
def Obligations.SyncObjectsFollowTheirRules : Prop :=
  (∀ (b : Nat) (s : State) (g : Sig), b < 16 → s.pwr.st ≠ 5 → nextSignal s b = some g → refusal (s.obj g.obj) g.ctx = none →
    let s1 := ({ s with sigs := s.sigs.erase g } : State)
    let s2 := s1.setObj g.obj { s.obj g.obj with
      val := min ((s.obj g.obj).val + g.amount) (2 ^ 64 - 1)
      sat := (s.obj g.obj).sat || decide (2 ^ 64 ≤ (s.obj g.obj).val + g.amount), last := some (g.pane, g.chip, g.ctx, s.bayTime (g.obj / 4096)) }
    let s3 := retryStalled (settleObj s2 g.obj) (g.obj / 4096)
    exec (.signalApply b) s = .next (followed s (match g.task with
      | some t => if g.completes then completeOf s3 t g.tag else s3
      | none => s3))) ∧
  (∀ (b v : Nat) (s : State), b < 16 → regOpen s (Reg.SYN_CTRL b) = true → (s.obj (selObj s b)).st = 0 →
    exec (.synCreate b v) s = .next (followed s (s.setObj (selObj s b)
      { val := s.reg64 (Reg.SYN_INIT_LO b) (Reg.SYN_INIT_HI b), owner := s.regN (Reg.SYN_OWNERW b) % 65536, st := 1,
        anyctx := bit v 3, sat := false, last := none }))) ∧
  (∀ (b v : Nat) (s : State), b < 16 → regOpen s (Reg.SYN_CTRL b) = true → (s.obj (selObj s b)).st ≠ 0 →
    exec (.synCreate b v) s = .next (followed s (s.incReg (Reg.SYN_REFUSED b)))) ∧
  (∀ (b v : Nat) (s : State), b < 16 → regOpen s (Reg.SYN_CTRL b) = true →
    exec (.synDestroy b v) s = .next (followed s (retryStalled ((breakObj s (selObj s b)).setObj (selObj s b) {}) b))) ∧
  (∀ (b v : Nat) (s : State), b < 16 → regOpen s (Reg.SYN_CTRL b) = true → (s.obj (selObj s b)).st = 1 →
    exec (.synSetValue b v) s = .next (followed s (retryStalled (settleObj (s.setObj (selObj s b)
      { s.obj (selObj s b) with val := s.reg64 (Reg.SYN_INIT_LO b) (Reg.SYN_INIT_HI b), sat := false }) (selObj s b)) b))) ∧
  (∀ (b k : Nat) (s : State) (w : Waiter), b < 16 → s.pwr.st ≠ 5 →
    ((s.bay b).waiters ++ (s.bay b).stalledWaits)[k]? = some w → w.expiry.isSome = true →
    exec (.waitTimeout b k) s = .next (followed s (retryStalled (settleObj (releaseWaiter
      (s.modBay b (fun x => if x.waiters.contains w then { x with waiters := x.waiters.erase w }
        else { x with stalledWaits := x.stalledWaits.erase w })) w 4) w.obj) b)))

/-- The steps of a context switch (Table 2-8, R65 to R71). Once every engine of the pane has drained, SWITCH_DRAINED stops the
streams, parks the waits of the outgoing task and moves the switch to its save. When the pages of the save are in memory,
SWITCH_SAVE_DONE takes from their owners what the incoming claim overlaps, and gives the outgoing task its sequencer block and
its place. When the pages of the restore have come, SWITCH_RESTORE_DONE makes the claim resident and launches the incoming task,
or lets its slot set come first; the switch ends as that has been loaded. -/
def Obligations.ContextSwitchSteps : Prop :=
  (∀ (i : Nat) (s : State) (w : Switch), i < 144 → s.pwr.st ≠ 5 → drained s i = true →
    let s1 := (List.range 8).foldl (fun s e => dropFetched s i e) (stopStreams s i)
    (s1.pane i).sw = some w →
    exec (.switchDrained i) s = .next (followed s ((match w.outTask with
      | some t => parkWaits s1 t
      | none => s1).modPane i (fun p => { p with sw := some { w with step := 4, laid := false } })))) ∧
  (∀ (i : Nat) (s : State) (w : Switch) (t u : Task), i < 144 → s.pwr.st ≠ 5 → swReady (s.pane i) 4 = true → (s.pane i).sw = some w →
    w.outTask.bind s.taskOf = some t → w.inTask.bind s.taskOf = some u →
    let s1 := s.modPane i (fun p => overlapSaved p u)
    exec (.switchSaveDone i) s = .next (followed s ((leaveTo (idlePane s1 i false) t.id w.outState (saveBlk s1 i)).modPane i (fun p =>
      { p with sw := p.sw.map (fun v => { v with step := 5, outTask := none, laid := false }) })))) ∧
  (∀ (i : Nat) (s s1 : State) (r : List Byte) (w : Switch) (t : Task), i < 144 → s.pwr.st ≠ 5 → swReady (s.pane i) 5 = true →
    (s.pane i).sw = some w → w.inTask.bind s.taskOf = some t → runMc (startRecord i t.id t.ctx) s = (.ok r, s1) →
    let u := { t with saved := t.saved.map (fun b => restoreStreams b w.got) }
    let s2 := (s1.modPane i (fun p => claimRestored p t)).modTask t.id (fun x => { x with saved := u.saved })
    exec (.switchRestoreDone i) s = .next (followed s (if w.interrupt || (s.pane i).slotSet == some (t.ctx, slotSetAt t r)
      then resumeWaits (launch s2 i u r) i else modSw s2 i (fun v => { v with step := 6, laid := false })))) ∧
  (∀ (i : Nat) (s s1 : State) (r : List Byte) (w : Switch) (t : Task), (s.pane i).stalled = false → (s.pane i).sw = some w →
    w.step = 6 → w.laid = true → w.todo = [] → w.page = none → w.inTask.bind s.taskOf = some t →
    runMc (startRecord i t.id t.ctx) s = (.ok r, s1) → goSwitch s i = slotsLoaded s1 i t r w.got)

/-- The slot-table windows (R58, R581, R582). A write of BAY_SLOTDATA stages the low 16 bits at the selected entry and moves the
slot index on within its frame; while a commit of the bay is pending the control die holds it. A read delivers the entry in
force and moves the index on. The entry in force does not change. A slot of a scratchpad bank or an accumulator port comes up
(R46, R55, R117): its position moves on; when it names the engine that asks, and the access lies in the bank and in the claim
with good bits, a write stores the bytes and a read leaves them. A slot of a bay engine's command table comes up (R51, R56): the
frame moves on, and the engine may accept the command of the local pane that the entry names, or of none. A slot's end moves its
table's position on by one within the frame; past the last slot the entries of that table that were committed, and of no other,
come in force (R58). -/
def Obligations.SlotTablesAndLocalSlots : Prop :=
  (∀ (b v k n j : Nat) (s : State), b < 16 → regOpen s (Reg.BAY_SLOTDATA b) = true →
    s.mgmt.commits.contains (1 + b * 2 ^ 8) = false → slotSel s b = some (k, n, j) →
    exec (.baySlotdataWrite b v) s = .next (keepStraps s
      ((s.modBay b (fun x => { x with slotStaged := tset none x.slotStaged (slotKey k n j) (some (v % 65536)) })).setField
        (Reg.BAY_SLOTSEL b) 28 16 ((j + 1) % frameLen k)))) ∧
  (∀ (b v : Nat) (s : State), b < 16 → regOpen s (Reg.BAY_SLOTDATA b) = true →
    s.mgmt.commits.contains (1 + b * 2 ^ 8) = true →
    exec (.baySlotdataWrite b v) s = .next (keepStraps s
      { s with mgmt := { s.mgmt with held := s.mgmt.held ++ [{ addr := Reg.BAY_SLOTDATA b, value := v }] } })) ∧
  (∀ (b k n j : Nat) (s : State), b < 16 → regOpen s (Reg.BAY_SLOTDATA b) = true → slotSel s b = some (k, n, j) →
    exec (.baySlotdataRead b) s = .next (keepStraps s
      ((s.setField (Reg.BAY_SLOTSEL b) 28 16 ((j + 1) % frameLen k)).readOut (slotEntry s b k n j)))) ∧
  (∀ (i bank : Nat) (r : SramReq) (s s1 s2 : State) (e j : Nat), i < 144 → bank < 32 → s.pwr.st ≠ 5 → r.eng ≤ 7 →
    r.addr / 64 % 32 = bank →
    let s0 := s.modPane i (fun p => { p with spErr := eccUpset p.spErr (r.upsets.filter (fun u => u.1 / 64 % 32 == bank)) })
    bankTested s0 i bank = false → localSlot s0 i bank = (e, j, s1) → (s1.pane i).task.isSome = true →
    holdsLocal (s1.pane i) bank r.eng = true → bit e 4 = true → bits e 3 0 = r.eng →
    runMc (if r.wr then spWrite i r.eng (r.addr / 64 * 64) (leBytes 64 r.data)
      else (do let _ ← spRead i r.eng (r.addr / 64 * 64) 64; pure ())) s1 = (.ok (), s2) →
    exec (.scratchpadBankSlot i bank r) s = .next (followed s s2)) ∧
  (∀ (i port : Nat) (r : SramReq) (s s1 : State) (e j : Nat) (t : Task), i < 144 → port < 2 → s.pwr.st ≠ 5 → r.eng ≤ 7 →
    let s0 := s.modPane i (fun p => { p with accErr := eccUpset p.accErr (r.upsets.filter (fun u => u.1 < 0x200000)) })
    localSlot s0 i (32 + port) = (e, j, s1) → (s1.pane i).task.bind s1.taskOf = some t →
    holdsLocal (s1.pane i) (32 + port) r.eng = true → bit e 4 = true → bits e 3 0 = r.eng →
    r.addr / 256 * 256 < 0x200000 → bit t.accmask (r.addr / 256 * 256 / 0x4000) = true → r.wr = true →
    exec (.accumulatorPortSlot i port r) s = .next (followed s
      (accStore s1 i ((leBytes 256 r.data).mapIdx (fun k b => (r.addr / 256 * 256 + k, b)))))) ∧
  (∀ (b eng : Nat) (s : State), b < 16 → 5 ≤ eng → eng ≤ 7 → s.pwr.st ≠ 5 →
    let e := slotEntry s b 3 (eng - 5) (tget 0 (s.bay b).framePos (3 * 32 + (eng - 5)))
    exec (.bayEngineCommandSlot b eng) s = .next (keepStraps s (s.modBay b (fun x => { frameStep x 3 (eng - 5) with
      grant := tset none x.grant eng (if bit e 4 then some (bits e 2 0) else none) })))) ∧
  (∀ (x : Bay) (kind inst : Nat),
    let k := kind * 32 + inst
    let j := (tget 0 x.framePos k + 1) % frameLen kind
    (frameStep x kind inst).framePos = tset 0 x.framePos k j ∧
    (j ≠ 0 → frameStep x kind inst = { x with framePos := tset 0 x.framePos k j }) ∧
    (j = 0 → (frameStep x kind inst).slotDue = x.slotDue.filter (fun e => e.1 / 2 ^ 13 != k) ∧
      (frameStep x kind inst).slotIn = tsetAll none x.slotIn (x.slotDue.filter (fun e => e.1 / 2 ^ 13 == k))))

/-- The pane slot window (R582): a read of PANE_SLOTDATA delivers the loaded entry that PANE_SLOTSEL names and adds 1 to the
slot index, from 255 to 0; above table 33 it reads 0 with reason 0x00 and leaves the index; a write is ignored with reason 0x00.
-/
def Obligations.PaneSlotWindowMovesOn : Prop :=
  (∀ (i : Nat) (s : State), i < 144 → regOpen s (Reg.BAY_SLOTDATA (bayOf i)) = true →
    bits (s.regN (Reg.PANE_SLOTSEL i)) 5 0 ≤ 33 →
    let t := bits (s.regN (Reg.PANE_SLOTSEL i)) 5 0
    let j := bits (s.regN (Reg.PANE_SLOTSEL i)) 15 8
    exec (.paneSlotdataRead i) s = .next (keepStraps s
      ((s.setField (Reg.PANE_SLOTSEL i) 15 8 ((j + 1) % 256)).readOut (tget 0 (s.pane i).slots (t * 256 + j))))) ∧
  (∀ (i : Nat) (s : State), i < 144 → regOpen s (Reg.BAY_SLOTDATA (bayOf i)) = true →
    33 < bits (s.regN (Reg.PANE_SLOTSEL i)) 5 0 →
    exec (.paneSlotdataRead i) s = .next (keepStraps s (s.readOut 0))) ∧
  (∀ (i : Nat) (s : State), i < 144 → s.pwr.st ≠ 5 → s.rel.upd ≠ 3 → pathBusy s 1 = false → inReset s (Reg.PANE_SLOTDATA i) = false →
    accessReason s 1 (Reg.PANE_SLOTDATA i) false = 0 → 33 < bits (s.regN (Reg.PANE_SLOTSEL i)) 5 0 →
    exec (.smbusRead (Reg.PANE_SLOTDATA i)) s = .next (followed s ((noteAnswer s 1 0 0).readOut 0))) ∧
  (∀ (i path v : Nat) (s : State), i < 144 → 1 ≤ path → path ≤ 3 → v < 2 ^ 32 → s.pwr.st ≠ 5 → s.rel.upd ≠ 3 → pathBusy s path = false →
    accessReason s path (Reg.PANE_SLOTDATA i) true = 0 →
    exec (.registerWrite path (Reg.PANE_SLOTDATA i) v) s = .next (followed s (noteAnswer s path 0 0)))

/-- A slot of a memory channel (R60 to R63, R292, R302): upsets strike first, the frame and the owner's step move on, requests
of panes that hold no slot fault, updates that have come merge into the buffer, and the first access of the owner and class of
the slot is served; with none that waits of its owner, the slot is idle and copies or scrubs. A skipped slot carries nothing. -/
def Obligations.MemoryChannelSlotServes : Prop :=
  ∀ (b ch : Nat) (ups : List (Nat × Nat)) (s : State), b < 16 → ch < 32 → s.pwr.st ≠ 5 →
    let s1 := disturb s b ch ups
    let n := nextSlot s1 b 0 ch (chanSkips (s1.bay b).mem ch)
    let s2 := mergeUpdates (violations n.2.2.2.2 0 n.1 ((atChan n.2.2.2.2 b ch).filter (fun a =>
      checked a && !holdsSlot n.2.2.2.2 b 0 ch (chanOwner n.2.2.2.2 a).1 (chanOwner n.2.2.2.2 a).2.1 (chanOwner n.2.2.2.2 a).2.2))) b ch
    let can := fun (s : State) =>
      ((atChan s b ch).filter (fun a => chanNames s n.2.1 a && classFits n.2.2.1 a && accReady s a))
        ++ (updWrites s b ch).filter (fun a => chanNames s n.2.1 a && classFits n.2.2.1 a)
    (n.2.2.2.1 = true → exec (.memoryChannelSlot b ch ups) s = .next (followed s s2)) ∧
    (∀ a, n.2.2.2.1 = false → firstOf s2 (can s2) = some a →
      exec (.memoryChannelSlot b ch ups) s = .next (followed s (if a.len ≤ 32 then
          (match firstOf (serveOne s2 b a) ((can (serveOne s2 b a)).filter (fun x => x.id != a.id && decide (x.len ≤ 32) && x.pa / 32 % 2 != a.pa / 32 % 2)) with
           | some x => serveOne (serveOne s2 b a) b x
           | none => serveOne s2 b a)
        else serveOne s2 b a))) ∧
    (n.2.2.2.1 = false → firstOf s2 (can s2) = none → (atChan s2 b ch).any (chanNames s2 n.2.1) = false →
      exec (.memoryChannelSlot b ch ups) s = .next (followed s (idleSlot s2 b ch)))

/-- A slot of a lintel port (R56, R60, R576): the frame moves on, transfers that no slot would carry fault, and the first
transfer of the owner and class of the slot that may cross (R19, R33) does; one whose check code fails is sent again or faults
(R519). A transfer of over 64 bytes takes a slot for each 64, and two of at most 32 bytes share one. A tabulation line update is
one read and one write of its line (R209). The read, in a slot, puts the line into the update buffer; LINE_UPDATE computes the
oldest line of a channel in service, adding every update that has merged into it, in order; the write, in a slot again, stores
the line whole, takes it from the buffer and answers every update in it. -/
def Obligations.LintelSlotsAndLineUpdates : Prop :=
  (∀ (b l : Nat) (inward bad : Bool) (s : State) (a : Access), b < 16 → l < 4 → s.pwr.st ≠ 5 →
    let kind := if inward then 2 else 1
    let n := nextSlot s b kind l (fun _ => linkSkipped s l (b * 2 + b2n inward))
    let s2 := violations n.2.2.2.2 kind n.1 (portViolators n.2.2.2.2 b l inward)
    let can := fun (s : State) => (atPort s b l inward).filter (fun a =>
      portNames n.2.1 a && (ofSwitch a || a.cls == n.2.2.1) && mayCross s b l inward a)
    n.2.2.2.1 = false → firstOf s2 (can s2) = some a →
    let s3 := if bad then badTransfer s2 b l inward a else crossPort s2 l a
    exec (.lintelPortSlot b l inward bad) s = .next (followed s (if transferLen a ≤ 32 then
        (match firstOf s3 ((can s3).filter (fun x => x.id != a.id && decide (transferLen x ≤ 32))) with
         | some x => crossPort s3 l x
         | none => s3)
      else s3))) ∧
  (∀ (b : Nat) (s s1 : State) (a : Access) (d : List Byte), isUpdate a = true → (∀ f m, a.purpose ≠ .host f m) → ofAttest s a = false →
    a.len ≤ 64 * (a.sent + 1) → runMc (ctxRead a.ctx (localPa a.pa) a.len (chipOf s a) a.oldOwner) s = (.ok d, s1) →
    serveAcc s b a = s1.modMem b (fun m => { m with upd := m.upd ++ [{ acc := { a with sent := 0 }, old := d }] })) ∧
  (∀ (b : Nat) (s : State) (u : Upd), b < 16 → s.pwr.st ≠ 5 → (s.bay b).mem.upd.find? (canUpdate s b) = some u →
    exec (.lineUpdate b) s = .next (followed s (s.modMem b (fun m => { m with upd := m.upd.map (fun x =>
      if x.acc.id = u.acc.id then { x with new := some ((x.acc :: x.more).foldl (fun d a => updated a d) x.old) } else x) })))) ∧
  (∀ (b : Nat) (s : State) (u : Upd) (d : List Byte), u.new = some d → u.acc.len ≤ 64 * (u.acc.sent + 1) →
    (linesIn (localPa u.acc.pa) u.acc.len).all (fun l => (dirLine s b l).isNone) = true →
    writeUpd s b u = (u.acc :: u.more).foldl (fun s x =>
        match s.accs.find? (fun a => a.id == x.id) with
        | some a => accAnswer s a a.data none
        | none => s)
      ((storeBytes s (localPa u.acc.pa) d).modMem b (fun m => { m with upd := m.upd.filter (fun x => x.acc.id != u.acc.id) })))

/-- Retirement and removal (R303 to R307, R311 to R314). MEM_RQTAIL takes its eight bits; the records held then go to the queue
as it has room. Acknowledging a RETIRE record refuses its page from then on; acknowledging the VACATE record of a removal under
way starts its evacuation; each uses its record up. MEM_SVC's declare-failed starts the removal of a channel of a whole stack;
the command does not say whether the channel can still be read, which is the model's free choice (log entry 121, DESIGN CHOICE), and one that
cannot is lost as well. The end of an evacuation copies what is left and removes the channel with a record of type 5. -/
def Obligations.RetirementAndRemoval : Prop :=
  (∀ (b v : Nat) (s : State), b < 16 → regOpen s (Reg.MEM_RQTAIL b) = true →
    exec (.memRqtailWrite b v) s = .next (followed s (s.setReg (Reg.MEM_RQTAIL b) (v % 256)))) ∧
  (∀ (b v : Nat) (s : State) (r : RetRec), b < 16 → regOpen s (Reg.MEM_RACK b) = true →
    tget none (s.bay b).mem.ring (v % 256) = some r → r.typ = 1 →
    exec (.memRack b v) s = .next (followed s (refusePage
      (s.modMem b (fun m => { m with ring := tset none m.ring (v % 256) none })) b r.ch r.page 1))) ∧
  (∀ (b v ch : Nat) (l c : Bool) (s : State) (r : RetRec), b < 16 → regOpen s (Reg.MEM_RACK b) = true →
    tget none (s.bay b).mem.ring (v % 256) = some r → r.typ = 3 →
    (s.bay b).mem.evac = some (ch, l, c) →
    exec (.memRack b v) s = .next (followed s (logE ((s.modMem b (fun m => { m with ring := tset none m.ring (v % 256) none })).modMem b
      (fun m => { m with evac := some (ch, l, true) })) 0x0B 3 b 0 0 3))) ∧
  (∀ (b ch : Nat) (s : State), b < 16 → ch < 32 → regOpen s (Reg.MEM_SVC b) = true →
    (s.bay b).mem.evac = none → (s.bay b).mem.removed = none → (s.bay b).mem.lost = [] →
    let gone := (s.pick 2).1 != 0
    let s1 := (s.pick 2).2
    let s2 := if gone then logE ((postRet s1 b (retRec s1 b 4 ch 0)).modMem b (fun m => { m with lost := m.lost ++ [ch] })) 0x0C 3 b ch 0 4
      else s1
    exec (.memSvcDeclareFailed b ch) s = .next (followed s (postRet
      (s2.modMem b (fun m => { m with evac := some (ch, gone, false) })) b (retRec s2 b 3 ch 0)))) ∧
  (∀ (b ch : Nat) (s : State), b < 16 → s.pwr.st ≠ 5 → (s.bay b).mem.evac = some (ch, false, true) → (s.bay b).mem.shut = none →
    let s1 := ((evacBad s b ch).foldl (fun s off => evacLine s b ch off) s).modMem b
      (fun m => { m with evac := none, removed := some ch, evacPos := evacLines, evacHeld := false })
    exec (.evacuationCopyDone b) s = .next (followed s (logE (postRet s1 b (retRec s1 b 5 ch 0)) 0x0C 3 b ch 0 5)))

/-- Shutters of a memory channel (R308 to R310, R522). A low margin or MEM_SVC asks for one; the oldest asked for starts when no
channel of the stack is shuttered, counted in MEM_SHUTCNT; its end is logged with its length, kept in MEM_SHUTMAX, and a
retraining clears the failures of the channel; a retraining that fails is logged, and asked for again until the third failure in
a row. MEM_SVC's self-test strikes the channel's resource. The hottest reading of a stack acts as Table 9-11 says (R315):
throttling from 93 °C until below 90 °C, memory hold from 95 °C until below 93 °C, the flag of 90 °C until below 88 °C; at 110
°C or more the device trips. -/
def Obligations.ShuttersAndTemperature : Prop :=
  (∀ (b ch : Nat) (s : State), b < 16 → ch < 32 → s.pwr.st ≠ 5 → (s.bay b).mem.removed ≠ some ch →
    (s.bay b).mem.lost.contains ch = false → (s.bay b).mem.shutQ.contains (ch, 0) = false →
    exec (.marginMonitorLow b ch) s = .next (keepStraps s (s.modMem b (fun m => { m with shutQ := m.shutQ ++ [(ch, 0)] })))) ∧
  (∀ (b ch : Nat) (s : State), b < 16 → ch < 32 → regOpen s (Reg.MEM_SVC b) = true → (s.bay b).mem.removed ≠ some ch →
    (s.bay b).mem.lost.contains ch = false → (s.bay b).mem.shutQ.contains (ch, 0) = false →
    exec (.memSvcRetrain b ch) s = .next (keepStraps s (s.modMem b (fun m => { m with shutQ := m.shutQ ++ [(ch, 0)] })))) ∧
  (∀ (b ch : Nat) (s : State), b < 16 → ch < 32 → regOpen s (Reg.MEM_SVC b) = true →
    exec (.memSvcSelfTest b ch) s = .next (followed s (strike s (.dramLane b ch) ch 1 false))) ∧
  (∀ (b ch cause : Nat) (q : List (Nat × Nat)) (s : State), b < 16 → s.pwr.st ≠ 5 → (s.bay b).mem.shut = none →
    (s.bay b).mem.shutQ = (ch, cause) :: q → cause ≠ 3 →
    exec (.shutterStart b) s = .next (followed s ((s.modMem b (fun m =>
      { m with shut := some { ch, cause, start := s.devTime }, shutQ := q })).incReg (Reg.MEM_SHUTCNT b)))) ∧
  (∀ (b : Nat) (sh : Shutter) (s : State), b < 16 → s.pwr.st ≠ 5 → (s.bay b).mem.shut = some sh → sh.cause = 0 →
    let s1 := logE (noteShut (s.modMem b (fun m => { m with shut := none })) b (s.devTime - sh.start)) 0x08 3 b sh.ch 0 (s.devTime - sh.start)
    exec (.shutterEnd b) s = .next (followed s (s1.modMem b (fun m => { m with
      trainFails := tset 0 m.trainFails sh.ch 0, trainTemp := tset 0 m.trainTemp sh.ch (s1.regN (Reg.MEM_TEMP b) % 256 + 1) })))) ∧
  (∀ (b : Nat) (sh : Shutter) (s : State), b < 16 → s.pwr.st ≠ 5 → (s.bay b).mem.shut = some sh → sh.cause = 0 →
    let n := tget 0 (s.bay b).mem.trainFails sh.ch + 1
    let s1 := logE (noteShut (s.modMem b (fun m => { m with shut := none, trainFails := tset 0 m.trainFails sh.ch n })) b
      (s.devTime - sh.start)) 0x17 3 b sh.ch 0 n
    exec (.retrainingFailure b) s = .next (followed s (if n < 3 then askShutter s1 b sh.ch 0 else channelGone s1 b sh.ch))) ∧
  (∀ (b : Nat) (ts : List Nat) (s : State), b < 16 → s.pwr.st ≠ 5 → s.baysOn = true → (hottest (ts.take 12)).1 < 110 →
    exec (.stackTemperatureRead b ts) s = .next (followed s (stackTemp s b ts))) ∧
  (∀ (b : Nat) (ts : List Nat) (s : State), b < 16 → s.pwr.st ≠ 5 → s.baysOn = true → 110 ≤ (hottest (ts.take 12)).1 →
    exec (.stackTemperatureRead b ts) s = .next (keepStraps s (thermalTrip s))) ∧
  (∀ (b : Nat) (ts : List Nat) (s : State),
    let t := (hottest (ts.take 12)).1
    let m := (s.bay b).mem
    let m' := ((stackTemp s b ts).bay b).mem
    m'.throttle = (decide (93 ≤ t) || (m.throttle && decide (90 ≤ t))) ∧
    m'.hold = (decide (95 ≤ t) || (m.hold && decide (93 ≤ t))) ∧
    m'.hot = (decide (90 ≤ t) || (m.hot && decide (88 ≤ t))))

/-- Walks (R328, R329, R334). When a walk's line has come, a non-leaf entry takes the walk to the next level, and a leaf or a
page fault ends it; a walk that an invalidation marked stale starts again instead of ending. A good reply of the companion fills
the TLB with its leaf and ends the walk that its TAG names. A companion walk without a reply in time fails with 0x94. Virtual
addresses have 48 bits (R321): one with a bit of [63:48] set faults with 0x90 and nothing else happens, no walk and no count. -/
def Obligations.WalksAdvanceAndEnd : Prop :=
  (∀ (b k t : Nat) (s : State) (w : Walk) (a : Access), b < 16 → s.pwr.st ≠ 5 → (localWalks s b)[k]? = some w → w.root = false →
    s.came (walkNeed s b w) = some a → a.flt = none →
    let e := field a.data (walkAddr s b w % 64) 8
    walkEntry w.lvl e = .table t →
    exec (.pageWalkLine b k) s = .next (followed s (nextLine (if w.stale then s else wcFill s b w.ctx w.lvl w.va e) b w
      { w with lvl := w.lvl + 1, tbl := t }))) ∧
  (∀ (b k leaf : Nat) (s : State) (w : Walk) (a : Access), b < 16 → s.pwr.st ≠ 5 → (localWalks s b)[k]? = some w → w.root = false →
    s.came (walkNeed s b w) = some a → a.flt = none → walkEntry w.lvl (field a.data (walkAddr s b w % 64) 8) = .leaf leaf →
    exec (.pageWalkLine b k) s = .next (followed s (if w.stale then restartWalk s b w else
      dropWalk (tlbFill s b w.ctx w.lvl w.va leaf) b w))) ∧
  (∀ (b k cause hpa : Nat) (s : State) (w : Walk) (a : Access), b < 16 → s.pwr.st ≠ 5 → (localWalks s b)[k]? = some w → w.root = false →
    s.came (walkNeed s b w) = some a → a.flt = none → walkEntry w.lvl (field a.data (walkAddr s b w % 64) 8) = .page cause hpa →
    exec (.pageWalkLine b k) s = .next (followed s (if w.stale then restartWalk s b w else pageWalk s b w cause w.lvl hpa))) ∧
  (∀ (b : Nat) (e : Nat × List Byte) (s s1 : State) (w : Walk), b < 16 → s.pwr.st ≠ 5 → takeFin s b 0x2E = some (e, s1) →
    walkOfTag s1 b (mTag e.2) = some w → mStatus e.2 = 0 → replyOk (mBody e.2) = true → field (mBody e.2) 9 1 = 0 →
    malformed (field (mBody e.2) 8 1) (field (mBody e.2) 0 8) = false → w.stale = false →
    exec (.walkrsp b) s = .next (followed s
      (dropWalk (tlbFill s1 b w.ctx (field (mBody e.2) 8 1) w.va (field (mBody e.2) 0 8)) b w))) ∧
  (∀ (b k : Nat) (s : State) (w : Walk), b < 16 → s.pwr.st ≠ 5 →
    ((s.bay b).xlt.walks.filter (fun w => w.host.isSome))[k]? = some w →
    exec (.companionWalkTimeout b k) s = .next (followed s (failWalk s b w { code := 0x94, addr := w.va }))) ∧
  (∀ (w : Who) (b ctx va : Nat) (wr : Bool) (s : State), 2 ^ 48 ≤ va → runMc (xlate w b ctx va wr) s = (.error (.flt { code := 0x90, addr := va }), s))

/-- Invalidations (R332 to R334, R339). INVAL of a known kind drops what it names and waits for the accesses that were
translated through it; one of an unknown kind drops every TLB entry, names every owner-cache line and is logged (log entry 102, DEDUCED).
INVACK answers the oldest one, once no access that it waits for is left, with its TAG on the port by which it came, counted in
XLT_INVAL; the owner-cache lines that it names go with that, and accesses accepted before keep the old owner. XLT_FLUSH drops
every TLB and walk-cache entry of the bay, or every owner-cache line, and changes nothing else. -/
def Obligations.InvalidationsAreServed : Prop :=
  (∀ (b : Nat) (e : Nat × List Byte) (s s1 : State), b < 16 → s.pwr.st ≠ 5 → takeFin s b 0x2F = some (e, s1) →
    field (mBody e.2) 0 1 ≤ 3 →
    exec (.inval b) s = .next (followed s (invalidate s1 b (32 + e.1) (mTag e.2) (field (mBody e.2) 0 1) (mCtx e.2)
      (field (mBody e.2) 4 8) (4096 * field (mBody e.2) 12 8)))) ∧
  (∀ (b : Nat) (e : Nat × List Byte) (s s1 : State), b < 16 → s.pwr.st ≠ 5 → takeFin s b 0x2F = some (e, s1) →
    3 < field (mBody e.2) 0 1 →
    exec (.inval b) s = .next (followed s (logE (invalidate s1 b (32 + e.1) (mTag e.2) (field (mBody e.2) 0 1) (mCtx e.2)
      (field (mBody e.2) 4 8) (4096 * field (mBody e.2) 12 8)) 0x07 2 b (field (mBody e.2) 4 8) 0 0x2F))) ∧
  (∀ (b port tag kind ctx base n : Nat) (s : State), b < 16 → 3 ≤ kind →
    ((invalidate s b port tag kind ctx base n).bay b).xlt.invs.getLast?.map (·.own) =
      some (some (if kind = 3 then (base, n) else (0, 2 ^ 52))) ∧
    (3 < kind → ((invalidate s b port tag kind ctx base n).bay b).xlt.tlb = [])) ∧
  (∀ (b : Nat) (v : Inv) (vs : List Inv) (s : State), b < 16 → s.pwr.st ≠ 5 → (s.bay b).xlt.invs = v :: vs →
    (∀ k ∈ v.waits, ∀ a ∈ s.accs, a.id ≠ k) →
    exec (.invack b) s = .next (keepStraps s ((replyHost (ownersGo (s.modXlt b (fun x => { x with invs := vs })) b v) b (v.port - 32) 1
      (s.hostMsg b 0x30 0 v.tag 0 [])).incReg (Reg.XLT_INVAL b)))) ∧
  (∀ (b : Nat) (s : State), b < 16 → regOpen s (Reg.XLT_FLUSH b) = true →
    exec (.xltFlushTlb b) s = .next (keepStraps s (s.modXlt b (fun x => { x with tlb := [], wc := [] })))) ∧
  (∀ (b : Nat) (s : State), b < 16 → regOpen s (Reg.XLT_FLUSH b) = true →
    exec (.xltFlushOwner b) s = .next (keepStraps s (s.modXlt b (fun x => { x with oc := [] }))))

/-- The fault queue, its notices and migration (R345 to R350, R358, Table 10-9). A resolution whose SEQ matches a pending entry
frees it: retried, its tasks wake; failed, they fault with 0x91. While a notice of the entry is not yet written it is freed once
that is. Any other resolution only counts in XLT_STALERES. The tails of the notice ring and of the pool take their bits. A
migration starts on the oldest entry that asks for one with the next good page of the pool, gives the page to the context, reads
the companion page in four parts, and ends with its notice, which counts it and wakes the entry's tasks once it is written. -/
def Obligations.FaultQueueAndMigration : Prop :=
  (∀ (v : Nat) (s : State) (e : FqEnt), regOpen s Reg.XLT_FRESOLVE = true → tget none s.gx.fq (bits v 7 0) = some e →
    e.st = 1 → e.seq % 65536 = bits v 31 16 → s.gx.noticeHeld.any (noticeOf (bits v 7 0) e) = false →
    exec (.xltFresolve v) s = .next (followed s (if bit v 8 then freeFail s (bits v 7 0) e 0x91 else freeWake s (bits v 7 0) e))) ∧
  (∀ (v : Nat) (s : State) (e : FqEnt), regOpen s Reg.XLT_FRESOLVE = true → tget none s.gx.fq (bits v 7 0) = some e →
    e.st = 1 → e.seq % 65536 = bits v 31 16 → s.gx.noticeHeld.any (noticeOf (bits v 7 0) e) = true →
    exec (.xltFresolve v) s = .next (followed s { s with gx := { s.gx with noticeHeld := s.gx.noticeHeld.map (fun n =>
      if noticeOf (bits v 7 0) e n then { n with frees := some (bits v 7 0, if bit v 8 then some 0x91 else none) } else n) } })) ∧
  (∀ (v : Nat) (s : State), regOpen s Reg.XLT_FRESOLVE = true →
    (∀ e, tget none s.gx.fq (bits v 7 0) = some e → e.st = 1 → e.seq % 65536 ≠ bits v 31 16) →
    exec (.xltFresolve v) s = .next (followed s (s.incReg Reg.XLT_STALERES))) ∧
  (∀ (v : Nat) (s : State), regOpen s Reg.XLT_FNTAIL = true →
    exec (.xltFntailWrite v) s = .next (followed s (retryStalls (s.setReg Reg.XLT_FNTAIL (v % 512))))) ∧
  (∀ (v : Nat) (s : State), regOpen s Reg.XLT_MPTAIL = true →
    exec (.xltMptailWrite v) s = .next (keepStraps s (s.setReg Reg.XLT_MPTAIL (v % 1024)))) ∧
  (∀ (k : Nat) (e : FqEnt) (bs : List Byte) (s s1 : State), s.pwr.st ≠ 5 → s.gx.mig = none → oldestMigrate s = some (k, e) →
    poolEmpty s = false → runMc (sysRead (.ctl .pool) (poolAddr s) 8) s = (.ok bs, s1) →
    let pa := localPa (leNat bs) / 4096 * 4096
    poolPageOk s1 pa = true →
    let m : Mig := { entry := k, step := 2, newpa := pa }
    exec .migrationStart s = .next (followed s (migAt ((setFq (dropNeeds s1 (.ctl .pool)) k (some { e with st := 2, newpa := pa })).setReg
      Reg.XLT_MPHEAD ((s1.regN Reg.XLT_MPHEAD + 1) % 1024)) m 2))) ∧
  (∀ (m : Mig) (e : FqEnt) (s s1 : State), s.pwr.st ≠ 5 → s.gx.mig = some m → m.step = 2 → tget none s.gx.fq m.entry = some e →
    runMc (ownerWrite .pool (m.newpa / 4096) e.ctx) s = (.ok (), s1) →
    exec .migrationStepDone s = .next (followed s (migAt (dropNeeds s1 (.ctl .pool)) m 3))) ∧
  (∀ (m : Mig) (e : FqEnt) (s : State), s.pwr.st ≠ 5 → s.gx.mig = some m → m.step = 3 → tget none s.gx.fq m.entry = some e →
    (∀ a ∈ s.accs, ofMig a = true → a.stage = .got ∧ a.flt = none) →
    exec .migrationStepDone s = .next (followed s (migAt (migReads (dropOwnerAll (dropMig s) (m.newpa / 4096)) (bayOfPa s m.newpa) e.hpa)
      m 4))) ∧
  (∀ (m : Mig) (e : FqEnt) (s : State), s.pwr.st ≠ 5 → s.gx.mig = some m → m.step = 6 → tget none s.gx.fq m.entry = some e →
    (∀ a ∈ s.accs, ofMig a = true → a.stage = .got ∧ a.flt = none) →
    exec .migrationStepDone s = .next (followed s (migAt (postNotice (dropMig s) m.entry 2 { e with newpa := m.newpa } (some none)) m 7))) ∧
  (∀ (n : Notice) (ns : List Notice) (k : Nat) (s : State), s.gx.noticeHeld = n :: ns → field n.bytes 1 1 = 2 → n.frees = some (k, none) →
    let s1 := raiseIrq (({ s with gx := { s.gx with noticeHeld := ns } } : State).setReg Reg.XLT_FNHEAD ((s.regN Reg.XLT_FNHEAD + 1) % 512)) 48
    noticeWritten s = freeEnt (({ s1 with gx := { s1.gx with mig := none } } : State).incReg Reg.XLT_MIGCNT) k none)

/-- A context reset (R372): a write of DSP_CTXRESET runs it at once, or is held behind the one that runs; 0x0000 and 0xFFFF are
ignored. Its tasks leave, its regions and tiles are released, its objects break, its faults are freed. At the end of one the
oldest held starts. -/
def Obligations.ContextResetRuns : Prop :=
  (∀ (b v : Nat) (s : State), b < 16 → regOpen s (Reg.DSP_CTXRESET b) = true → v % 65536 ≠ 0 → v % 65536 ≠ 0xFFFF →
    s.ctxReset = none →
    let s1 := dropStaged (freeFaults (breakOwned (removeTasks s (v % 65536)) (v % 65536)) (v % 65536)) (v % 65536)
    exec (.contextReset b v) s = .next (followed s { s1 with
      ctxReset := some (v % 65536)
      ctxDead := if s1.ctxDead.contains (v % 65536) then s1.ctxDead else s1.ctxDead ++ [v % 65536] })) ∧
  (∀ (b v c : Nat) (s : State), b < 16 → regOpen s (Reg.DSP_CTXRESET b) = true → v % 65536 ≠ 0 → v % 65536 ≠ 0xFFFF →
    s.ctxReset = some c →
    exec (.contextReset b v) s = .next (followed s { s with ctxResetQ := s.ctxResetQ ++ [v % 65536] })) ∧
  (∀ (b v : Nat) (s : State), b < 16 → regOpen s (Reg.DSP_CTXRESET b) = true → v % 65536 = 0 ∨ v % 65536 = 0xFFFF →
    exec (.contextReset b v) s = .next (followed s s)) ∧
  (∀ (c : Nat) (s : State), s.pwr.st ≠ 5 → s.ctxReset = some c → s.ctxResetQ = [] →
    exec .contextResetDone s = .next (followed s { s with ctxReset := none })) ∧
  (∀ (c d : Nat) (q : List Nat) (s : State), s.pwr.st ≠ 5 → s.ctxReset = some c → s.ctxResetQ = d :: q →
    exec .contextResetDone s = .next (followed s (ctxResetRun { s with ctxReset := none, ctxResetQ := q } d)))

/-- Requests and responses between devices (R414 to R419). A well-formed request of a context becomes the accesses of its lines;
an illegal one is discarded and logged, and one whose CTXID no context may have is answered with status 0x1 (the model's
reading, log entries 47 and 114). A response is given to the request of its TAG. A request without an answer in time faults with
0xB1, one to the companion with 0xC1. A remote signal of a context, behind no write of its flow, is applied. XE_RTFLUSH drops
the cached routes. What a response does to its request (R417, R418): it comes in over the lintel of its rim die, with the code
of its status when that is one of 0x1 to 0xB, and with status 0 with its data; a response that matches no request only counts as
late. -/
def Obligations.RemoteRequestsAndResponses : Prop :=
  (∀ (b : Nat) (m : List Byte) (s s1 : State), b < 16 → s.pwr.st ≠ 5 → takeX s b 1 = some (m, s1) → mType m = 1 →
    (mBody m).length = 16 → field (mBody m) 8 4 % 32 = 0 → field (mBody m) 8 4 ≠ 0 → field (mBody m) 8 4 ≤ 1024 → badCtx m = false →
    exec (.rdreq b) s = .next (followed s (serveParts s1 b (mCtx m) false (.remote m) .read (localPa (field (mBody m) 0 8)) []
      (lineParts 33 (localPa (field (mBody m) 0 8)) (field (mBody m) 8 4))))) ∧
  (∀ (b : Nat) (m : List Byte) (s s1 : State), b < 16 → s.pwr.st ≠ 5 → takeX s b 2 = some (m, s1) → mType m = 2 →
    4 ≤ ((mBody m).drop 8).length → ((mBody m).drop 8).length ≤ 1024 → badCtx m = false →
    exec (.wrreq b) s = .next (followed s (serveParts s1 b (mCtx m) false (.remote m) .write (localPa (field (mBody m) 0 8))
      ((mBody m).drop 8) (lineParts 33 (localPa (field (mBody m) 0 8)) ((mBody m).drop 8).length)))) ∧
  (∀ (b : Nat) (m : List Byte) (s s1 : State), b < 16 → s.pwr.st ≠ 5 → takeX s b 3 = some (m, s1) → mType m = 3 →
    field (mBody m) 8 4 = 0 → localPa (field (mBody m) 0 8) % 64 = 0 → (mBody m).length = 80 → badCtx m = false →
    exec (.atomic b) s = .next (followed s (serveParts s1 b (mCtx m) false (.remote m) (.add (field (mBody m) 12 4 % 256))
      (localPa (field (mBody m) 0 8)) ((mBody m).drop 16) [(localPa (field (mBody m) 0 8), 64)]))) ∧
  (∀ (b : Nat) (m : List Byte) (s s1 : State), b < 16 → s.pwr.st ≠ 5 → takeX s b 3 = some (m, s1) → mType m = 3 →
    field (mBody m) 8 4 = 1 → localPa (field (mBody m) 0 8) % 128 = 0 → (mBody m).length = 96 → badCtx m = false →
    exec (.atomic b) s = .next (followed s (serveParts s1 b (mCtx m) false (.remote m) .addLong
      (localPa (field (mBody m) 0 8)) ((mBody m).drop 16) [(localPa (field (mBody m) 0 8), 80)]))) ∧
  (∀ (b : Nat) (m : List Byte) (s s1 : State), b < 16 → s.pwr.st ≠ 5 → takeX s b 1 = some (m, s1) → mType m = 1 → badCtx m = false →
    ((mBody m).length ≠ 16 ∨ field (mBody m) 8 4 % 32 ≠ 0 ∨ field (mBody m) 8 4 = 0 ∨ 1024 < field (mBody m) 8 4) →
    exec (.rdreq b) s = .next (followed s (badRequest s1 b m))) ∧
  (∀ (b : Nat) (m : List Byte) (s s1 : State), b < 16 → s.pwr.st ≠ 5 → takeX s b 2 = some (m, s1) → mType m = 2 → badCtx m = false →
    (((mBody m).drop 8).length < 4 ∨ 1024 < ((mBody m).drop 8).length) →
    exec (.wrreq b) s = .next (followed s (badRequest s1 b m))) ∧
  (∀ (b : Nat) (m : List Byte) (s s1 : State), b < 16 → s.pwr.st ≠ 5 → takeX s b 3 = some (m, s1) → mType m = 3 → badCtx m = false →
    (1 < field (mBody m) 8 4 ∨
    (field (mBody m) 8 4 = 0 ∧ (localPa (field (mBody m) 0 8) % 64 ≠ 0 ∨ (mBody m).length ≠ 80)) ∨
    (field (mBody m) 8 4 = 1 ∧ (localPa (field (mBody m) 0 8) % 128 ≠ 0 ∨ (mBody m).length ≠ 96))) →
    exec (.atomic b) s = .next (followed s (badRequest s1 b m))) ∧
  (∀ (b t : Nat) (c : Instr) (m : List Byte) (s s1 : State), b < 16 → s.pwr.st ≠ 5 →
    (t = 1 ∧ c = .rdreq b ∨ t = 2 ∧ c = .wrreq b ∨ t = 3 ∧ c = .atomic b) → takeX s b t = some (m, s1) → badCtx m = true →
    exec c s = .next (followed s (answerReq s1 b m 1))) ∧
  (∀ (b t : Nat) (c : Instr) (m : List Byte) (s s1 : State), b < 16 → s.pwr.st ≠ 5 →
    (t = 4 ∧ c = .rdresp b ∨ t = 5 ∧ c = .wrack b ∨ t = 6 ∧ c = .atack b) → takeX s b t = some (m, s1) →
    exec c s = .next (followed s (takeResponse s1 b false m))) ∧
  (∀ (b k : Nat) (r : XReq) (a : Access) (s : State), b < 16 → s.pwr.st ≠ 5 →
    ((s.bay b).xe.reqs.filter (fun r => r.host == false))[k]? = some r → s.accs.find? (fun a => a.id == r.access) = some a →
    exec (.remoteTimeout b k) s = .next (followed s (accFails ((s.modXe b (fun x =>
      { x with reqs := x.reqs.filter (fun q => !(q == r)) })).incReg (Reg.XE_TIMEOUT b)) a { code := 0xB1, addr := a.pa }))) ∧
  (∀ (b k : Nat) (r : XReq) (a : Access) (s : State), b < 16 → s.pwr.st ≠ 5 →
    ((s.bay b).xe.reqs.filter (fun r => r.host == true))[k]? = some r → s.accs.find? (fun a => a.id == r.access) = some a →
    exec (.companionTimeout b k) s = .next (followed s (accFails (s.modXe b (fun x =>
      { x with reqs := x.reqs.filter (fun q => !(q == r)) })) a { code := 0xC1, addr := a.pa }))) ∧
  (∀ (b : Nat) (m : List Byte) (s s1 : State), b < 16 → s.pwr.st ≠ 5 → takeX s b 0x0C = some (m, s1) →
    flowWrites s m = false → badCtx m = false →
    exec (.signalMessage b) s = .next (followed s (applySignal s1 {
      obj := field (mBody m) 0 2, amount := field (mBody m) 4 4, pane := mSpane m, chip := mSchip m, ctx := mCtx m, task := none,
      completes := false, guards := [] }))) ∧
  (∀ (b v : Nat) (s : State), b < 16 → regOpen s (Reg.XE_RTFLUSH b) = true → bit v 0 = true →
    exec (.xeRtflush b v) s = .next (keepStraps s (s.modXe b (fun x => { x with routes := [] })))) ∧
  (∀ (b : Nat) (host : Bool) (m : List Byte) (s : State),
    (s.bay b).xe.reqs.find? (fun r => r.tag == mTag m && r.host == host && r.mtype + 3 == mType m && (host || r.chip == mSchip m)) = none →
    takeResponse s b host m = s.incReg (if host then Reg.FLX_LATE else Reg.XE_LATE b)) ∧
  (∀ (b : Nat) (host : Bool) (m : List Byte) (s : State) (r : XReq) (a : Access),
    (s.bay b).xe.reqs.find? (fun r => r.tag == mTag m && r.host == host && r.mtype + 3 == mType m && (host || r.chip == mSchip m)) = some r →
    s.accs.find? (fun a => a.id == r.access) = some a → mStatus m = 0 →
    takeResponse s b host m = setAcc (s.modXe b (fun x => { x with reqs := x.reqs.filter (fun q => !(q == r)) }))
      { a with stage := .rspIn (portLintel r.port), data := if mType m = 4 then mBody m else a.data }) ∧
  (∀ (b : Nat) (host : Bool) (m : List Byte) (s : State) (r : XReq) (a : Access),
    (s.bay b).xe.reqs.find? (fun r => r.tag == mTag m && r.host == host && r.mtype + 3 == mType m && (host || r.chip == mSchip m)) = some r →
    s.accs.find? (fun a => a.id == r.access) = some a → mStatus m ≠ 0 → mStatus m < 0xC →
    takeResponse s b host m = setAcc (s.modXe b (fun x => { x with reqs := x.reqs.filter (fun q => !(q == r)) }))
      { a with stage := .rspIn (portLintel r.port), flt := some {
          code := statusCode (mStatus m) (match a.purpose with | .se _ _ _ _ => true | _ => false), addr := field (mBody m) 0 8 } })

/-- The companion's messages (R434 to R439, R443). CRDS, CRDO, CRDU, CWR and CWB become accesses of the lines they name, in the
slots of the bay that holds them. CEVICT makes its line Invalid once nothing that the die asked of it is left. A doorbell
message acts as a write of BAY_DOORBELL behind the writes of its port. An answer to a snoop that brings modified data becomes
the write of its line, and one that brings none ends the snoop; a snoop without an answer is logged and its line counted as
lost. Before READY a read is refused with status not ready, and a write, an eviction or a doorbell is discarded; each is counted
in FLX_EARLY. -/
def Obligations.CompanionMessages : Prop :=
  (∀ (f t : Nat) (c : Instr) (m : List Byte) (s s1 : State), f < 2 → s.pwr.st ≠ 5 → s.boot.ready = true → s1.boot.ready = true →
    (t = 0x20 ∧ c = .crds f ∨ t = 0x21 ∧ c = .crdo f) → takeHost s f t = some (m, s1) →
    let pa := localPa (field (mBody m) 0 8)
    exec c s = .next (followed s (serveParts s1 (finBay s1 m) 0 true (.host f m) .read (pa / 64 * 64) [] [(pa / 64 * 64, 64)]))) ∧
  (∀ (f : Nat) (m : List Byte) (s s1 : State), f < 2 → s.pwr.st ≠ 5 → s1.boot.ready = true → takeHost s f 0x22 = some (m, s1) →
    field (mBody m) 8 4 % 64 = 0 → field (mBody m) 8 4 ≠ 0 → field (mBody m) 8 4 ≤ 1024 →
    let pa := localPa (field (mBody m) 0 8)
    exec (.crdu f) s = .next (followed s (serveParts s1 (finBay s1 m) 0 true (.host f m) .read pa []
      (lineParts 33 pa (field (mBody m) 8 4))))) ∧
  (∀ (f : Nat) (m : List Byte) (s s1 : State), f < 2 → s.pwr.st ≠ 5 → s1.boot.ready = true → takeHost s f 0x23 = some (m, s1) →
    4 ≤ ((mBody m).drop 8).length → ((mBody m).drop 8).length ≤ 1024 →
    let pa := localPa (field (mBody m) 0 8)
    exec (.cwr f) s = .next (followed s (serveParts s1 (finBay s1 m) 0 true (.host f m) .write pa ((mBody m).drop 8)
      (lineParts 33 pa ((mBody m).drop 8).length)))) ∧
  (∀ (f : Nat) (m : List Byte) (s s1 : State), f < 2 → s.pwr.st ≠ 5 → s1.boot.ready = true → takeHost s f 0x24 = some (m, s1) →
    ((mBody m).drop 8).length = 64 →
    let pa := localPa (field (mBody m) 0 8)
    exec (.cwb f) s = .next (followed s (serveParts s1 (finBay s1 m) 0 true (.host f m) .write (pa / 64 * 64) ((mBody m).drop 8)
      [(pa / 64 * 64, 64)]))) ∧
  (∀ (f : Nat) (m : List Byte) (s s1 : State), f < 2 → s.pwr.st ≠ 5 → s.boot.ready = true → takeHost s f 0x25 = some (m, s1) →
    let line := localPa (field (mBody m) 0 8) / 64 * 64
    hostBusy s f line = false →
    exec (.cevict f) s = .next (followed s (s1.modBay (bayOfPa s line) (fun x => { x with dir := x.dir.filter (fun d => d.line != line) })))) ∧
  (∀ (f : Nat) (m : List Byte) (s s1 : State), f < 2 → s.pwr.st ≠ 5 → s.boot.ready = true → takeHost s f 0x29 = some (m, s1) →
    hostWritesDone s f = true →
    exec (.doorbell f) s = .next (followed s (doorbell s1 (mDbay m) (field (mBody m) 0 4)))) ∧
  (∀ (f : Nat) (e : Nat × List Byte) (s : State), f < 2 → s.pwr.st ≠ 5 → s.fin.find? (isSnprsp f) = some e →
    let line := localPa (field (mBody e.2) 0 8) / 64 * 64
    let s1 := { s with fin := eraseFirst (isSnprsp f) s.fin }
    writebackCrossed s f line = false → answerWrites s line = false → (s.bay (bayOfPa s line)).snoops.any (fun n => n.line == line) = true →
    exec (.snprsp f) s = .next (followed s (if bit (field (mBody e.2) 8 4) 0 then
      serveParts s1 (bayOfPa s line) 0 true (.host f e.2) .write line (((mBody e.2).drop 16).take 64) [(line, 64)]
      else endSnoop s1 (bayOfPa s line) line))) ∧
  (∀ (b k : Nat) (n : Snoop) (s : State), b < 16 → s.pwr.st ≠ 5 → (s.bay b).snoops[k]? = some n → answerWrites s n.line = false →
    exec (.snoopTimeout b k) s = .next (followed s (endSnoop ((logE s 0x16 3 b n.line).incReg Reg.FLX_LOSTLN) b n.line))) ∧
  (∀ (f t : Nat) (c : Instr) (m : List Byte) (s s1 : State), f < 2 → s.pwr.st ≠ 5 → s.boot.ready = false → s1.boot.ready = false →
    (t = 0x20 ∧ c = .crds f ∨ t = 0x21 ∧ c = .crdo f ∨ t = 0x22 ∧ c = .crdu f) → takeHost s f t = some (m, s1) →
    exec c s = .next (followed s (answerHost (s1.incReg (Reg.FLX_EARLY f)) (finBay s1 m) f m 0x26 0xA (leBytes 8 (field (mBody m) 0 8))))) ∧
  (∀ (f t : Nat) (c : Instr) (m : List Byte) (s s1 : State), f < 2 → s.pwr.st ≠ 5 → s.boot.ready = false → s1.boot.ready = false →
    (t = 0x23 ∧ c = .cwr f ∨ t = 0x24 ∧ c = .cwb f ∨ t = 0x25 ∧ c = .cevict f ∨ t = 0x29 ∧ c = .doorbell f) →
    takeHost s f t = some (m, s1) →
    exec c s = .next (followed s (s1.incReg (Reg.FLX_EARLY f))))

/-- An engine's command that this step starts, of the length its row gives, runs its body (R50 to R53): a body that ends
completes the command; one that goes on leaves it under way. What the NGE has begun it advances at once; a table command begins
its work on its bay, which settles after it. SASH alone may carry immediate data (R191), outside Run mode. -/
def Obligations.EngineCommandsRunTheirBodies : Prop :=
  ∀ (i c : Nat) (fin : Bool) (j : TeJob) (s s1 s2 : State), i < 144 → s.pwr.st ≠ 5 →
    let after := fun (r : CmdRow) (fin : Bool) => if fin then completed s2 i c r else underWay s2 i r.eng
    let runs := fun (j : TeJob) => underWay (s2.modTe (bayOf i) (fun x => { x with jobs := [j] })) i 5
    (startState s i c (arrRow 1 48) (cellBusy i) = some s1 → plainForm c 48 = true → runMc (matmulBody i c) s1 = (.ok fin, s2) →
      exec (.matmul i c) s = .next (followed s (after (arrRow 1 48) fin))) ∧
    (startState s i c (arrRow 2 32) (drainBusy i c) = some s1 → plainForm c 32 = true → runMc (drainBody i c) s1 = (.ok fin, s2) →
      exec (.drain i c) s = .next (followed s (after (arrRow 2 32) fin))) ∧
    (startState s i c (arrRow 3 32) (cellBusy i) = some s1 → plainForm c 32 = true → runMc (encodeBody i c) s1 = (.ok fin, s2) →
      exec (.encode i c) s = .next (followed s (after (arrRow 3 32) fin))) ∧
    (startState s i c chstepRow (fun _ => false) = some s1 → plainForm c 48 = true → runMc (chstepBody i c) s1 = (.ok fin, s2) →
      exec (.chstep i c) s = .next (followed s (after chstepRow fin))) ∧
    (startState s i c (vecRow 1 128 none) (engBusy i 2) = some s1 → plainForm c 128 = true → runMc (sashBody i c) s1 = (.ok fin, s2) →
      exec (.sash i c) s = .next (followed s (after (vecRow 1 128 none) fin))) ∧
    (startState s i c (vecRow 1 128 none) (engBusy i 2) = some s1 → hLen c = 144 → hImm c = true → (s1.pane i).mode ≠ 0 →
      runMc (sashBody i c) s1 = (.ok fin, s2) → exec (.sash i c) s = .next (followed s (after (vecRow 1 128 none) fin))) ∧
    (startState s i c (vecRow 2 64 (some 0x50)) (engBusy i 2) = some s1 → plainForm c 64 = true → runMc (reduceBody i c) s1 = (.ok fin, s2) →
      exec (.reduce i c) s = .next (followed s (after (vecRow 2 64 (some 0x50)) fin))) ∧
    (startState s i c (vecRow 3 80 (some 0x50)) (engBusy i 2) = some s1 → plainForm c 80 = true → runMc (tabulateBody i c) s1 = (.ok fin, s2) →
      exec (.tabulate i c) s = .next (followed s (after (vecRow 3 80 (some 0x50)) fin))) ∧
    (startState s i c (ngeRow 1 80) (engBusy i 3) = some s1 → plainForm c 80 = true → runMc (gatherBody i c) s1 = (.ok fin, s2) →
      exec (.gather i c) s = .next (followed s (ngeGo (after (ngeRow 1 80) fin) i))) ∧
    (startState s i c (ngeRow 2 64) (engBusy i 3) = some s1 → plainForm c 64 = true → runMc (seggatherBody i c) s1 = (.ok fin, s2) →
      exec (.seggather i c) s = .next (followed s (ngeGo (after (ngeRow 2 64) fin) i))) ∧
    (startState s i c (ngeRow 3 48) (engBusy i 3) = some s1 → plainForm c 48 = true → runMc (degscanBody i c) s1 = (.ok fin, s2) →
      exec (.degscan i c) s = .next (followed s (ngeGo (after (ngeRow 3 48) fin) i))) ∧
    (startState s i c (ngeRow 4 48) (engBusy i 3) = some s1 → plainForm c 48 = true → runMc (seqstageBody i c) s1 = (.ok fin, s2) →
      exec (.seqstage i c) s = .next (followed s (ngeGo (after (ngeRow 4 48) fin) i))) ∧
    (startState s i c (ngeRow 5 48) (engBusy i 3) = some s1 → plainForm c 48 = true → runMc (seqsoftBody i c) s1 = (.ok fin, s2) →
      exec (.seqsoft i c) s = .next (followed s (ngeGo (after (ngeRow 5 48) fin) i))) ∧
    (startState s i c (seRow 1 32) (fun _ => false) = some s1 → plainForm c 32 = true → runMc (sopenBody i c) s1 = (.ok fin, s2) →
      exec (.sopen i c) s = .next (followed s (after (seRow 1 32) fin))) ∧
    (startState s i c checkRow (fun _ => false) = some s1 → plainForm c 48 = true → runMc (checkBody i c) s1 = (.ok fin, s2) →
      exec (.check i c) s = .next (followed s (after checkRow fin))) ∧
    (startState s i c (teRow 1 64) (fun _ => false) = some s1 → plainForm c 64 = true → runMc (tlookupBody i c) s1 = (.ok j, s2) →
      exec (.tlookup i c) s = .next (followedTe s (runs j))) ∧
    (startState s i c (teRow 2 64) (fun _ => false) = some s1 → plainForm c 64 = true → runMc (tprefetchBody i c) s1 = (.ok j, s2) →
      exec (.tprefetch i c) s = .next (followedTe s (runs j))) ∧
    (startState s i c (teRow 3 64) (fun _ => false) = some s1 → plainForm c 64 = true → runMc (tgradBody i c) s1 = (.ok j, s2) →
      exec (.tgrad i c) s = .next (followedTe s (runs j))) ∧
    (startState s i c (teRow 4 32) (fun _ => false) = some s1 → plainForm c 32 = true → runMc (tstepBody i c) s1 = (.ok j, s2) →
      exec (.tstepApply i c) s = .next (followedTe s (runs j))) ∧
    (startState s i c (teRow 4 32) (fun _ => false) = some s1 → plainForm c 32 = true → runMc (tstepBody i c) s1 = (.ok j, s2) →
      exec (.tstepRefresh i c) s = .next (followedTe s (runs j))) ∧
    (startState s i c (teRow 5 32) (fun _ => false) = some s1 → plainForm c 32 = true → runMc (treplBody i c) s1 = (.ok j, s2) →
      exec (.trepl i c) s = .next (followedTe s (runs j))) ∧
    (startState s i c (teRow 6 32) (fun _ => false) = some s1 → plainForm c 32 = true → runMc (tmigrateBody i c) s1 = (.ok j, s2) →
      exec (.tmigrate i c) s = .next (followedTe s (runs j))) ∧
    (startState s i c (teRow 7 32) (fun _ => false) = some s1 → plainForm c 32 = true → runMc (trowwriteBody i c) s1 = (.ok j, s2) →
      exec (.trowwrite i c) s = .next (followedTe s (runs j)))

/-- A MATMUL that passes its checks does not complete: it leaves its whole result pending, with its tile, its tag and its flags,
for the result write that is a step of its own (R95). The result write of a MATMUL (R95, R118): the accumulator bytes, the flags
of its tile and the bytes of its partial-sum area are written, the tiles that a start overlaps end their reductions, the cell
path is free, and the command completes. DRAIN (R96, R97): a sound DRAIN of a claimed tile converts its elements, rectified
first when RECT is set, writes them at DADDR by rows or as a dense tile, counts the saturated ones and the NaNs, and completes.
-/
def Obligations.ArrayResults : Prop :=
  (∀ (i c : Nat) (fin : Bool) (s s1 : State), runMc (matmulBody i c) s = (.ok fin, s1) →
    fin = false ∧ ∃ m, (s1.pane i).mat = some m ∧ m.acct = cbits c 24 6 0 ∧ m.long = (cbits c 24 7 7 == 1) ∧ m.tag = hTag c ∧
      m.flags.inprog = !(cbits c 24 10 10 == 1) ∧ m.start = !(cbits c 24 9 8 == 1)) ∧
  (∀ (i : Nat) (s : State) (m : MatPending), i < 144 → s.pwr.st ≠ 5 → mayRun s i = true → (s.pane i).mat = some m →
    exec (.matmulResultWrite i) s = .next (followed s (cmdDone ((accStore s i m.acc).modPane i (fun p =>
      { setTile (if m.start then endOverlapped p m.acct m.long else p) m.acct m.long m.flags with
        mat := none
        sp := tsetAll 0 p.sp m.sp
        spErr := m.sp.foldl (fun t e => tdel t (e.1 / 4 * 4)) p.spErr })) i 1 1 m.tag))) ∧
  (∀ (i c : Nat) (s s1 s2 s3 : State) (t : Task) (xs : List Nat), i < 144 → s.pwr.st ≠ 5 →
    startState s i c (arrRow 2 32) (drainBusy i c) = some s1 → plainForm c 32 = true →
    cbits c 12 31 13 = 0 → cbytes c 16 16 = 0 → cbits c 8 23 0 % 128 = 0 → cbits c 8 27 24 < 8 →
    (cbits c 8 31 31 = 0 ∨ cbits c 8 27 24 = 5 ∨ cbits c 8 27 24 = 6) →
    let acct := cbits c 12 6 0
    let long := cbits c 12 7 7 == 1
    let rect := cbits c 8 28 28 == 1
    let f := tileFlags (s1.pane i) acct long
    (long = false ∨ acct ≤ 5) → (cbits c 12 12 8 = 0 ∨ (cbits c 8 27 24 = 5 ∨ cbits c 8 27 24 = 6) ∧ f.kind % 2 = 1) →
    (f.pred = false ∨ rect = true) → (s1.pane i).task.bind s1.taskOf = some t →
    inClaim t (cbits c 8 23 0) (tileBytes (cbits c 8 27 24)) = true → tileClaimed t acct long = true →
    runMc (readTile i 1 acct long) s1 = (.ok xs, s2) →
    let rs := xs.map (fun x => convert (cbits c 8 27 24) (cbits c 8 29 29 == 1) (cbits c 8 31 31 == 1) (cbits c 12 12 8)
      (if rect then rectify (elemVal f.kind long x) else elemVal f.kind long x))
    runMc (spWrite i 1 (cbits c 8 23 0) (packElems (fmtBits (cbits c 8 27 24))
      ((drainOrder (cbits c 8 27 24) (cbits c 8 30 30 == 1)).map (fun k => ((rs[k]?).map CRes.out).getD 0)))) s2 = (.ok (), s3) →
    let s4 := if (rs.filter CRes.sat).length = 0 then s3 else s3.incReg (paneBase i + 0x11C) (rs.filter CRes.sat).length
    let s5 := if (rs.filter CRes.nan).length = 0 then s4 else s4.incReg (paneBase i + 0x120) (rs.filter CRes.nan).length
    exec (.drain i c) s = .next (followed s (completed s5 i c (arrRow 2 32))))

/-- Chain records (R136, R419). The oldest record of this device that has come to a bay lands, once its bytes for a save area
are written, in the regions its context owns, and its DSYNC is signalled behind it; a record from another device does the same
once nothing of its flow precedes it; a record of a pane number that no pane holds is discarded and logged. -/
def Obligations.ChainRecordsLand : Prop :=
  (∀ (b task j : Nat) (m : List Byte) (q : List (Nat × List Byte)) (s s1 : State), b < 16 → s.pwr.st ≠ 5 →
    (s.bay b).xe.chain = (task, m) :: q → s.instOf (field (mBody m) 0 1 % 128) = some j → s.ctxReset ≠ some (mCtx m) →
    runMc (landBytes (.bay b (.land false)) j (field (mBody m) 0 1 % 128) (mCtx m) (field (mBody m) 4 4) ((mBody m).drop 8)) s
      = (.ok true, s1) →
    exec (.chainRecordLand b) s = .next (followed s ((sendSignal (dropNeeds s1 (.bay b (.land false))) {
      obj := field (mBody m) 2 2, amount := 1, pane := mSpane m, chip := mSchip m, ctx := mCtx m
      task := some task, completes := false, guards := [] }).modXe b (fun x => { x with chain := x.chain.drop 1 })))) ∧
  (∀ (b task : Nat) (m : List Byte) (q : List (Nat × List Byte)) (s : State), b < 16 → s.pwr.st ≠ 5 →
    (s.bay b).xe.chain = (task, m) :: q → s.instOf (field (mBody m) 0 1 % 128) = none →
    exec (.chainRecordLand b) s = .next (followed s ((logE (dropNeeds s (.bay b (.land false))) 0x07 2 b (field (mBody m) 4 4)
      (detail 0 (mCtx m)) 0x0B).modXe b (fun x => { x with chain := x.chain.drop 1 })))) ∧
  (∀ (b j : Nat) (m : List Byte) (s s0 s1 : State), b < 16 → s.pwr.st ≠ 5 → takeX s b 0x0B = some (m, s0) →
    s.instOf (field (mBody m) 0 1 % 128) = some j → s.ctxReset ≠ some (mCtx m) →
    runMc (landBytes (.bay b (.land true)) j (field (mBody m) 0 1 % 128) (mCtx m) (field (mBody m) 4 4) ((mBody m).drop 8)) s
      = (.ok true, s1) →
    exec (.chrec b) s = .next (followed s ((sendSignal (dropNeeds s1 (.bay b (.land true))) {
      obj := field (mBody m) 2 2, amount := 1, pane := mSpane m, chip := mSchip m, ctx := mCtx m
      task := none, completes := false, guards := [] }).modXe b (fun x => { x with xin := x.xin.erase m }))))

/-- A narrow read comes back to its pane's gather (R160 to R164): its bytes join their row, the access is gone, and the job
advances as far as it can; a job that ends completes its command. A gather that a page fault has stalled takes nothing (R345).
DEGSCAN (R166): the vertices of the range whose degree exceeds the threshold are listed behind the header of the hub list, at
most CAP of them, with their degrees and first segments; when all fit, the command completes. -/
def Obligations.GatherAndDegreeScan : Prop :=
  (∀ (i k : Nat) (fin : Bool) (s s1 s2 : State) (a : Access) (j : NgeJob), i < 144 → s.pwr.st ≠ 5 → (s.pane i).stalled = false →
    s.accs.find? (fun a => a.purpose == .nge i k && a.stage == .got && a.flt.isNone) = some a →
    runMc (narrowReturn i k a.data) (dropAcc s a.id) = (.ok (), s1) → (s1.pane i).nge = some j → (s1.pane i).stalled = false →
    runMc (pump i (s1.pane i).ctx (j.last - j.done + 1)) s1 = (.ok fin, s2) →
    exec (.narrowReadReturn i k) s = .next (followed s
      (if fin then cmdDone (dropFetched s2 i 3) i 3 j.op (hTag j.cmd) else dropFetched s2 i 3))) ∧
  (∀ (i k : Nat) (s : State), i < 144 → s.pwr.st ≠ 5 → (s.pane i).stalled = true →
    exec (.narrowReadReturn i k) s = .next (followed s s)) ∧
  (∀ (i k : Nat) (s : State), i < 144 → s.pwr.st ≠ 5 → (s.pane i).nge = none →
    s.accs.find? (fun a => a.purpose == .nge i k && a.stage == .got && a.flt.isNone) = none →
    exec (.narrowReadReturn i k) s = .next (followed s s)) ∧
  (∀ (i c : Nat) (s s1 s2 s3 s4 s5 : State) (t : Task) (ds : List Byte) (hubs : List (Nat × Nat × Nat)), i < 144 → s.pwr.st ≠ 5 →
    startState s i c (ngeRow 3 48) (engBusy i 3) = some s1 → plainForm c 48 = true →
    cbits c 16 63 40 = 0 → cbits c 24 31 29 = 0 → cbytes c 40 8 = 0 → cbits c 24 23 0 ≠ 0 → badTlog (cbits c 24 28 24) = false →
    cbytes c 32 8 % 64 = 0 → (s1.pane i).task.bind s1.taskOf = some t →
    runMc (readDesc i t.ctx (cbytes c 8 8)) s1 = (.ok ds, s2) → cbits c 16 39 0 + cbits c 24 23 0 ≤ (gdesc ds).nv →
    let tlog := tlogOf (cbits c 24 28 24)
    runMc (scanHubs i t.ctx (gdesc ds) tlog (cbits c 16 39 0) (cbits c 24 23 0)) s2 = (.ok hubs, s3) →
    hubs.length ≤ cbytes c 28 4 →
    runMc (postPart i t.ctx 0 3 0 (cbytes c 32 8 + 0x40) (hubBytes 0 hubs)) s3 = (.ok (), s4) →
    runMc (postPart i t.ctx 0 3 0 (cbytes c 32 8) (leBytes 8 (cbits c 16 39 0) ++ leBytes 4 (cbits c 24 23 0 + tlog * 2 ^ 24)
      ++ leBytes 4 hubs.length ++ leBytes 4 ((hubs.map (fun x => x.2.2)).foldl (· + ·) 0) ++ leBytes 44 0)) s4 = (.ok (), s5) →
    exec (.degscan i c) s = .next (followed s (ngeGo (completed s5 i c (ngeRow 3 48)) i)))

/-- SEQSOFT (R177 to R179): the maximum pass takes each row's maximum of the scaled scores that are not masked into its
statistics; the probability pass writes the exponentials of the scaled scores less the row's maximum as BF16, and zero where a
pair is masked. -/
def Obligations.SeqsoftRunsItsPass : Prop :=
  ∀ (i c : Nat) (s s1 s2 s3 s4 : State) (t : Task) (sc st : List Byte), i < 144 → s.pwr.st ≠ 5 →
    startState s i c (ngeRow 5 48) (engBusy i 3) = some s1 → plainForm c 48 = true →
    cbits c 8 31 24 = 0 → cbits c 12 31 27 = 0 → cbits c 16 31 24 = 0 → cbits c 20 31 24 = 0 → cbits c 28 31 13 = 0 →
    cbits c 32 31 24 = 0 → cbits c 36 31 24 = 0 → cbytes c 40 8 = 0 →
    let mode := cbits c 12 25 24
    let win := cbits c 28 12 0
    let expo := cbits c 12 26 26 == 1
    mode ≠ 3 → (mode = 2 → win ≠ 0 ∧ win ≤ 4096) → cbits c 8 23 0 % 64 = 0 → (f32 (cbytes c 24 4)).isFin = true →
    cbits c 32 23 0 % 64 = 0 → (expo = true → cbits c 36 23 0 % 128 = 0) → (mode ≠ 2 → cbits c 20 23 0 < 2 ^ 20) →
    (s1.pane i).task.bind s1.taskOf = some t → inClaim t (cbits c 8 23 0) 16384 = true → inClaim t (cbits c 32 23 0) 256 = true →
    (expo = true → inClaim t (cbits c 36 23 0) 8192 = true) →
    runMc (spRead i 3 (cbits c 8 23 0) 16384) s1 = (.ok sc, s2) → runMc (spRead i 3 (cbits c 32 23 0) 256) s2 = (.ok st, s3) →
    let x := fun (a b : Nat) => scaled (cbytes c 24 4) (field sc (256 * a + 4 * b) 4)
    let masked := fun (a b : Nat) => seqMasked mode win (cbits c 20 23 0) (cbits c 12 23 0 + a) (cbits c 16 23 0 + b)
    runMc (if expo then spWrite i 3 (cbits c 36 23 0) ((List.range 64).flatMap (fun b => (List.range 64).flatMap (fun a =>
        leBytes 2 (if masked a b then 0 else prob (x a b) (field st (4 * a) 4)))))
      else spWrite i 3 (cbits c 32 23 0) ((List.range 64).flatMap (fun a =>
        leBytes 4 ((List.range 64).foldl (fun mx b => if masked a b then mx else pickMax true mx (x a b)) (field st (4 * a) 4)))))
      s3 = (.ok (), s4) →
    exec (.seqsoft i c) s = .next (followed s (ngeGo (completed s4 i c (ngeRow 5 48)) i))

/-- The table engine as an owner and a requester (R229, R230, R237, R238, R247). The first request that can be dealt with is
answered with its row, forwarded to the owner its entry names, or answered absent, each with the stamp of the table's last
applied step. A taken contribution is acknowledged. A row that comes back reaches its command. A copied row that was written
meanwhile is copied again, whole; one that no apply of its table may still write flips to its target. A row that arrives for a
lookup joins what the command holds and is no longer outstanding (R229, R232). Messages of other devices to the table engine
(Table 12-11). The rows of a well-formed LKREQ and the contribution of a GRAD join the bay's, when their CTXID is one a context
may have (the model's reading, log entry 114, DEDUCED); an LKRESP without a failure brings its row to its command; a GRACK ends an
outstanding contribution; a table-service message joins those that the bay's table engine serves. TE_CTRCLR with bit 0 set
clears the eighteen counters and nothing else. -/
def Obligations.TableEngineServes : Prop :=
  (∀ (b stamp : Nat) (r : RowMsg) (rs : List RowMsg) (data : List Byte) (s s1 : State), b < 16 → s.pwr.st ≠ 5 →
    (s.bay b).te.reqIn = r :: rs → runMc (serveRow (teOwn b (rowNo r)) r) s = (.ok (.row data stamp), s1) →
    exec (.rowRequest b) s = .next (followedTe s ((dropNeeds (answerRow s1 b { r with data, stamp }) (.te b (rowNo r))).modTe b
      (fun x => { x with reqIn := x.reqIn.erase r })))) ∧
  (∀ (b dst : Nat) (r : RowMsg) (rs : List RowMsg) (s s1 s2 : State), b < 16 → s.pwr.st ≠ 5 →
    (s.bay b).te.reqIn = r :: rs → runMc (serveRow (teOwn b (rowNo r)) r) s = (.ok (.fwd dst), s1) →
    runMc (forwardRow b dst r) s1 = (.ok (), s2) →
    exec (.rowRequest b) s = .next (followedTe s ((dropNeeds s2 (.te b (rowNo r))).modTe b (fun x => { x with reqIn := x.reqIn.erase r })))) ∧
  (∀ (b stamp : Nat) (r : RowMsg) (rs : List RowMsg) (s s1 : State), b < 16 → s.pwr.st ≠ 5 →
    (s.bay b).te.reqIn = r :: rs → runMc (serveRow (teOwn b (rowNo r)) r) s = (.ok (.absent stamp), s1) →
    exec (.rowRequest b) s = .next (followedTe s ((dropNeeds (answerRow s1 b { r with absent := true, stamp }) (.te b (rowNo r))).modTe b
      (fun x => { x with reqIn := x.reqIn.erase r })))) ∧
  (∀ (b : Nat) (c : Contrib) (cs : List Contrib) (s s1 s2 : State), b < 16 → s.pwr.st ≠ 5 →
    (s.bay b).te.conIn = c :: cs → runMc (serveCon (teOwn b (conNo c)) c) s = (.ok .taken, s1) → runMc (ackCon b c 0) s1 = (.ok (), s2) →
    exec (.contribution b) s = .next (followedTe s ((dropNeeds s2 (.te b (conNo c))).modTe b (fun x => { x with conIn := x.conIn.erase c })))) ∧
  (∀ (b : Nat) (r : RowMsg) (rs : List RowMsg) (s : State), b < 16 → s.pwr.st ≠ 5 → (s.bay b).te.rspIn = r :: rs →
    exec (.rowResponse b) s = .next (followedTe s (takeRow (s.modTe b (fun x => { x with rspIn := rs })) b r))) ∧
  (∀ (b : Nat) (c : TeCopy) (d : TDesc) (sh : Shard) (x : RowAt) (bs : List Byte) (s s1 s2 s3 s4 : State), b < 16 → s.pwr.st ≠ 5 →
    (s.bay b).te.copies.find? (·.landed) = some c → c.dirty = true → runMc (ownerTable (teOwn b (copyNo c)) c.table) s = (.ok (d, sh), s1) →
    runMc (findRow (teOwn b (copyNo c)) d sh c.row) s1 = (.ok (some x), s2) →
    runMc (readRecord_ (teOwn b (copyNo c)) d sh x) s2 = (.ok bs, s3) → runMc (sendCopy b c bs) s3 = (.ok (), s4) →
    exec (.migrationCopyDone b) s = .next (followedTe s (dropNeeds (s4.modTe b (fun t => { t with copies := t.copies.flatMap (fun k =>
      if k.table = c.table ∧ k.row = c.row then [{ k with dirty := false, landed := false }] else [k]) })) (.te b (copyNo c))))) ∧
  (∀ (b : Nat) (c : TeCopy) (d : TDesc) (sh : Shard) (x : RowAt) (hd : List Byte) (s s1 s2 s3 s4 : State), b < 16 → s.pwr.st ≠ 5 →
    (s.bay b).te.copies.find? (·.landed) = some c → c.dirty = false → c.again = false →
    runMc (ownerTable (teOwn b (copyNo c)) c.table) s = (.ok (d, sh), s1) →
    runMc (findRow (teOwn b (copyNo c)) d sh c.row) s1 = (.ok (some x), s2) → applying s2 b c.table sh = false →
    runMc (readRow (teOwn b (copyNo c)) d sh x) s2 = (.ok hd, s3) → runMc (flipRow (teOwn b (copyNo c)) d x c) s3 = (.ok (), s4) →
    exec (.migrationCopyDone b) s = .next (followedTe s (dropNeeds s4 (.te b (copyNo c))))) ∧
  (∀ (b : Nat) (r : RowMsg) (s : State) (j : TeJob),
    (s.bay b).te.jobs.find? (fun j => j.sent.any (fun e => e.1 == r.tag && e.2.contains r.slot)) = some j → r.code = 0 → j.op = 1 →
    ∃ k, ((takeRow s b r).bay b).te.jobs = [k] ∧
      k.got = j.got ++ [{ id := r.slot, absent := r.absent, owner := r.owner, stamp := r.stamp, data := r.data }] ∧
      k.sent = (j.sent.map (fun e => if e.1 = r.tag then (e.1, e.2.erase r.slot) else e)).filter (fun e => !e.2.isEmpty)) ∧
  (∀ (b : Nat) (m : List Byte) (s s1 : State), b < 16 → s.pwr.st ≠ 5 → takeX s b 0x07 = some (m, s1) →
    0 < field (mBody m) 8 4 → field (mBody m) 8 4 ≤ 255 → (mBody m).length = 12 + 8 * field (mBody m) 8 4 → badCtx m = false →
    let rows := (List.range (field (mBody m) 8 4)).map (fun (k : Nat) => ({
      bay := mSbay m, chip := mSchip m, tag := mTag m, slot := bits (field (mBody m) (12 + 8 * k) 8) 63 40
      table := field (mBody m) 0 2 % 4096, row := bits (field (mBody m) (12 + 8 * k) 8) 39 0, step := field (mBody m) 4 4
      prefetch := bit (field (mBody m) 2 2) 0, now := bit (field (mBody m) 2 2) 1
      lpane := mSpane m % 8, op := bits (field (mBody m) 2 2) 6 4, ctx := mCtx m } : RowMsg))
    exec (.lkreq b) s = .next (followedTe s (s1.modTe b (fun x => { x with reqIn := x.reqIn ++ rows })))) ∧
  (∀ (b : Nat) (m : List Byte) (s s1 : State), b < 16 → s.pwr.st ≠ 5 → takeX s b 0x08 = some (m, s1) → mStatus m = 0 →
    16 ≤ (mBody m).length →
    let r : RowMsg := {
      bay := b, chip := s1.chip, tag := mTag m, slot := bits (field (mBody m) 0 8) 63 40
      table := 0, row := bits (field (mBody m) 0 8) 39 0, step := 0, prefetch := false, lpane := 0, code := field (mBody m) 12 4 % 256
      addr := field (mBody m) 16 8, absent := bit (field (mBody m) 12 4) 8, owner := mSchip m * 16 + mSbay m
      stamp := field (mBody m) 8 4, data := (mBody m).drop 16 }
    exec (.lkresp b) s = .next (followedTe s (takeRow s1 b r))) ∧
  (∀ (b : Nat) (m : List Byte) (s s1 : State), b < 16 → s.pwr.st ≠ 5 → takeX s b 0x09 = some (m, s1) → 36 ≤ (mBody m).length → badCtx m = false →
    let c : Contrib := {
      bay := mSbay m, chip := mSchip m, tag := some (mTag m), lpane := mSpane m % 8, cls := mClass m, table := field (mBody m) 0 2 % 4096
      gfmt := field (mBody m) 2 2, step := field (mBody m) 4 4, row := field (mBody m) 8 8 % 2 ^ 40, pos := field (mBody m) 16 8
      weight := field (mBody m) 24 4, data := (mBody m).drop 32, ctx := mCtx m }
    exec (.grad b) s = .next (followedTe s (s1.modTe b (fun x => { x with conIn := x.conIn ++ [c] })))) ∧
  (∀ (b : Nat) (m : List Byte) (s s1 : State) (j : TeJob), b < 16 → s.pwr.st ≠ 5 → takeX s b 0x0A = some (m, s1) → mStatus m = 0 →
    (s1.bay b).te.jobs.find? (fun j => j.sent.any (fun e => e.1 == mTag m)) = some j →
    exec (.grack b) s = .next (followedTe s (s1.modTe b (fun x =>
      { x with jobs := x.jobs.map (fun k => { k with sent := k.sent.filter (fun e => e.1 != mTag m) }) })))) ∧
  (∀ (b : Nat) (m : List Byte) (s s1 : State), b < 16 → s.pwr.st ≠ 5 → takeX s b 0x0D = some (m, s1) → mStatus m = 0 → badCtx m = false →
    exec (.tesvc b) s = .next (followedTe s (s1.modTe b (fun x => { x with svcIn := x.svcIn ++ [m] })))) ∧
  (∀ (b v : Nat) (s : State), b < 16 → regOpen s (Reg.TE_CTRCLR b) = true → bit v 0 = true →
    ∃ t, exec (.teCtrclr b v) s = .next t ∧ (∀ k, k < 18 → t.regN (Reg.TE_LOOKUP b + 4 * k) = 0) ∧
      (∀ a, (∀ k, k < 18 → a ≠ Reg.TE_LOOKUP b + 4 * k) → t.reg a = s.reg a) ∧ t.bays = s.bays ∧ t.panes = s.panes ∧ t.dram = s.dram)

/-- The commands of a stream (R262 to R264, R273). A sound SOPEN of a closed stream opens it with its ring, its descriptor list
and its tag, and stays under way. SRELEASE gives back delivered buffers of a load; SPOST hands filled buffers of a store; either
may end the stream. SCANCEL marks it cancelled, drops the blocks whose writes have not begun, and counts what it discards. The
events of a stream (R265, R270, R271, R277). A complete demand block is delivered: the positions move on, to the next descriptor
after its last block; its bytes, itself and a finished descriptor are counted; how late a slipped stream is moves the largest
slip; its sync object is signalled when the stream asks for it; and a stream with nothing left ends. A stream whose run-dry time
has passed with its next block undelivered slips once. A read of SE_STRDATA delivers the selected word of the record and moves
the word on. -/
def Obligations.StreamsFollowTheirCommandsAndEvents : Prop :=
  (∀ (i c : Nat) (s s1 : State) (t : Task), i < 144 → s.pwr.st ≠ 5 → startState s i c (seRow 1 32) (fun _ => false) = some s1 →
    plainForm c 32 = true → cbits c 8 15 11 = 0 → cbits c 12 31 24 = 0 → cbits c 16 31 24 = 0 → cbits c 20 31 24 = 0 →
    let st := cbits c 8 3 0
    let nbuf := if cbits c 8 9 6 = 0 then 2 else cbits c 8 9 6
    openStream (streamOf s1 i st) = false → cbits c 8 5 4 ≠ 3 → cbits c 8 9 6 ≤ 8 → cbits c 12 23 0 % 64 = 0 →
    cbits c 16 23 0 % 64 = 0 → cbits c 16 23 0 ≠ 0 → cbytes c 24 8 % 64 = 0 → cbits c 20 23 0 ≠ 0 →
    (s1.pane i).task.bind s1.taskOf = some t → inClaim t (cbits c 12 23 0) (nbuf * cbits c 16 23 0) = true →
    exec (.sopen i c) s = .next (followed s (underWay (setStream s1 i st
      { status := 1, kind := cbits c 8 5 4, nbuf, syncen := cbits c 8 10 10 == 1, sync := cbits c 8 31 16, bufaddr := cbits c 12 23 0,
        bufstride := cbits c 16 23 0, dlist := cbytes c 24 8, ndesc := cbits c 20 23 0, tag := hTag c, dry := s1.devTime }) i 4))) ∧
  (∀ (i c : Nat) (s s1 : State), i < 144 → s.pwr.st ≠ 5 → startState s i c (seRow 2 16) (fun _ => false) = some s1 →
    plainForm c 16 = true → cbits c 8 15 4 = 0 → cbits c 8 31 20 = 0 → cbytes c 12 4 = 0 →
    let st := cbits c 8 3 0
    let n := cbits c 8 19 16
    let x := streamOf s1 i st
    1 ≤ n → n ≤ 8 → openStream x = true → x.kind = 0 → x.cancel = false → x.done + n ≤ x.deliv →
    exec (.srelease i c) s = .next (followed s (finishStream (completed (setStream s1 i st { x with done := x.done + n }) i c (seRow 2 16))
      i st))) ∧
  (∀ (i c : Nat) (s s1 : State), i < 144 → s.pwr.st ≠ 5 → startState s i c (seRow 3 16) (fun _ => false) = some s1 →
    plainForm c 16 = true → cbits c 8 15 4 = 0 → cbits c 8 31 20 = 0 → cbytes c 12 4 = 0 →
    let st := cbits c 8 3 0
    let n := cbits c 8 19 16
    let x := streamOf s1 i st
    1 ≤ n → n ≤ 8 → openStream x = true → x.kind = 1 → x.cancel = false → x.done - x.deliv + n ≤ x.nbuf →
    exec (.spost i c) s = .next (followed s (finishStream (completed (setStream s1 i st { x with done := x.done + n }) i c (seRow 3 16))
      i st))) ∧
  (∀ (i c : Nat) (s s1 : State), i < 144 → s.pwr.st ≠ 5 → startState s i c (seRow 4 16) (fun _ => false) = some s1 →
    plainForm c 16 = true → cbits c 8 15 4 = 0 → cbits c 8 31 20 = 0 → cbytes c 12 4 = 0 →
    let st := cbits c 8 3 0
    let x := streamOf s1 i st
    openStream x = true → (streamOf s i st).cancel = false →
    let s2 := completed (setStream s1 i st { x with
      cancel := true, blocks := x.blocks.filter (·.writing), done := if x.kind = 0 then x.deliv else x.done, keep := [] }) i c (seRow 4 16)
    exec (.scancel i c) s = .next (followed s (finishStream ((dropReads s2 i st).incReg (Reg.SE_DISCARD i)
      (undelivered (streamOf s i st) - ((streamOf s i st).blocks.filter (·.writing)).length)) i st))) ∧
  (∀ (i st : Nat) (s : State) (y : SBlk) (d : SDesc), i < 144 → st < 16 → s.pwr.st ≠ 5 →
    let s1 := seArrived (settle s) i
    let x := streamOf s1 i st
    openStream x = true → blockDone s1 i st x = some y → heldDesc x y.desc = some d →
    let n := sblkBytes d y.q
    let last := y.q + 1 == d.total
    let cur := if last then (0, [0, 0, 0, 0]) else cursor d (y.q + 1)
    let s2 := (setStream s1 i st { x with
      deliv := x.deliv + 1, done := if x.kind = 2 then x.deliv + 1 else x.done, didx := if last then x.didx + 1 else x.didx
      q := if last then 0 else x.q + 1, curb := cur.1, cur := cur.2, blocks := x.blocks.filter (fun z => z.no != y.no), slipped := false
      dry := if d.rate = 0 then noDry else min noDry (max x.dry s1.devTime + rateTime n d.rate)
      descs := if last && x.status != 5 then x.descs.filter (fun e => e.1 != y.desc) else x.descs
      keep := if last then x.keep.filter (fun e => decide (y.desc ≤ e.1)) else x.keep }).incReg64 (Reg.SE_BYTES_LO i) (Reg.SE_BYTES_HI i) n
    let s3 := if last then (s2.incReg (Reg.SE_BLOCKS i)).incReg (Reg.SE_DESC i) else s2.incReg (Reg.SE_BLOCKS i)
    let s4 := if x.slipped = true ∧ s3.regN (Reg.SE_SLIPMAX i) < s1.devTime - x.dry
      then s3.setReg (Reg.SE_SLIPMAX i) (min (s1.devTime - x.dry) (2 ^ 32 - 1)) else s3
    exec (.blockDelivered i st) s = .next (followed s
      (finishStream (if x.syncen then paneSignal s4 i x.sync 1 false [] else s4) i st))) ∧
  (∀ (i st : Nat) (s : State), i < 144 → st < 16 → s.pwr.st ≠ 5 →
    let x := streamOf s i st
    (x.status = 1 ∨ x.status = 2) → x.cancel = false → x.slipped = false → x.dry < s.devTime → x.didx ≠ x.ndesc →
    (x.kind ≠ 1 ∨ x.done = x.deliv + x.nbuf) →
    exec (.streamSlip i st) s = .next (keepStraps s ((setStream s i st { x with slipped := true }).incReg (Reg.SE_SLIP i)))) ∧
  (∀ (i st : Nat) (s : State), i < 144 → st < 16 → s.pwr.st ≠ 5 → (streamOf s i st).slipped = true →
    exec (.streamSlip i st) s = .next (keepStraps s s)) ∧
  (∀ (i : Nat) (s : State), i < 144 → regOpen s (Reg.SE_STRDATA i) = true →
    let v := s.regN (Reg.SE_STRSEL i)
    exec (.seStrdataRead i) s = .next (keepStraps s ((s.setField (Reg.SE_STRSEL i) 7 4 ((bits v 7 4 + 1) % 16)).readOut
      (field (streamRecord (streamOf s i (bits v 3 0))) (4 * bits v 7 4) 4))))

/-- CHECK (R452 to R457): a sound job without accumulation or comparison writes the check of its whole source, or one check for
each block, with the status word behind a single one, counts itself and its bytes, and completes. -/
def Obligations.CheckWritesItsResult : Prop :=
  (∀ (i c : Nat) (s s1 s2 s3 s4 s5 : State) (t : Task) (p : CheckParams) (bs : List Byte), i < 144 → s.pwr.st ≠ 5 →
    startState s i c checkRow (fun _ => false) = some s1 → plainForm c 48 = true →
    cbits c 16 31 27 = 0 → cbits c 20 31 12 = 0 → cbits c 32 31 24 = 0 → cbits c 36 31 24 = 0 → cbytes c 40 8 = 0 →
    let m := checkCmd c
    m.src % 4 = 0 → m.len % 4 = 0 → m.len ≠ 0 → m.len ≤ 2 ^ 26 → m.res % 64 = 0 →
    (m.mode < 2 → 6 ≤ m.blklog ∧ m.blklog ≤ 20 ∧ m.par % 32 = 0) → (m.mode = 2 → m.fold % 256 = 0) → (m.mode = 3 → m.len % 8 = 0) →
    (s1.pane i).task.bind s1.taskOf = some t → (2 ≤ m.mode → t.dclass ≠ 0) → (m.srcSp = true → inClaim t (m.src % 2 ^ 24) m.len = true) →
    inClaim t m.res m.resBytes = true → (m.mode < 2 → inClaim t m.par 32 = true) →
    m.mode ≠ 1 → m.acc = false → m.cmpen = false →
    runMc (checkParams i m) s1 = (.ok p, s2) → runMc (checkSource i t.ctx m) s2 = (.ok bs, s3) →
    let n := if m.mode = 2 then 256 else 2 ^ m.blklog
    let blocks := if m.mode = 3 then [] else inBlocks n bs
    let fold := fun (k : Nat) => if m.folden then some (m.fold + (if m.foldsel then k else k * n)) else none
    let v := if m.mode = 0 then singleCheck p fold blocks else if m.mode = 2 then fingerprint m.fold bs else combineWords bs
    runMc (spWrite i 7 m.res (leBytes 8 v)) s3 = (.ok (), s4) →
    runMc (spWrite i 7 (m.res + 16) (leBytes 4 1 ++ leBytes 4 blocks.length)) s4 = (.ok (), s5) →
    exec (.check i c) s = .next (followed s (completed ((s5.incReg (Reg.CVU_JOBS (bayOf i))).incReg64 (Reg.CVU_BYTES_LO (bayOf i))
      (Reg.CVU_BYTES_HI (bayOf i)) m.len) i c checkRow))) ∧
  (∀ (i c : Nat) (s s1 s2 s3 s4 : State) (t : Task) (p : CheckParams) (bs : List Byte), i < 144 → s.pwr.st ≠ 5 →
    startState s i c checkRow (fun _ => false) = some s1 → plainForm c 48 = true →
    cbits c 16 31 27 = 0 → cbits c 20 31 12 = 0 → cbits c 32 31 24 = 0 → cbits c 36 31 24 = 0 → cbytes c 40 8 = 0 →
    let m := checkCmd c
    m.src % 4 = 0 → m.len % 4 = 0 → m.len ≠ 0 → m.len ≤ 2 ^ 26 → m.res % 64 = 0 → 6 ≤ m.blklog → m.blklog ≤ 20 → m.par % 32 = 0 →
    (s1.pane i).task.bind s1.taskOf = some t → (m.srcSp = true → inClaim t (m.src % 2 ^ 24) m.len = true) →
    inClaim t m.res m.resBytes = true → inClaim t m.par 32 = true → m.mode = 1 → m.cmpen = false →
    runMc (checkParams i m) s1 = (.ok p, s2) → runMc (checkSource i t.ctx m) s2 = (.ok bs, s3) →
    runMc (spWrite i 7 m.res ((blockChecks p (fun (k : Nat) => if m.folden then some (m.fold + (if m.foldsel then k else k * 2 ^ m.blklog)) else none)
      (inBlocks (2 ^ m.blklog) bs)).flatMap (leBytes 8))) s3 = (.ok (), s4) →
    exec (.check i c) s = .next (followed s (completed ((s4.incReg (Reg.CVU_JOBS (bayOf i))).incReg64 (Reg.CVU_BYTES_LO (bayOf i))
      (Reg.CVU_BYTES_HI (bayOf i)) m.len) i c checkRow)))

/-- Fingerprints compose: the fingerprint of a range is that of its first part, any whole number of 256-byte blocks, and that of
the rest at its own addresses, combined by XOR; so it does not depend on how a range is cut into jobs (R457). -/
def Obligations.FingerprintsCompose : Prop :=
  ∀ (a k : Nat) (xs ys : List Byte), xs.length = 256 * k →
    fingerprint a (xs ++ ys) = fingerprint a xs ^^^ fingerprint (a + 256 * k) ys

/-- How a port comes up (R398 to R400, Table 12-3). Enabled while Off it goes Dark with its lasers; light on 16 lanes starts its
tuning; tuned rings lead to Lock; a lock on 16 lanes sends TS2 with the good lanes; without a lock in time it is Dark again. A
Dark port without light retries, logged the first time. A TS2 that grants the map gives it lanes, spares and peer; a TS3 on its
last lane starts the codeword count. Codewords (R395, R400): in Lock a correctable one counts, and the 4,096th in a row sets the
counts of a link-up and goes to Init; an uncorrectable one returns to tuning's lock. An uncorrectable codeword in service asks
for a replay once. -/
def Obligations.LinkTrainingAdvances : Prop :=
  (∀ (p : Nat) (s : State), p < 34 → regOpen s (rCtrl p) = true → (s.port p).st = 0 →
    exec (.winPctrlEnable p) s = .next (followed s (setPortSt (s.modPort p (fun x =>
      { x with laser := !x.laserHot, light := 0, attempts := 0, darkLogged := false })) p 1))) ∧
  (∀ (p lanes : Nat) (s : State), p < 34 → s.pwr.st ≠ 5 → (s.port p).st = 1 → (s.port p).laser = true → 16 ≤ popcount 18 lanes →
    exec (.lightDetected p lanes) s = .next (keepStraps s (setPortSt (s.modPort p (fun x => { x with light := lanes % 2 ^ 18 })) p 2))) ∧
  (∀ (p : Nat) (s : State), p < 34 → s.pwr.st ≠ 5 → (s.port p).st = 1 → popcount 18 (s.port p).light < 16 → (s.port p).darkLogged = false →
    exec (.darkRetry p) s = .next (keepStraps s (logPort (s.modPort p (fun x =>
      { x with attempts := x.attempts + 1, darkLogged := true })) 0x17 p ((s.port p).attempts + 1)))) ∧
  (∀ (p : Nat) (s : State), p < 34 → s.pwr.st ≠ 5 → (s.port p).st = 2 →
    exec (.ringsTuned p) s = .next (keepStraps s (setPortSt s p 3))) ∧
  (∀ (p lanes : Nat) (s : State), p < 34 → s.pwr.st ≠ 5 → (s.port p).st = 3 → 16 ≤ popcount 18 lanes →
    exec (.clockLock p lanes) s = .next (keepStraps s (setPortSt (s.modPort p (fun x => { x with
      good := (setBitsOf 18 lanes).foldl (fun a k => if bit x.bad k then a else a + 2 ^ k) 0 })) p 4))) ∧
  (∀ (p : Nat) (s : State), p < 34 → s.pwr.st ≠ 5 → (s.port p).st = 3 →
    exec (.lockTimeout p) s = .next (keepStraps s (logPort (toDark s p) 0x17 p ((s.port p).attempts + 1)))) ∧
  (∀ (p lane w : Nat) (s : State), p < 34 → s.pwr.st ≠ 5 → trainOk w = true → (s.port p).st = 4 →
    let bs := leBytes 16 w
    let common := (setBitsOf 18 (field bs 6 3)).filter (bit (s.port p).good)
    field bs 0 2 = (if p < 32 then 0xA1C0 else 0xA1D0) + 2 → field bs 9 1 = 1 → 16 ≤ common.length → bit (field bs 10 1) 0 = true →
    exec (.trainingWord p lane w) s = .next (keepStraps s (setPortSt ((s.modPort p (fun x => { x with peerGood := field bs 6 3 })).modPort p
      (fun x => { x with
        lanes := common.take 16, txLanes := common.take 16, spares := common.drop 16, aligned := 0
        peer := some (if p < 32 then field bs 4 2 % 4096 else 0, field bs 3 1 % 32) })) p 5))) ∧
  (∀ (p lane w : Nat) (s : State), p < 34 → s.pwr.st ≠ 5 → trainOk w = true → (s.port p).st = 5 →
    let k := field (leBytes 16 w) 2 1 % 32
    field (leBytes 16 w) 0 2 = (if p < 32 then 0xA1C0 else 0xA1D0) + 3 → (s.port p).lanes.contains k = true →
    bit (s.port p).aligned k = false → (s.port p).lanes.all (bit ((s.port p).aligned + 2 ^ k)) = true →
    exec (.trainingWord p lane w) s = .next (keepStraps s (setPortSt ((s.modPort p (fun x =>
      { x with aligned := (s.port p).aligned + 2 ^ k })).modPort p (fun x => { x with rxCw := 0, clean := 0, txFlits := 0 })) p 6))) ∧
  (∀ (p : Nat) (s : State), p < 34 → s.pwr.st ≠ 5 → (s.port p).st = 6 → s.devTime < (s.port p).laneWin + 1000000 →
    let s1 := s.modPort p (fun x => { x with rxCw := x.rxCw + 1, clean := (s.port p).clean + 1 })
    exec (.codeword p []) s = .next (followed s (portFall (if 4096 ≤ (s.port p).clean + 1 then
      setPortSt (s1.modPort p linkUp) p 7 else s1) p))) ∧
  (∀ (p : Nat) (errs : List (Nat × Nat)) (s : State), p < 34 → s.pwr.st ≠ 5 → (s.port p).st = 6 →
    15 < ((errs.filter (fun e => e.1 < 544 && e.2 % 1024 != 0)).map (·.1)).eraseDups.length → s.devTime < (s.port p).laneWin + 1000000 →
    exec (.codeword p errs) s = .next (followed s (portFall (setPortSt ((s.incReg (rUnc p)).modPort p (fun x =>
      { x with rxCw := x.rxCw + 1, clean := 0 })) p 3) p))) ∧
  (∀ (p : Nat) (errs : List (Nat × Nat)) (s : State), p < 34 → s.pwr.st ≠ 5 → (s.port p).st = 8 → (s.port p).rxSwap = none →
    (s.port p).nakArmed = true →
    15 < ((errs.filter (fun e => e.1 < 544 && e.2 % 1024 != 0)).map (·.1)).eraseDups.length → s.devTime < (s.port p).laneWin + 1000000 →
    exec (.codeword p errs) s = .next (followed s (portFall (((s.incReg (rUnc p)).modPort p (fun x =>
      { x with rxCw := x.rxCw + 1, clean := 0 })).modPort p (fun x => { x with nakDue := true, nakArmed := false })) p)))

/-- Flits (R402 to R406). A flit with a bad CRC is discarded with at most one NAK. A sound data flit of the expected SEQ frees
what it acknowledges, grants its credits, and its payload is taken. INIT received and sent brings the port Up. A sender in
service sends the next data of the first channel that may send, and idle flits while its peer holds; each flit frees what has
passed on toward the lintels. A replay timeout resends what is not acknowledged. A swap flit at its turn: while a named swap has
not moved, every 64th flit tells the peer which lane, which spare and which codeword (R408). -/
def Obligations.FlitsFollowTheLinkProtocol : Prop :=
  (∀ (p flit : Nat) (s : State), p < 34 → s.pwr.st ≠ 5 → (s.port p).st = 8 →
    crc32 ((leBytes 256 flit).take 252) ≠ field (leBytes 256 flit) 252 4 →
    exec (.flitReceive p flit) s = .next (followed s (updShutter (bootCheck (discard s p))))) ∧
  (∀ (p flit : Nat) (s : State), p < 34 → s.pwr.st ≠ 5 → (s.port p).st = 8 →
    let bs := leBytes 256 flit
    let h := field bs 0 11
    crc32 (bs.take 252) = field bs 252 4 → bits h 3 0 = 1 → bit h 26 = false →
    let s1 := applyAck (s.modPort p (fun x => { x with peerHold := bit h 27, vcFreed := modAt x.vcFreed (bits h 29 28) (fun n =>
      n + (bits h 38 30 + 512 - x.vcFreed.getD (bits h 29 28) 0 % 512) % 512) })) p (bits h 25 16)
    bits h 15 6 = (s1.port p).rxSeq →
    exec (.flitReceive p flit) s = .next (followed s (updShutter (bootCheck (acceptData s1 p (bits h 5 4) ((bs.drop 11).take 241)))))) ∧
  (∀ (p flit : Nat) (s : State), p < 34 → s.pwr.st ≠ 5 → (s.port p).st = 7 →
    crc32 ((leBytes 256 flit).take 252) = field (leBytes 256 flit) 252 4 → bits (field (leBytes 256 flit) 0 11) 3 0 = 3 →
    exec (.flitReceive p flit) s = .next (followed s (updShutter (bootCheck (initDone (s.modPort p (fun x => { x with initRx := true })) p))))) ∧
  (∀ (p : Nat) (s : State), p < 34 → s.pwr.st ≠ 5 →
    let s1 := freeFlits s p
    let x := s1.port p
    (x.st = 7 → exec (.flitSend p) s = .next (followed s (updShutter (bootCheck (initDone ((emit s1 p (mkFlit x 3 0 0 0xFF [])).modPort p
      (fun x => { x with initTx := true })) p))))) ∧
    (∀ vc, x.st = 8 → x.rxSwap = none → x.peerHold = false → x.txSwap = none → x.resend = [] → x.replay.length + keptFlits x < 256 →
      (vcOrder x).find? (vcReady x) = some vc →
      exec (.flitSend p) s = .next (followed s (updShutter (bootCheck (txSwapMove ((sendData s1 p vc).modPort p
        (fun y => { y with sinceSwap := y.sinceSwap + 1 })) p))))) ∧
    (x.st = 8 → x.rxSwap = none → x.peerHold = true →
      exec (.flitSend p) s = .next (followed s (updShutter (bootCheck (txSwapMove ((emit s1 p (mkFlit x 0 0 0 0xFF [])).modPort p
        (fun y => { y with sinceSwap := y.sinceSwap + 1 })) p)))))) ∧
  (∀ (p : Nat) (s : State), p < 34 → s.pwr.st ≠ 5 → (s.port p).st = 8 → (s.port p).nakArmed = true → (s.port p).replay ≠ [] →
    (s.port p).peerHold = false → (s.port p).replay.any (fun f => 7 ≤ f.resends) = false →
    exec (.replayTimeout p) s = .next (followed s ((s.modPort p (fun y => { y with
      replay := y.replay.map (fun f => { f with resends := f.resends + 1 }), resend := y.replay.map (·.seq) })).incReg (rReplay p)))) ∧
  (∀ (p l k cw : Nat) (s : State), p < 34 → s.pwr.st ≠ 5 →
    let s1 := freeFlits s p
    let x := s1.port p
    x.st = 8 → x.rxSwap = some (l, k, cw, false) → x.sinceSwap % 64 = 0 →
    exec (.flitSend p) s = .next (followed s (updShutter (bootCheck (txSwapMove ((emit s1 p (mkFlit x 2 0 0 0xFF (swapPayload l k cw))).modPort p
      (fun y => { y with sinceSwap := y.sinceSwap + 1 })) p)))))

/-- Lanes, shutters and failover (R408, R409, R420 to R422, R426). A retrain of an Up port drains it first; a drained port's
flows move and it retrains; a drain that takes too long and a loss of light on three lanes fail over. A lane that must be
replaced is named with the first spare. Disable of a port that is not Up turns its lasers off. A flow that waits for its old
port goes on once that port holds nothing of it, and no other does. A FAILOVER that arrived is taken, and what it reports is
acted on. -/
def Obligations.LanesShuttersAndFailover : Prop :=
  (∀ (p : Nat) (s : State), p < 34 → regOpen s (rCtrl p) = true → s.portUp p = true →
    exec (.winPctrlRetrain p) s = .next (followed s (checkHost (logPort ((setPortSt (s.modPort p (fun x =>
      { x with drain := some (3, s.devTime) })) p 9).incReg (rShut p)) 0x06 p 3) p))) ∧
  (∀ (p lane k l : Nat) (ks : List Nat) (s : State), p < 34 → regOpen s (rCtrl p) = true → (s.port p).st = 8 → (s.port p).rxSwap = none →
    (s.port p).lanes.idxOf? lane = some l → (s.port p).spares = k :: ks →
    exec (.winPctrlReplaceLane p lane) s = .next (followed s (s.modPort p (fun x =>
      { x with rxSwap := some (l, k, x.rxCw + 255, false), sinceSwap := 0 })))) ∧
  (∀ (p lane k l : Nat) (ks : List Nat) (s : State), p < 34 → s.pwr.st ≠ 5 → (s.dom (5 * 256 + p)).cur = none → (s.port p).st = 8 →
    (s.port p).rxSwap = none → (s.port p).lanes.idxOf? lane = some l → (s.port p).spares = k :: ks →
    exec (.laneFault p lane false) s = .next (followed s (portFall (s.modPort p (fun x =>
      { x with rxSwap := some (l, k, x.rxCw + 255, false), sinceSwap := 0 })) p))) ∧
  (∀ (p : Nat) (s : State), p < 34 → regOpen s (rCtrl p) = true → (s.port p).st ≠ 8 → (s.port p).drain = none →
    exec (.winPctrlDisable p) s = .next (followed s (setPortSt (s.modPort p (fun x => { x with laser := false })) p 0))) ∧
  (∀ (p : Nat) (s : State), p < 34 → regOpen s (rCtrl p) = true → (s.port p).st = 8 →
    exec (.winPctrlDisable p) s = .next (followed s (checkHost (failover (setPortSt (s.modPort p (fun x => { x with laser := false })) p 0) p) p))) ∧
  (∀ (p lanes : Nat) (s : State), p < 34 → s.pwr.st ≠ 5 → (s.port p).st = 8 → 3 ≤ (setBitsOf 18 lanes).length →
    exec (.lightLost p lanes) s = .next (followed s (checkHost (failover (toDark (s.modPort p (fun x => { x with
      light := (setBitsOf 18 lanes).foldl (fun a k => if bit a k then a - 2 ^ k else a) (s.port p).light })) p) p) p))) ∧
  (∀ (p : Nat) (s : State), p < 34 → s.pwr.st ≠ 5 → drainedPort (s.port p) = true →
    exec (.drainDone p) s = .next (followed s (toTune (reroute s p) p))) ∧
  (∀ (p : Nat) (s : State), p < 34 → s.pwr.st ≠ 5 → (s.port p).drain.isSome = true →
    exec (.drainTimeout p) s = .next (followed s (toTune (failover s p) p))) ∧
  (∀ (b : Nat) (s : State), b < 16 → s.pwr.st ≠ 5 →
    exec (.flowRelease b) s = .next (followed s (s.modXe b (fun x => { x with flows := x.flows.map (fun f =>
      if f.held = true ∧ portHolds s f.port f.vc f.dchip f.schip f.sbay = false then { f with held := false } else f) })))) ∧
  (∀ (p : Nat) (m : List Byte) (ms : List (List Byte)) (s : State), p < 34 → s.pwr.st ≠ 5 → (s.port p).failIn = m :: ms →
    exec (.failover p) s = .next (followed s (failoverIn (s.modPort p (fun x => { x with failIn := ms })) p m)))

/-- A flit that a port builds passes its own CRC and carries its type, SEQ and payload back (R402, R403). -/
def Obligations.FlitsCarryTheirFields : Prop :=
  ∀ (x : Port) (ftype vc seq first : Nat) (pl : List Byte), ftype < 16 → vc < 4 → seq < 1024 → first < 256 → x.cvc < 4 → pl.length = 241 →
    let bs := leBytes 256 (mkFlit x ftype vc seq first pl)
    crc32 (bs.take 252) = field bs 252 4 ∧ bits (field bs 0 11) 3 0 = ftype ∧ bits (field bs 0 11) 5 4 = vc ∧
      bits (field bs 0 11) 15 6 = seq ∧ (bs.drop 11).take 241 = pl

/-- What the resets leave (Table 15-1, R466). Power-up samples the straps into their widths and leaves every other part, but for
the flash and the always-on free-value counter, as after reset, a recovery boot asked for by RECOVER_N = 0. A pin reset keeps
the supply die's registers; after a thermal trip it does nothing. A restart or a recovery keeps device time, the log, the seed
and the flash. -/
def Obligations.ResetsLeaveWhatTheyKeep : Prop :=
  (∀ (chip smba rn : Nat) (s : State),
    exec (.powerUp chip smba rn) s = .next { State.reset with
      pending := s.pending, nonce := s.nonce, flash := s.flash, sup := { chip := chip % 2 ^ 12, smba := smba % 4, recoverN := rn % 2 },
      boot := { forced := rn % 2 == 0 } }) ∧
  (∀ (chip smba rn : Nat) (s : State), s.sup.tripped = true → exec (.pinReset chip smba rn) s = .next s) ∧
  (∀ (chip smba rn : Nat) (s : State), s.sup.tripped = false → s.sup.vauxOk = true →
    ∃ t, exec (.pinReset chip smba rn) s = .next t ∧ t.sup.chip = chip % 2 ^ 12 ∧ t.sup.smba = smba % 4 ∧ t.sup.recoverN = rn % 2 ∧
      t.flash = s.flash ∧ t.pending = s.pending ∧ t.panes = State.reset.panes ∧ t.bays = State.reset.bays ∧ t.dram = State.reset.dram ∧
      t.devTime = 0 ∧ t.boot.phase = 0 ∧ t.pwr.st = 4 ∧ t.sec.st = 0 ∧ t.boot.forced = (rn % 2 == 0) ∧
      (∀ a, 0x1000 ≤ a → a < 0x2000 → t.reg a = s.reg a) ∧ (∀ a, ¬ (0x1000 ≤ a ∧ a < 0x2000) → t.reg a = regReset a)) ∧
  (∀ (path : Nat) (s : State), 1 ≤ path → path ≤ 3 → s.pwr.st ≠ 5 → s.rel.upd ≠ 3 → pathBusy s path = false →
    accessReason s path Reg.CTL_RESTART true = 0 →
    ∃ t, exec (.restart path) s = .next t ∧ t.devTime = s.devTime ∧ t.rel.log = s.rel.log ∧ t.rel.logSeq = s.rel.logSeq ∧
      t.sec.seed = s.sec.seed ∧ t.flash = s.flash ∧ t.sup.chip = s.sup.chip ∧ t.boot.phase = 0 ∧ t.boot.forced = false ∧ t.pwr.st = 4 ∧
      t.dram = State.reset.dram ∧ t.panes = State.reset.panes ∧ t.bays = State.reset.bays) ∧
  (∀ (path : Nat) (s : State), 1 ≤ path → path ≤ 3 → s.pwr.st ≠ 5 → s.rel.upd ≠ 3 → pathBusy s path = false →
    accessReason s path Reg.CTL_RESTART true = 0 →
    ∃ t, exec (.recovery path) s = .next t ∧ t.devTime = s.devTime ∧ t.rel.log = s.rel.log ∧ t.sec.seed = s.sec.seed ∧ t.flash = s.flash ∧
      t.boot.phase = 0 ∧ t.boot.forced = true ∧ t.pwr.st = 4 ∧ t.panes = State.reset.panes)

/-- The steps of bring-up (R469 to R483, Tables 15-5 to 15-7). A forced boot becomes a recovery boot. With sound directory and
service copies and a seed, the slot the directory names is taken. A slot that passes its checks is accepted, the other one is
tried once, then recovery follows. Steps 4 to 7 take the image's memory map and leave memory zero; a failed bay fails the boot.
The lasers that locked train their ports; the time limits go on with what is Up. -/
def Obligations.BringUpSteps : Prop :=
  (∀ s : State, s.pwr.st ≠ 5 → s.boot.phase = 0 → s.boot.puf = false → s.boot.forced = true →
    exec .bootDirectoryRead s = .next (keepStraps s (recoveryBoot (bootError s 0x0B 0)))) ∧
  (∀ (s : State) (k j : Nat) (c d : List Byte), s.pwr.st ≠ 5 → s.boot.phase = 0 → s.boot.puf = false → s.boot.forced = false →
    copyUsed s 0 = some (k, c) → copyUsed s 0x20000 = some (j, d) →
    exec .bootDirectoryRead s = .next (keepStraps s { s with boot := { s.boot with
      phase := 1, active := if field c 8 1 = 1 then 1 else 0, slot := if field c 8 1 = 1 then 1 else 0, second := false
      service := (List.range 16).map (fun n => if field d (8 + n) 1 < 8 then field d (8 + n) 1 else 255) } })) ∧
  (∀ s : State, s.pwr.st ≠ 5 → s.boot.phase = 1 →
    let rd := fun (o n : Nat) => flashAt s (slotBase s.boot.slot + o) n
    imgVerdict rd (floorOf s) = 0 → exec .slotVerifyDone s = .next (keepStraps s (acceptSlot s rd))) ∧
  (∀ s : State, s.pwr.st ≠ 5 → s.boot.phase = 1 → s.boot.second = false →
    imgVerdict (fun (o n : Nat) => flashAt s (slotBase s.boot.slot + o) n) (floorOf s) ≠ 0 →
    let s1 := bootError s 0x03 0
    exec .slotVerifyDone s = .next (keepStraps s { s1 with boot := { s1.boot with slot := 1 - s1.boot.slot, second := true } })) ∧
  (∀ s : State, s.pwr.st ≠ 5 → s.boot.phase = 1 → s.boot.second = true →
    imgVerdict (fun (o n : Nat) => flashAt s (slotBase s.boot.slot + o) n) (floorOf s) ≠ 0 →
    exec .slotVerifyDone s = .next (keepStraps s (recoveryBoot (bootError s 0x04 0)))) ∧
  (∀ (rep : BringUp) (s : State), s.pwr.st ≠ 5 → s.boot.phase = 2 → s.boot.hold = false → rep.badBays = [] →
    (List.range 16).find? (stackBad s rep) = none →
    ∃ t, exec (.bringUpStepsDone rep) s = .next t ∧ t.boot.phase = 3 ∧ t.dram = [] ∧ t.dramErr = [] ∧
      t.regions = imgMap (fun (o n : Nat) => flashAt s (slotBase s.boot.slot + o) n) ∧ t.flash = s.flash ∧ t.sec = s.sec) ∧
  (∀ (rep : BringUp) (b : Nat) (bs : List Nat) (s : State), s.pwr.st ≠ 5 → s.boot.phase = 2 → s.boot.hold = false → rep.badBays = b :: bs →
    exec (.bringUpStepsDone rep) s = .next (keepStraps s (bootFailed (bootError s 0x06 b)))) ∧
  (∀ s : State, s.pwr.st ≠ 5 → s.boot.phase = 3 →
    let s1 : State := { s with boot := { s.boot with phase := 4, laserFault := [] } }
    exec (.lasersLocked []) s = .next (keepStraps s (bootCheck ((setBitsOf 32 s1.boot.enports).foldl (fun s p => portEnable s p) s1)))) ∧
  (∀ s : State, s.pwr.st ≠ 5 → s.boot.phase = 4 →
    exec .exchangeTrainingTimeout s = .next (keepStraps s (bootCheck (startFollux s)))) ∧
  (∀ s : State, s.pwr.st ≠ 5 → s.boot.phase = 5 →
    exec .folluxTrainingTimeout s = .next (keepStraps s (bootError s 0x0A 0)))

/-- Staged registers and commits (R485 to R490, R550). A write of CTL_COMMIT is counted; a known target whose checks pass
becomes pending and shows so; a target that fails a check is rejected with the offset and the number of the check. At its
boundary a pending commit gives every staged register of its target its value, masked to what its row defines. -/
def Obligations.CommitsApplyStagedValues : Prop :=
  (∀ (v : Nat) (s : State), regOpen s Reg.CTL_COMMIT = true → s.mgmt.commits.contains (v % 65536) = false → tgtKnown (v % 65536) = true →
    let s0 := s.setReg Reg.CTL_COMMITSEQ ((s.regN Reg.CTL_COMMITSEQ + 1) % 2 ^ 32)
    commitCheck s0 (v % 65536) = none →
    let s1 := showCommit s0 (v % 65536) 1
    exec (.ctlCommit v) s = .next (keepStraps s { s1 with mgmt := { s1.mgmt with commits := s1.mgmt.commits ++ [v % 65536] } })) ∧
  (∀ (v off chk : Nat) (s : State), regOpen s Reg.CTL_COMMIT = true → s.mgmt.commits.contains (v % 65536) = false →
    tgtKnown (v % 65536) = true →
    let s0 := s.setReg Reg.CTL_COMMITSEQ ((s.regN Reg.CTL_COMMITSEQ + 1) % 2 ^ 32)
    commitCheck s0 (v % 65536) = some (off, chk) →
    exec (.ctlCommit v) s = .next (keepStraps s ((showCommit s0 (v % 65536) 3).setReg Reg.CTL_COMMITERR (off + chk * 2 ^ 16)))) ∧
  (∀ (n : Nat) (s : State), n < 16 → s.pwr.st ≠ 5 → s.mgmt.commits.contains (5 + n * 2 ^ 8) = true → s.mgmt.held = [] →
    ∃ t, exec (.commitApply (5 + n * 2 ^ 8)) s = .next t ∧
      t.regN (Reg.DSP_SLICE n) = Nat.land (stagedN s (Reg.DSP_SLICE n)) (rowMask (Reg.DSP_SLICE n)) ∧
      t.regN (Reg.DSP_BLOCKSW n) = Nat.land (stagedN s (Reg.DSP_BLOCKSW n)) (rowMask (Reg.DSP_BLOCKSW n)) ∧
      t.mgmt.commits = s.mgmt.commits.erase (5 + n * 2 ^ 8) ∧ t.panes = s.panes ∧ t.bays = s.bays ∧ t.dram = s.dram)

/-- The security commands (R498, R499, R510 to R512, Table 16-11). A code of the table starts while no command runs; another one
then ends with result 0x08. NEW_NONCE takes a fresh nonce; LOAD_TOKEN judges the buffered token; LEAVE_SERVICE and the end of
its time return to Sealed; the codes that Open refuses end with 0x06. A write of SEC_TOKDATA appends four bytes until the buffer
is full. A token that is accepted opens Service for its duration at its level on its path; a rejected one leaves the state
(R498). -/
def Obligations.SecurityCommandsAndTokens : Prop :=
  (∀ (c : Instr) (n : Nat) (s : State), regOpen s Reg.SEC_CMD = true →
    (c = .secNewNonce ∧ n = 1 ∨ c = .secLeaveService ∧ n = 3 ∨ c = .secAttest ∧ n = 4 ∨ c = .secCertificate ∧ n = 5 ∨ c = .secEnrol ∧ n = 6) →
    s.sec.run = none → exec c s = .next (keepStraps s { s with sec := { s.sec with run := some (n, 0) } })) ∧
  (∀ (c : Instr) (s : State), regOpen s Reg.SEC_CMD = true →
    (c = .secNewNonce ∨ c = .secLeaveService ∨ c = .secAttest ∨ c = .secCertificate ∨ c = .secEnrol) →
    s.sec.run.isSome = true → exec c s = .next (keepStraps s { s with sec := { s.sec with result := 8 } })) ∧
  (∀ (path : Nat) (s : State), 1 ≤ path → path ≤ 3 → s.pwr.st ≠ 5 → s.rel.upd ≠ 3 → pathBusy s path = false →
    accessReason s path Reg.SEC_CMD true = 0 → s.sec.run = none →
    exec (.secLoadToken path) s = .next (keepStraps s (noteAnswer { s with sec := { s.sec with run := some (2, path) } } path 0 0))) ∧
  (∀ (path : Nat) (s : State), s.pwr.st ≠ 5 → s.sec.run = some (1, path) → secWrites s = [] →
    ∃ t, exec .secCommandComplete s = .next t ∧ t.sec.nonceOk = true ∧ t.sec.nonce = leNat (s.freeBytes 8).1 ∧ t.sec.result = 0 ∧
      t.sec.run = none ∧ t.sec.st = s.sec.st) ∧
  (∀ (path : Nat) (s : State), s.pwr.st ≠ 5 → s.sec.run = some (2, path) → secWrites s = [] → s.sec.st ≠ 0 → s.sec.noid = false → s.sec.token.length = 1600 →
    exec .secCommandComplete s = .next (keepStraps s (loadToken s path s.sec.token))) ∧
  (∀ (path : Nat) (s : State), s.pwr.st ≠ 5 → s.sec.run = some (3, path) → secWrites s = [] → s.sec.st = 2 →
    exec .secCommandComplete s = .next (keepStraps s (secEnd (endService s) 0))) ∧
  (∀ (n path : Nat) (s : State), s.pwr.st ≠ 5 → s.sec.run = some (n, path) → secWrites s = [] → 2 ≤ n → n ≤ 5 → n ≠ 3 → s.sec.st = 0 →
    exec .secCommandComplete s = .next (keepStraps s (secEnd s 6))) ∧
  (∀ (v : Nat) (s : State), regOpen s Reg.SEC_TOKDATA = true → s.sec.token.length < 1600 →
    exec (.secTokdata v) s = .next (keepStraps s { s with sec := { s.sec with token := s.sec.token ++ leBytes 4 v } })) ∧
  (∀ (v : Nat) (s : State), regOpen s Reg.SEC_TOKDATA = true → 1600 ≤ s.sec.token.length →
    exec (.secTokdata v) s = .next (keepStraps s s)) ∧
  (∀ s : State, s.pwr.st ≠ 5 → s.sec.st = 2 → s.dbg.level ≠ 2 →
    exec .serviceEnd s = .next (keepStraps s { s with sec := { s.sec with st := 1 } })) ∧
  (∀ (s : State) (path : Nat) (t : List Byte), tokenResult s t = (0, true) →
    let u := loadToken s path t
    u.sec.st = 2 ∧ u.sec.sessPath = path ∧ u.sec.sessLevel = field t 32 1 ∧ u.sec.sessEnd = s.devTime + field t 36 4 * 10 ^ 9 ∧
      u.sec.nonceOk = false ∧ u.sec.token = []) ∧
  (∀ (s : State) (path r : Nat) (used : Bool) (t : List Byte), tokenResult s t = (r, used) → r ≠ 0 →
    (loadToken s path t).sec.st = s.sec.st ∧ (loadToken s path t).sec.result = r) ∧
  (∀ (s : State) (t : List Byte), (tokenResult s t).1 = 0 → s.sec.nonceOk = true ∧ field t 24 8 = s.sec.nonce ∧
    (t.drop 8).take 16 = s.sec.devid ∧ (field t 32 1 = 1 ∨ field t 32 1 = 2) ∧ 1 ≤ field t 36 4 ∧ field t 36 4 ≤ 86400)

/-- The flash-programming service (R496, R510). A write of SEC_FPDATA fills the page in Open; a read delivers the flash word and
moves SEC_FPADDR on; an erase or a program starts where the service may write and is refused elsewhere; at its end an erased
range reads 0xFF and a programmed page holds the bytes ANDed in (the AND is the model's choice, log entry 33, PRESUMED); the rest of the
flash stays. A range put into the flash reads back, and every other byte of the flash reads as before (R468). -/
def Obligations.FlashServiceProgramsAndErases : Prop :=
  (∀ (v : Nat) (s : State), regOpen s Reg.SEC_FPDATA = true → s.sec.st = 0 → s.sec.page.length < 256 →
    exec (.secFpdataWrite v) s = .next (keepStraps s { s with sec := { s.sec with page := s.sec.page ++ leBytes 4 v } })) ∧
  (∀ s : State, regOpen s Reg.SEC_FPDATA = true → s.sec.st = 0 →
    exec .secFpdataRead s = .next (keepStraps s ((s.setReg Reg.SEC_FPADDR ((fpAddr s + 4) % 2 ^ 27)).readOut (leNat (flashAt s (fpAddr s) 4))))) ∧
  (∀ (c : Instr) (n : Nat) (s : State), (c = .flashErase ∧ n = 1 ∨ c = .flashProgram ∧ n = 2) → regOpen s Reg.SEC_FPCMD = true →
    s.sec.st = 0 → s.sec.flash = none → fpMay (fpAddr s) = true →
    exec c s = .next (keepStraps s { s with sec := { s.sec with
      flash := some (n, fpAddr s, s.sec.page), fpErr := false, fpRefused := false, page := if n = 2 then [] else s.sec.page } })) ∧
  (∀ (c : Instr) (s : State), (c = .flashErase ∨ c = .flashProgram) → regOpen s Reg.SEC_FPCMD = true → s.sec.st = 0 →
    (s.sec.flash.isSome = true ∨ fpMay (fpAddr s) = false) →
    exec c s = .next (keepStraps s { s with sec := { s.sec with fpRefused := true } })) ∧
  (∀ (a : Nat) (pg : List Byte) (s : State), s.pwr.st ≠ 5 → s.sec.flash = some (1, a, pg) → 0x800000 ≤ a →
    ∃ t, exec (.flashOperationComplete true) s = .next t ∧ t.sec.flash = none ∧
      (∀ x, a / 0x10000 * 0x10000 ≤ x → x < a / 0x10000 * 0x10000 + 0x10000 → flashAt t x 1 = [0xFF]) ∧ t.dram = s.dram ∧ t.regs = s.regs) ∧
  (∀ (a : Nat) (pg : List Byte) (s : State), s.pwr.st ≠ 5 → s.sec.flash = some (2, a, pg) →
    exec (.flashOperationComplete true) s = .next (keepStraps s { flashPut s (a / 256 * 256)
      ((flashAt s (a / 256 * 256) 256).mapIdx (fun k x => x &&& pg.getD k 0xFF)) with sec := { s.sec with flash := none } })) ∧
  (∀ (s : State) (a x : Nat) (bs : List Byte),
    tget 0xFF (flashPut s a bs).flash x = if a ≤ x ∧ x < a + bs.length then bs.getD (x - a) 0xFF else tget 0xFF s.flash x)

/-- Debug (R500 to R504, R513). A granted level is held by its path; a refused request only records its reason. HALT, RESUME and
STEP act on a pane that runs a task of a queue. Reads and writes of DBG_MDATA are system accesses that move the address on: a
read whose line has come answers with it, and a write is posted and, inside the memory map, logged. DBG_FDATA forces a register.
A read of DBG_TRCDATA moves the word on. EXTEST drives the pins at Intrude over the test port in P4. -/
def Obligations.DebugAccess : Prop :=
  (∀ (path v : Nat) (s : State), 1 ≤ path → path ≤ 3 → s.pwr.st ≠ 5 → s.rel.upd ≠ 3 → pathBusy s path = false →
    accessReason s path Reg.DBG_REQ true = 0 → (v % 4 = 1 ∨ v % 4 = 2) → dbgRefusal s path (v % 4) = 0 →
    exec (.dbgReq path v) s = .next (keepStraps s (noteAnswer { s with
      dbg := { s.dbg with lastRes := 0, level := v % 4, path }
      sec := if v % 4 = 2 then { s.sec with intruded := true } else s.sec } path 0 0))) ∧
  (∀ (path v : Nat) (s : State), 1 ≤ path → path ≤ 3 → s.pwr.st ≠ 5 → s.rel.upd ≠ 3 → pathBusy s path = false →
    accessReason s path Reg.DBG_REQ true = 0 → v % 4 ≠ 3 → dbgRefusal s path (v % 4) ≠ 0 →
    exec (.dbgReq path v) s = .next (keepStraps s (noteAnswer
      { s with dbg := { s.dbg with lastRes := dbgRefusal s path (v % 4) } } path 0 0))) ∧
  (∀ (c : Instr) (path v act i : Nat) (s : State), 1 ≤ path → path ≤ 3 → s.pwr.st ≠ 5 → s.rel.upd ≠ 3 → pathBusy s path = false →
    (c = .halt path v ∧ act = 1 ∨ c = .resume path v ∧ act = 2 ∨ c = .step path v ∧ act = 3) →
    accessReason s path Reg.DBG_HALT true = 0 → mayHalt s path = true → s.instOf (v % 128) = some i → (s.pane i).task.isSome = true →
    (s.pane i).ctx ≠ 0 →
    exec c s = .next (followed s (noteAnswer (s.modPane i (fun p =>
      if act = 1 then { p with halted := true } else if act = 2 then { p with halted := false, stepping := false }
      else if p.halted then { p with stepping := true } else p)) path 0 0))) ∧
  (∀ (path : Nat) (bs : List Byte) (s s1 : State), 1 ≤ path → path ≤ 3 → s.pwr.st ≠ 5 → s.rel.upd ≠ 3 → pathBusy s path = false →
    accessReason s path Reg.DBG_MDATA false = 0 → holdsLevel s path 2 = true →
    let s0 : State := { s with accs := s.accs.filter (fun a => !(a.purpose == .fetch dbgWho && a.va / 64 != localPa (maddr s) / 64)) }
    runMc (sysRead dbgWho (maddr s) 4) s0 = (.ok bs, s1) →
    exec (.dbgMdataRead path) s = .next (keepStraps s
      ((noteAnswer (maddrNext (dropNeeds s1 dbgWho)) path 0 (leNat bs)).readOut (leNat bs)))) ∧
  (∀ (path v : Nat) (s : State), 1 ≤ path → path ≤ 3 → s.pwr.st ≠ 5 → s.rel.upd ≠ 3 → pathBusy s path = false → v < 2 ^ 32 →
    accessReason s path Reg.DBG_MDATA true = 0 → holdsLevel s path 2 = true →
    let s1 := sysPost s dbgWho (maddr s) (leBytes 4 v)
    let s2 := maddrNext (if outOfMap s (localPa (maddr s)) then s1 else logE s1 0x14 8 0 (maddr s) 0 v)
    s2.mgmt.held.length ≤ s.mgmt.held.length →
    exec (.dbgMdataWrite path v) s = .next (followed s (noteAnswer s2 path 0 0))) ∧
  (∀ (path v : Nat) (s : State), 1 ≤ path → path ≤ 3 → s.pwr.st ≠ 5 → s.rel.upd ≠ 3 → pathBusy s path = false → v < 2 ^ 32 →
    accessReason s path Reg.DBG_FDATA true = 0 → (force s path v).mgmt.held.length ≤ s.mgmt.held.length →
    exec (.dbgFdata path v) s = .next (followed s (noteAnswer (force s path v) path 0 0))) ∧
  (∀ (path : Nat) (s : State), 1 ≤ path → path ≤ 3 → s.pwr.st ≠ 5 → s.rel.upd ≠ 3 → pathBusy s path = false →
    accessReason s path Reg.DBG_TRCDATA false = 0 →
    let w := (trcdataRead s).1
    exec (.dbgTrcdataRead path) s = .next (keepStraps s ((noteAnswer (s.setField Reg.DBG_TRCSEL 15 14
      (bits (s.regN Reg.DBG_TRCSEL) 15 14 + 1)) path 0 w).readOut w))) ∧
  (∀ (drive : Nat) (s : State), s.pwr.st = 4 → holdsLevel s 3 2 = true → s.sec.st ≠ 1 →
    exec (.extest drive) s = .next (keepStraps s { s with dbg := { s.dbg with extest := some drive } }))

/-- Power states (R505 to R507, Tables 16-5 to 16-7). A request is held while a transition runs, and else taken; one outside 0
to 5 is refused. The end of a transition from P0 to P1 reaches P1 and gives the bays their clocks; the end of one to P5 is the
entry of P5. A junction reading below the limits is shown, and one at 110 °C trips. -/
def Obligations.PowerTransitions : Prop :=
  (∀ (v : Nat) (s : State), regOpen s Reg.PWR_REQ = true → s.pwr.moving = true →
    exec (.pwrReq v) s = .next (followed s { s with pwr := { s.pwr with heldReq := some (v % 8) } })) ∧
  (∀ (v : Nat) (s : State), regOpen s Reg.PWR_REQ = true → s.pwr.moving = false → 5 < v % 8 →
    exec (.pwrReq v) s = .next (followed s { s with pwr := { s.pwr with refused := true, moving := false } })) ∧
  (∀ (v : Nat) (s : State), regOpen s Reg.PWR_REQ = true → s.pwr.moving = false → v % 8 ≤ 5 → s.sec.st ≠ 0 →
    ¬(s.pwr.st = 4 ∧ (v % 8 = 2 ∨ v % 8 = 3)) → v % 8 ≠ s.pwr.st →
    exec (.pwrReq v) s = .next (followed s (powerBegins { s with pwr := { s.pwr with refused := false, target := v % 8, moving := true } }))) ∧
  (∀ s : State, s.pwr.st = 0 → s.pwr.moving = true → s.pwr.target = 1 → s.pwr.heldReq = none →
    exec .powerTransitionDone s = .next (followed s (requestClocks { s with pwr := { s.pwr with st := 1, moving := false } }))) ∧
  (∀ s : State, s.pwr.st ≠ 5 → s.pwr.moving = true → s.pwr.target = 5 →
    exec .powerTransitionDone s = .next (followed s (enterP5 s))) ∧
  (∀ (b temp : Nat) (s : State), b < 16 → s.pwr.st ≠ 5 → s.baysOn = true → 110 ≤ temp →
    exec (.junctionSensorRead b temp) s = .next (keepStraps s (thermalTrip s))) ∧
  (∀ (b temp : Nat) (s : State), b < 16 → s.pwr.st ≠ 5 → s.baysOn = true → temp < 97 → (s.bay b).clkJct = 7 → (s.bay b).jctHot = false →
    exec (.junctionSensorRead b temp) s = .next (keepStraps s ((s.setField (tjReg b) (8 * (b % 4) + 7) (8 * (b % 4)) temp).modBay b
      (fun x => { x with jctHot := false }))))

/-- Self-tests, verdicts and domain resets (R520 to R524, R529, R533). The test of a scratchpad bank starts at once; that of a
lane waits while the lane is in use. A verdict is logged; a transient one ends the recovery; a lasting one on a wire group uses
a spare wire up. CTL_PANESVC strikes its pane. A memory controller's reset ends with it ready. -/
def Obligations.SelfTestsAndVerdicts : Prop :=
  (∀ (k i bank : Nat) (r : Recovery) (s : State), okDom k = true → s.pwr.st ≠ 5 → (s.dom k).cur = some r → r.phase = 0 →
    (s.dom k).resetting = false → r.target = .spBank i bank →
    exec (.targetedSelfTest k) s = .next (followed s (testStarts s k))) ∧
  (∀ (k p lane : Nat) (r : Recovery) (s : State), okDom k = true → s.pwr.st ≠ 5 → (s.dom k).cur = some r → r.phase = 0 →
    (s.dom k).resetting = false → r.target = .optLane p lane → (s.port p).lanes.contains lane = true →
    exec (.targetedSelfTest k) s = .next (followed s s)) ∧
  (∀ (k p lane : Nat) (rep : Bool) (r : Recovery) (s : State), okDom k = true → s.pwr.st ≠ 5 → (s.dom k).cur = some r → r.phase = 1 →
    r.target = .optLane p lane →
    let s1 := logEvt s 0x09 1 (k / 256) (k % 256) r.target.addr 0 (s.devTime - r.start)
    exec (.selfTestVerdict k false rep) s = .next (followed s ((endRecovery s1 k).modPort p (fun x =>
      if x.lanes.contains lane || x.spares.contains lane then x else { x with spares := x.spares ++ [lane] })))) ∧
  (∀ (k l g : Nat) (rep : Bool) (r : Recovery) (s : State), okDom k = true → s.pwr.st ≠ 5 → (s.dom k).cur = some r → r.phase = 1 →
    r.target = .wire l g →
    exec (.selfTestVerdict k true rep) s = .next (followed s (endRecovery (wireFails (setPhase
      (logEvt s 0x09 2 (k / 256) (k % 256) r.target.addr 0 (s.devTime - r.start)) k 2) l g) k))) ∧
  (∀ (b : Nat) (s : State), b < 16 → s.pwr.st ≠ 5 → (s.dom (3 * 256 + b)).resetting = true →
    exec (.domainResetDone 3 b) s = .next (followed s ((endRecovery (s.setDom (3 * 256 + b)
      { s.dom (3 * 256 + b) with resetting := false }) (3 * 256 + b)).modMem b (fun m => { m with ready := true, resetting := false, trainFails := [] })))) ∧
  (∀ (n i : Nat) (s : State), n < 128 → regOpen s Reg.CTL_PANESVC = true → s.instOf n = some i → (s.pane i).out = false →
    exec (.panesvcSelfTest n) s = .next (followed s (strike s (.pane i) n 1 false))) ∧
  (∀ (n i : Nat) (r : Recovery) (s : State), n < 128 → regOpen s Reg.CTL_PANESVC = true → s.instOf n = some i → (s.pane i).out = false →
    let s1 := strike s (.pane i) n 4 false
    (s1.dom (256 + i)).cur = some r → r.target = .pane i → r.why = 4 → r.phase = 0 →
    exec (.panesvcReplace n) s = .next (followed s (askReplace (setPhase s1 (256 + i) 2) i)))

/-- Firmware updates (R530, R531, Table 17-8). Start enters Verify, but for Open and an update that runs; an image that passes
goes on to Write, one that fails ends with its result; a written slot goes to Control; the handover logs and enters the link
step; the last port makes the new slot the active one. Abort in Verify ends with result 5. -/
def Obligations.FirmwareUpdates : Prop :=
  (∀ s : State, regOpen s Reg.CTL_UPDCMD = true → s.rel.upd = 0 → s.sec.st ≠ 0 →
    exec .updateStart s = .next (keepStraps s { s with rel := { s.rel with upd := 1, updPort := 0, updBegun := false, updImg := [] } })) ∧
  (∀ s : State, regOpen s Reg.CTL_UPDCMD = true → s.rel.upd ≠ 0 →
    exec .updateStart s = .next (keepStraps s { s with rel := { s.rel with updRes := 7 } })) ∧
  (∀ s : State, regOpen s Reg.CTL_UPDCMD = true → s.rel.upd = 0 → s.sec.st = 0 →
    exec .updateStart s = .next (keepStraps s (updEnd s 6))) ∧
  (∀ s : State, regOpen s Reg.CTL_UPDCMD = true → s.rel.upd = 1 →
    exec .updateAbort s = .next (keepStraps s (updEnd s 5))) ∧
  (∀ (img : List Byte) (s s1 : State), s.pwr.st ≠ 5 → s.rel.upd = 1 → runMc (readImage (updAddr s)) s = (.ok img, s1) →
    let s2 := dropNeeds s1 (.ctl .update)
    imgVerdict (fun o n => (img.drop o).take n) (floorOf s2) = 0 →
    exec .updateVerifyDone s = .next (followed s { s2 with rel := { s2.rel with upd := 2, updImg := img } })) ∧
  (∀ (img : List Byte) (s s1 : State), s.pwr.st ≠ 5 → s.rel.upd = 1 → runMc (readImage (updAddr s)) s = (.ok img, s1) →
    let s2 := dropNeeds s1 (.ctl .update)
    let v := imgVerdict (fun o n => (img.drop o).take n) (floorOf s2)
    v ≠ 0 → exec .updateVerifyDone s = .next (followed s (updEnd s2 v))) ∧
  (∀ s : State, s.pwr.st ≠ 5 → s.rel.upd = 2 →
    exec (.updateWriteDone true) s = .next (keepStraps s (updTo (programSlot s s.rel.updImg.length) 3))) ∧
  (∀ s : State, s.pwr.st ≠ 5 → s.rel.upd = 3 → s.mgmt.commits = [] →
    exec .updateHandover s = .next (followed s (serveWaiting (updTakeOver s)))) ∧
  (∀ s : State, s.pwr.st ≠ 5 → s.rel.upd = 4 → s.rel.updBegun = true → s.rel.updPort = 33 →
    let s1 : State := { s with
      boot := { s.boot with fw := s.boot.fw.set 2 ((imgFw (fun o n => (s.rel.updImg.drop o).take n)).getD 2 0) }
      rel := { s.rel with updPort := 34, updBegun := false } }
    let s2 := writeDirectory s1 (1 - s.boot.active)
    exec .linkFirmwarePortDone s = .next (followed s (updEnd { s2 with boot := { s2.boot with active := 1 - s.boot.active } } 0))) ∧
  (∀ s : State, s.pwr.st ≠ 5 → s.rel.upd = 4 → s.rel.updBegun = true → s.rel.updPort < 31 →
    exec .linkFirmwarePortDone s = .next (followed s (updShutter { s with rel := { s.rel with updPort := s.rel.updPort + 1, updBegun := false } })))

/-- Management accesses (R543 to R551, R575). An access that no reason refuses is served and answered with reason 0 on its path;
a refused SMBus read is recorded in CTL_ACCERR, CTL_ACCADDR and CTL_ACCCNT and answered with its reason. A read of CTL_TIME_LO
latches the high half for its path. A LOG_DATA read moves word and index on. Interrupt registers (R441, R442). A write of
FLX_MSICTL sets MASK and keeps PEND, and a pending vector whose mask is clear is sent; CTL_IRQTEST raises the vector it names; a
vector above 50 raises nothing. -/
def Obligations.ManagementAccesses : Prop :=
  (∀ (a v : Nat) (s s1 : State), a < 2 ^ 32 → s.pwr.st ≠ 5 → s.rel.upd ≠ 3 → pathBusy s 1 = false → accessReason s 1 a false = 0 →
    readEffect s 1 (resolve s a) = (some v, s1) →
    exec (.smbusRead a) s = .next (followed s ((noteAnswer s1 1 0 v).readOut v))) ∧
  (∀ (a : Nat) (s : State), a < 2 ^ 32 → s.pwr.st ≠ 5 → s.rel.upd ≠ 3 → pathBusy s 1 = false → accessReason s 1 a false ≠ 0 →
    let r := accessReason s 1 a false
    exec (.smbusRead a) s = .next (followed s ((noteAnswer (((s.setReg Reg.CTL_ACCERR (r + 2 ^ 8)).setReg Reg.CTL_ACCADDR a).incReg
      Reg.CTL_ACCCNT) 1 r (0xE0000000 + r)).readOut (0xE0000000 + r)))) ∧
  (∀ (c : Instr) (path a v : Nat) (s : State),
    (c = .smbusWrite a v ∧ path = 1 ∨ c = .dbgacc a v true ∧ path = 3 ∨ c = .registerWrite path a v ∧ 1 ≤ path ∧ path ≤ 3) →
    a < 2 ^ 32 → v < 2 ^ 32 → s.pwr.st ≠ 5 → s.rel.upd ≠ 3 → pathBusy s path = false → accessReason s path a true = 0 →
    resolve s a ≠ Reg.DBG_FDATA → (writeEffect s path (resolve s a) v).mgmt.held.length ≤ s.mgmt.held.length →
    exec c s = .next (followed s (noteAnswer (writeEffect s path (resolve s a) v) path 0 0))) ∧
  (∀ (a v x : Nat) (s s1 : State), a < 2 ^ 32 → v < 2 ^ 32 → s.pwr.st ≠ 5 → s.rel.upd ≠ 3 → pathBusy s 3 = false →
    accessReason s 3 a false = 0 → readEffect s 3 (resolve s a) = (some x, s1) →
    exec (.dbgacc a v false) s = .next (followed s ((noteAnswer s1 3 0 x).readOut x))) ∧
  (∀ (path : Nat) (s : State), 1 ≤ path → path ≤ 3 → s.pwr.st ≠ 5 → s.rel.upd ≠ 3 → pathBusy s path = false →
    accessReason s path Reg.CTL_TIME_LO false = 0 →
    ∃ t, exec (.ctlTimeLoRead path) s = .next t ∧ t.mgmt.last = tset (0, 0) s.mgmt.last path (0, BitVec.ofNat 32 (s.devTime % 2 ^ 32)) ∧
      t.mgmt.timeHi = tset 0 s.mgmt.timeHi path (BitVec.ofNat 32 (s.devTime / 2 ^ 32)) ∧ t.regs = s.regs) ∧
  (∀ (a : Nat) (s : State), a < 2 ^ 32 → s.pwr.st ≠ 5 → s.mgmt.waiting = [] →
    s.mgmt.held.any (fun h => h.path == 1 && h.addr == a) = true →
    exec (.smbusTimeout a true) s = .next (keepStraps s (noteAnswer (refuseAccess { s with mgmt := { s.mgmt with
      held := eraseFirst (fun h => true && h.path == 1 && h.addr == a) s.mgmt.held } } 1 a 7 true) 1 7 0))) ∧
  (∀ s : State, s.pwr.st ≠ 5 → logOpen s = true →
    let v := s.regN Reg.LOG_SEL
    exec .logDataRead s = .next (keepStraps s ((s.setReg Reg.LOG_SEL (if bits v 15 13 = 7 then (v % 8192 + 1) % 8192
      else v % 8192 + (bits v 15 13 + 1) * 2 ^ 13)).readOut (logWord s)))) ∧
  (∀ (f a v : Nat) (m : List Byte) (s s1 s2 : State), f < 2 → s.pwr.st ≠ 5 → s.rel.upd ≠ 3 → pathBusy s 2 = false → hostWritesDone s f = true →
    takeHost s f 0x2A = some (m, s1) → a = field (mBody m) 0 4 → accessReason s1 2 a false = 0 →
    readEffect s1 2 (resolve s1 a) = (some v, s2) →
    exec (.mgrd f) s = .next (followed s (mgrsp (noteAnswer s2 2 0 v) f m 0 (some v)))) ∧
  (∀ (f a v : Nat) (m : List Byte) (s s1 : State), f < 2 → s.pwr.st ≠ 5 → s.rel.upd ≠ 3 → pathBusy s 2 = false → hostWritesDone s f = true →
    takeHost s f 0x2B = some (m, s1) → a = field (mBody m) 0 4 → v = field (mBody m) 4 4 → accessReason s1 2 a true = 0 →
    resolve s1 a ≠ Reg.DBG_FDATA →
    let t := writeEffect s1 2 (resolve s1 a) v
    t.mgmt.held.length ≤ s1.mgmt.held.length → t.boot.ready = true →
    exec (.mgwr f) s = .next (followed s (answerWrite t 2 0 (some (f, m))))) ∧
  (∀ (vec v : Nat) (s : State), vec ≤ 50 → regOpen s (Reg.FLX_MSICTL vec) = true →
    exec (.flxMsictlWrite vec v) s = .next (keepStraps s (sendMsi (s.setReg (Reg.FLX_MSICTL vec)
      (s.regN (Reg.FLX_MSICTL vec) / 2 % 2 * 2 + v % 2)) vec))) ∧
  (∀ (v : Nat) (s : State), regOpen s Reg.CTL_IRQTEST = true → v % 64 ≤ 50 → s.regN (Reg.FLX_MSICTL (v % 64)) % 2 = 1 →
    ∃ t, exec (.ctlIrqtest v) s = .next t ∧ t.regN (Reg.FLX_MSICTL (v % 64)) = 3 ∧ t.ports = s.ports ∧ t.bays = s.bays) ∧
  (∀ (v : Nat) (s : State), regOpen s Reg.CTL_IRQTEST = true → 50 < v % 64 → exec (.ctlIrqtest v) s = .next (keepStraps s s)) ∧
  (∀ (ev verdict dkind inst addr d0 d1 : Nat) (s : State),
    let t := logEvt s ev verdict dkind inst addr d0 d1
    t.rel.logSeq = s.rel.logSeq + 1 ∧
    let e : LogEnt := {
      time := s.devTime, seq := s.rel.logSeq + 1, event := ev, cls := evClass ev, verdict, dkind, inst, addr, detail0 := d0, detail1 := d1 }
    (∀ k, tget none t.rel.log k = if k = (s.rel.logSeq + 1) % 8192 then some e else tget none s.rel.log k))

/-- Rails, clocks and sensors of the package (R559 to R574). SUP_EVENTS clears what is written 1. The loss of REFCLK0 moves the
device to REFCLK1 with REFSW; both lost, a low VIN and a fall of VAUX bring P5; a dip of VIN sets VINDIP on the way down; VIO
follows its level. A sensor set with a die at 110 °C trips. -/
def Obligations.PackageEvents : Prop :=
  (∀ (v : Nat) (s : State), regOpen s Reg.SUP_EVENTS = true →
    exec (.supEventsClear v) s = .next (keepStraps s (s.setReg Reg.SUP_EVENTS
      (s.regN Reg.SUP_EVENTS - Nat.land (s.regN Reg.SUP_EVENTS) v)))) ∧
  (∀ s : State, s.sup.ref0Lost = false → s.sup.ref1Lost = false → s.sup.refUsed = 0 →
    exec .refclk0Loss s = .next (keepStraps s (supEvent { s with sup := { s.sup with ref0Lost := true, refUsed := 1 } } 0))) ∧
  (∀ s : State, s.sup.ref0Lost = false →
    exec .refclk1Loss s = .next (keepStraps s { s with sup := { s.sup with ref1Lost := !s.sup.ref1Lost } })) ∧
  (∀ s : State, ∃ t, exec .refclkBothLost s = .next t ∧ t.pwr.st = 5 ∧ t.sup.ref0Lost = true ∧ t.sup.ref1Lost = true ∧ t.flash = s.flash ∧
    t.panes = State.reset.panes ∧ t.bays = State.reset.bays) ∧
  (∀ s : State, s.sup.vauxOk = true → ∃ t, exec .vinUndervoltage s = .next t ∧ t.pwr.st = 5 ∧ t.sup.vinOk = false ∧ t.flash = s.flash ∧
    bit (t.regN Reg.SUP_EVENTS) 2 = true ∧ t.panes = State.reset.panes) ∧
  (∀ s : State, ∃ t, exec .vauxUndervoltage s = .next t ∧ t.pwr.st = 5 ∧ t.regs = [] ∧ t.sup.vauxOk = false ∧ t.flash = s.flash ∧
    t.panes = State.reset.panes) ∧
  (∀ s : State, s.sup.vinOk = true →
    exec .vinDip s = .next (keepStraps s (supEvent { s with sup := { s.sup with vinOk := false } } 1))) ∧
  (∀ s : State, exec .vioUndervoltage s = .next (keepStraps s { s with sup := { s.sup with vioOk := !s.sup.vioOk } })) ∧
  (∀ (rep : Sensors) (s : State), s.pwr.st ≠ 5 → 110 ≤ rep.ctl → exec (.sensorRead rep) s = .next (keepStraps s (thermalTrip s))) ∧
  (∀ (rep : Sensors) (s : State), s.pwr.st ≠ 5 → s.rimOn = false → rep.lasers = [] → rep.lintels = [] → rep.rails = [] → rep.ctl < 110 →
    rep.sup < 110 →
    exec (.sensorRead rep) s = .next (followed s (s.setReg Reg.SUP_TEMP (rep.sup % 256 + rep.ctl % 256 * 2 ^ 8 +
      hottestDie s rep % 256 * 2 ^ 24))))

/-- At rest nothing follows a step: with no domain reset due, no open stream, no switch under way, no access under way, no task
and nothing that the units of the bays have to send or to read, the settling after a command changes nothing, so that the state
that a statement names is the next state itself. -/
def Obligations.SettleAtRestChangesNothing : Prop :=
  ∀ s : State, (∀ e ∈ s.rel.doms, e.2.due = 0) → (∀ e ∈ s.panes, (s.pane e.1).seq.streams.all (fun x => !openStream x.2) = true) →
    (∀ e ∈ s.panes, (s.pane e.1).sw = none) → (∀ b, b < 16 → (s.bay b).tfHeld = [] ∧ (s.bay b).mem.held = [] ∧ (s.bay b).dbWait = []) →
    s.gx.noticeHeld = [] → s.accs = [] → s.tasks = [] → settle s = s

/-- Local memory keeps what is stored: after a store each byte of it reads back and is delivered, with its errors gone, and
every other byte reads as before (R294, R298). -/
def Obligations.MemoryReadsBackWhatIsStored : Prop :=
  ∀ (s : State) (pa : Nat) (bs : List Byte),
    (∀ x, tget 0 (storeBytes s pa bs).dram x = if pa ≤ x ∧ x < pa + bs.length then bs.getD (x - pa) 0 else tget 0 s.dram x) ∧
    eccBytes (storeBytes s pa bs).dram (storeBytes s pa bs).dramErr pa bs.length = bs

/-- The check code corrects every single flipped stored bit and refuses every pair (R297). -/
def Obligations.CheckCodeCorrectsSingleErrors : Prop :=
  (∀ i, i < 39 → eccRead (2 ^ i) = some (0, true)) ∧ eccRead 0 = some (0, false) ∧
  (∀ i j, i < j → j < 39 → eccRead (2 ^ i + 2 ^ j) = none)

/-- The address map gives every local address of a legal memory map a place of its own: no two addresses share a stack, a
channel and a channel offset, and the offset finds its address again (R289, R290). -/
def Obligations.AddressMapIsOneToOne : Prop :=
  (∀ (s : State) (pa st ch off : Nat), MapLegal s → mapAddr s pa = some (st, ch, off) → addrAt s st ch off = some pa) ∧
  (∀ (s : State) (x y : Nat) (p : Nat × Nat × Nat), MapLegal s → mapAddr s x = some p → mapAddr s y = some p → x = y)

/-- The tree of a tile reduction does not depend on how its leaves are divided into passes (R122, R126): taking up the pending
nodes that the first `h` leaves left gives, for every later bound, the nodes that one pass over all the leaves gives; and the
whole tree is that of the vector engine's class-S sums (R202). -/
def Obligations.PassesDoNotChangeTheTree : Prop :=
  (∀ (int : Bool) (leaf : Nat → Nat × Bool) (fuel n g h : Nat), 1 ≤ n → g ≤ h →
    (forest int (forest int [] leaf g fuel 0 n).parts leaf h fuel 0 n).parts = (forest int [] leaf h fuel 0 n).parts) ∧
  (∀ (int : Bool) (xs : List Nat), 1 ≤ xs.length → xs.length ≤ 2 ^ 24 →
    (forest int [] (fun k => (xs.getD k 0, false)) xs.length 25 0 xs.length).parts = [⟨0, xs.length, (treeSum int 25 xs).v⟩])

/-- After a thermal trip no command but a power-up leaves P5 or lifts THERMTRIP_N (R563). -/
def Obligations.TripHoldsUntilPowerUp : Prop :=
  ∀ (c : Instr) (s t : State), s.sup.tripped = true → s.pwr.st = 5 → (∀ chip smba rn, c ≠ .powerUp chip smba rn) → exec c s = .next t →
    t.pwr.st = 5 ∧ t.sup.tripped = true ∧ (∀ chip smba rn, c = .pinReset chip smba rn → t = s)

/-- Staged copies follow the commits (R12): a rejected commit leaves every staged copy; a successful one of a target leaves each
of its staged registers with its copy equal to the value in force. -/
def Obligations.StagedCopiesFollowCommits : Prop :=
  (∀ (v off chk : Nat) (s : State), regOpen s Reg.CTL_COMMIT = true → s.mgmt.commits.contains (v % 65536) = false →
    (tgtKnown (v % 65536) = false ∨
      commitCheck (s.setReg Reg.CTL_COMMITSEQ ((s.regN Reg.CTL_COMMITSEQ + 1) % 2 ^ 32)) (v % 65536) = some (off, chk)) →
    ∃ t, exec (.ctlCommit v) s = .next t ∧ t.staged = s.staged ∧ bits (t.regN Reg.CTL_COMMITST) 7 0 = 3) ∧
  (∀ (k a : Nat) (s : State), k < 65536 → s.pwr.st ≠ 5 → s.mgmt.commits.contains k = true → atBoundary s k = true → s.mgmt.held = [] →
    a ∈ tgtRegs k → ∃ t, exec (.commitApply k) s = .next t ∧ stagedN t a = t.regN a)

/-- A doorbell waits for its queue's descriptor; a tail that is further from HEAD than the ring holds then sets BAY_QERR.QERR
with the queue, and writes that clear ENABLE and set ERR in the descriptor go out; a tail that the ring holds is accepted (R43).
A queue whose ENABLE is clear gives the dispatcher nothing. -/
def Obligations.DoorbellBeyondTheRingDisablesTheQueue : Prop :=
  (∀ (b v : Nat) (s : State), b < 16 → regOpen s (Reg.BAY_DOORBELL b) = true → freeEntries s b ≠ 0 →
    exec (.bayDoorbell b v) s = .next (followed s (s.modBay b (fun x => { x with dbWait := x.dbWait ++ [v] })))) ∧
  (∀ (n b v : Nat) (vs : List Nat) (d : List Byte) (s s1 : State), (s.bay b).dbWait = v :: vs →
    let q := bits v 23 16
    runMc (sysRead (.bay b .doorbell) (qdescAddr s b q) 64) s = (.ok d, s1) → bit (field d 8 4) 20 = true →
    2 ^ bits (field d 8 4) 19 16 < (bits v 15 0 + 65536 - field d 12 2) % 65536 →
    let s2 := s1.setReg (Reg.BAY_QERR b) (2 ^ 31 + q)
    let a := qdescAddr s2 b q
    let s3 := sysPost s2 (.bay b .fetch) (a + 8) (leBytes 4 (setBits (field d 8 4) 20 20 0))
    let s4 := sysPost s3 (.bay b .fetch) (a + 14) (leBytes 2 (setBits (field d 14 2) 0 0 1))
    goDoorbells (n + 1) s b = goDoorbells n ((dropNeeds s4 (.bay b .doorbell)).modBay b (fun x => { x with dbWait := vs })) b) ∧
  (∀ (n b v : Nat) (vs : List Nat) (d : List Byte) (s s1 : State), (s.bay b).dbWait = v :: vs →
    let q := bits v 23 16
    runMc (sysRead (.bay b .doorbell) (qdescAddr s b q) 64) s = (.ok d, s1) → bit (field d 8 4) 20 = true →
    (bits v 15 0 + 65536 - field d 12 2) % 65536 ≤ 2 ^ bits (field d 8 4) 19 16 →
    let s2 := s1.modBay b (fun x => { x with tails := tset none x.tails q (some (bits v 15 0)) })
    goDoorbells (n + 1) s b = goDoorbells n ((dropNeeds s2 (.bay b .doorbell)).modBay b (fun x => { x with dbWait := vs })) b) ∧
  (∀ (b q tail : Nat) (d : List Byte) (s s1 : State), tget none (s.bay b).tails q = some tail →
    s.accs.any (fun x => x.sys && x.op != .read && x.va / 64 == qdescAddr s b q / 64) = false →
    runMc (sysRead (.bay b .fetch) (qdescAddr s b q) 64) s = (.ok d, s1) → bit (field d 8 4) 20 = false →
    runMc (fetchable b q) s = (.ok none, s1))

/-- The header of every command (R48): its fields stand where Table 2-4 puts them; a reserved ENGINE, a reserved bit and a LEN
past LISTLEN are faults 0x01, 0x02 and 0x03, and nothing else is; a command whose header has one, read from the list by any
command's row, faults its task with that code. -/
def Obligations.HeaderFaultsHaveTheirCodes : Prop :=
  (∀ (op eng len wait imm rsv tag rest : Nat), op < 2 ^ 8 → eng < 2 ^ 4 → len < 2 ^ 4 → wait < 2 ^ 8 → imm < 2 → rsv < 2 ^ 7 → tag < 2 ^ 32 →
    let c := op + eng * 2 ^ 8 + len * 2 ^ 12 + wait * 2 ^ 16 + imm * 2 ^ 24 + rsv * 2 ^ 25 + tag * 2 ^ 32 + rest * 2 ^ 64
    hOp c = op ∧ hEng c = eng ∧ hLen c = 16 * (len + 1) ∧ hWait c = wait ∧ hImm c = (imm == 1) ∧ hRsv c = rsv ∧ hTag c = tag) ∧
  (∀ (q : SeqBlk) (c : Nat), 7 < hEng c → headerFault q c = some 0x01) ∧
  (∀ (q : SeqBlk) (c : Nat), hEng c ≤ 7 → hRsv c ≠ 0 → headerFault q c = some 0x02) ∧
  (∀ (q : SeqBlk) (c : Nat), hEng c ≤ 7 → hRsv c = 0 → q.listEnd < q.pc + hLen c → headerFault q c = some 0x03) ∧
  (∀ (q : SeqBlk) (c : Nat), hEng c ≤ 7 → hRsv c = 0 → q.pc + hLen c ≤ q.listEnd → headerFault q c = none) ∧
  (∀ (i c code : Nat) (r : CmdRow) (busy : State → Bool) (body : Mc Bool) (s s1 : State),
    waitsToStart s i c r = false → mayIssue s i = true →
    runMc (readCmd i c) s = (.ok true, s1) → headerFault (s1.pane i).seq c = some code →
    runCmd s i c r busy body = settle (paneFault s1 i code
      { eng := if engKnown (hEng c) then hEng c else 0, op := hOp c, pos := if hEng c = 5 then cbits c 8 11 0 * 2 ^ 40 else 0, tag := hTag c })) ∧
  (∀ (i c code : Nat) (s s1 : State), i < 144 → s.pwr.st ≠ 5 → waitsToStart s i c (seqRow 0) = false → mayIssue s i = true →
    runMc (readCmd i c) s = (.ok true, s1) → headerFault (s1.pane i).seq c = some code →
    exec (.nop i c) s = .next (followed s (paneFault s1 i code
      { eng := if engKnown (hEng c) then hEng c else 0, op := hOp c, pos := if hEng c = 5 then cbits c 8 11 0 * 2 ^ 40 else 0, tag := hTag c })))

/-- The reasons of a refused access in their order (R575): alignment, not ready, unmapped, unavailable, refused by state, path;
an access that meets none of them is served. -/
def Obligations.AccessReasonsHaveTheirOrder : Prop :=
  (∀ (s : State) (path a : Nat) (wr : Bool), a % 4 ≠ 0 → accessReason s path a wr = 2) ∧
  (∀ (s : State) (path a : Nat) (wr : Bool), a % 4 = 0 → s.boot.ready = false → answersEarly s path a wr = false →
    accessReason s path a wr = 3) ∧
  (∀ (s : State) (path a : Nat) (wr : Bool), a % 4 = 0 → (s.boot.ready = true ∨ answersEarly s path a wr = true) →
    regRow (resolve s a) = none → accessReason s path a wr = 1) ∧
  (∀ (s : State) (path a : Nat) (wr : Bool), a % 4 = 0 → (s.boot.ready = true ∨ answersEarly s path a wr = true) →
    (regRow (resolve s a)).isSome = true → isAlias a = true → aliasInst s a = none → accessReason s path a wr = 5) ∧
  (∀ (s : State) (path a : Nat), Addressed s path a true → writeUnavailable s path (resolve s a) = true →
    accessReason s path a true = 5) ∧
  (∀ (s : State) (path a : Nat), Addressed s path a true → writeUnavailable s path (resolve s a) = false →
    stateForbids s (resolve s a) = true → accessReason s path a true = 4) ∧
  (∀ (s : State) (path a : Nat), Addressed s path a true → writeUnavailable s path (resolve s a) = false →
    stateForbids s (resolve s a) = false → wrongPath s path (resolve s a) = true → accessReason s path a true = 6) ∧
  (∀ (s : State) (path a : Nat), Addressed s path a true → writeUnavailable s path (resolve s a) = false →
    stateForbids s (resolve s a) = false → wrongPath s path (resolve s a) = false → accessReason s path a true = 0) ∧
  (∀ (s : State) (path a : Nat), Addressed s path a false → accessReason s path a false = 0)

/-- Completions of the stream commands and events, of the fault queue's writes, of a migration's steps and of a management
write, each under conditions on the state and the operands alone. A release or a post moves the stream's position on by its
blocks; a cancel leaves only the blocks that are being written, or ends the stream as cancelled; a delivered block is counted in
the stream and in SE_BLOCKS; a slip is marked; a read of SE_STRDATA moves the word on. A resolution empties its entry, or counts
as stale; the tails take their bits; a migration starts with a page of the pool, and its steps follow each other. -/
def Obligations.StreamAndMigrationCommandsComplete : Prop :=
  (∀ (i c : Nat) (s s1 : State), i < 144 → s.pwr.st ≠ 5 → startState s i c (seRow 2 16) (fun _ => false) = some s1 →
    plainForm c 16 = true → cbits c 8 15 4 = 0 → cbits c 8 31 20 = 0 → cbytes c 12 4 = 0 → 1 ≤ cbits c 8 19 16 → cbits c 8 19 16 ≤ 8 →
    let x := streamOf s1 i (cbits c 8 3 0)
    x.status = 1 → x.kind = 0 → x.cancel = false → x.done + cbits c 8 19 16 ≤ x.deliv →
    ∃ u, exec (.srelease i c) s = .next (followed s u) ∧ (streamOf u i (cbits c 8 3 0)).done = x.done + cbits c 8 19 16 ∧
      (streamOf u i (cbits c 8 3 0)).deliv = x.deliv) ∧
  (∀ (i c : Nat) (s s1 : State), i < 144 → s.pwr.st ≠ 5 → startState s i c (seRow 3 16) (fun _ => false) = some s1 →
    plainForm c 16 = true → cbits c 8 15 4 = 0 → cbits c 8 31 20 = 0 → cbytes c 12 4 = 0 → 1 ≤ cbits c 8 19 16 → cbits c 8 19 16 ≤ 8 →
    let x := streamOf s1 i (cbits c 8 3 0)
    x.status = 1 → x.kind = 1 → x.cancel = false → x.done - x.deliv + cbits c 8 19 16 ≤ x.nbuf →
    ∃ u, exec (.spost i c) s = .next (followed s u) ∧ (streamOf u i (cbits c 8 3 0)).done = x.done + cbits c 8 19 16 ∧
      (streamOf u i (cbits c 8 3 0)).deliv = x.deliv) ∧
  (∀ (i c : Nat) (s s1 : State), i < 144 → s.pwr.st ≠ 5 → startState s i c (seRow 4 16) (fun _ => false) = some s1 →
    plainForm c 16 = true → cbits c 8 15 4 = 0 → cbits c 8 31 20 = 0 → cbytes c 12 4 = 0 →
    (streamOf s1 i (cbits c 8 3 0)).status = 1 →
    ∃ u, exec (.scancel i c) s = .next (followed s u) ∧ (∀ y ∈ (streamOf u i (cbits c 8 3 0)).blocks, y.writing = true) ∧
      ((streamOf u i (cbits c 8 3 0)).cancel = true ∨ (streamOf u i (cbits c 8 3 0)).status = 4)) ∧
  (∀ (i st : Nat) (s : State) (y : SBlk) (d : SDesc), i < 144 → st < 16 → s.pwr.st ≠ 5 →
    let x := streamOf (seArrived (settle s) i) i st
    openStream x = true → blockDone (seArrived (settle s) i) i st x = some y → heldDesc x y.desc = some d →
    ∃ u, exec (.blockDelivered i st) s = .next (followed s u) ∧ (streamOf u i st).deliv = x.deliv + 1) ∧
  (∀ (i st : Nat) (s : State), i < 144 → st < 16 → s.pwr.st ≠ 5 → (streamOf s i st).status = 1 → (streamOf s i st).kind = 0 →
    (streamOf s i st).cancel = false → (streamOf s i st).dry < s.devTime → (streamOf s i st).didx ≠ (streamOf s i st).ndesc →
    ∃ u, exec (.streamSlip i st) s = .next (keepStraps s u) ∧ (streamOf u i st).slipped = true) ∧
  (∀ (i : Nat) (s : State), i < 144 → regOpen s (Reg.SE_STRDATA i) = true →
    ∃ t, exec (.seStrdataRead i) s = .next t ∧ bits (t.regN (Reg.SE_STRSEL i)) 3 0 = bits (s.regN (Reg.SE_STRSEL i)) 3 0 ∧
      bits (t.regN (Reg.SE_STRSEL i)) 7 4 = (bits (s.regN (Reg.SE_STRSEL i)) 7 4 + 1) % 16 ∧ t.panes = s.panes ∧ t.bays = s.bays) ∧
  (∀ (v : Nat) (s : State) (e : FqEnt), regOpen s Reg.XLT_FRESOLVE = true → tget none s.gx.fq (bits v 7 0) = some e →
    e.st = 1 → e.seq % 65536 = bits v 31 16 → s.gx.noticeHeld = [] → bit v 8 = false →
    exec (.xltFresolve v) s = .next (followed s (freeWake s (bits v 7 0) e))) ∧
  (∀ (v : Nat) (s : State), regOpen s Reg.XLT_FRESOLVE = true → tget none s.gx.fq (bits v 7 0) = none →
    exec (.xltFresolve v) s = .next (followed s (s.incReg Reg.XLT_STALERES))) ∧
  (∀ (v : Nat) (s : State), regOpen s Reg.XLT_FNTAIL = true →
    ∃ u, exec (.xltFntailWrite v) s = .next (followed s u) ∧ u = retryStalls (s.setReg Reg.XLT_FNTAIL (v % 512))) ∧
  (∀ (v : Nat) (s : State), regOpen s Reg.XLT_MPTAIL = true →
    ∃ t, exec (.xltMptailWrite v) s = .next t ∧ t.regN Reg.XLT_MPTAIL = v % 1024 ∧ t.gx = s.gx ∧ t.panes = s.panes ∧ t.bays = s.bays ∧
      t.dram = s.dram ∧ t.accs = s.accs) ∧
  (∀ (k : Nat) (e : FqEnt) (bs : List Byte) (s s1 : State), s.pwr.st ≠ 5 → s.gx.mig = none → oldestMigrate s = some (k, e) →
    poolEmpty s = false → runMc (sysRead (.ctl .pool) (poolAddr s) 8) s = (.ok bs, s1) →
    poolPageOk s1 (localPa (leNat bs) / 4096 * 4096) = true →
    ∃ u, exec .migrationStart s = .next (followed s u) ∧
      u.gx.mig = some { entry := k, step := 2, newpa := localPa (leNat bs) / 4096 * 4096 } ∧
      tget none u.gx.fq k = some { e with st := 2, newpa := localPa (leNat bs) / 4096 * 4096 }) ∧
  (∀ (m : Mig) (e : FqEnt) (s : State), s.pwr.st ≠ 5 → s.gx.mig = some m → m.step = 3 → tget none s.gx.fq m.entry = some e →
    (∀ a ∈ s.accs, ofMig a = true → a.stage = .got ∧ a.flt = none) →
    ∃ u, exec .migrationStepDone s = .next (followed s u) ∧ u.gx.mig = some { m with step := 4 } ∧ u.gx.fq = s.gx.fq) ∧
  (∀ (v : Nat) (s : State), v < 2 ^ 32 → s.pwr.st ≠ 5 → s.rel.upd ≠ 3 → pathBusy s 1 = false → accessReason s 1 Reg.LOG_SEL true = 0 →
    exec (.smbusWrite Reg.LOG_SEL v) s = .next (followed s (noteAnswer (s.setReg Reg.LOG_SEL (Nat.land v (rowMask Reg.LOG_SEL))) 1 0 0)))
end

