-- ==== Sys2Proof/Laws/Tbl.lean ====
section
/-! SUPPORT. Sparse tables: what a read gives after a write, and that every operation on a table keeps its canonical form. -/

namespace Sys2Proof.Machine

variable {α : Type}

/-! ### Reading -/

/-- A key that no entry has reads as unlisted. -/
theorem tget_absent (d : α) (k : Nat) (t : Tbl α) (h : ∀ e ∈ t, e.1 ≠ k) : tget d t k = d := by
  induction t with
  | nil => rfl
  | cons e t ih =>
    simp only [tget]
    rw [if_neg (h e (by simp))]
    exact ih (fun e he => h e (by simp [he]))

/-- An entry put in is read back. -/
theorem tget_tins_self (d : α) (k : Nat) (v : α) (t : Tbl α) (h : ∀ e ∈ t, e.1 ≠ k) : tget d (tins k v t) k = v := by
  induction t with
  | nil => simp [tins, tget]
  | cons e t ih =>
    obtain ⟨k', v'⟩ := e
    have hk := h (k', v') (by simp)
    unfold tins
    split
    · simp [tget]
    · simp only [tget]
      rw [if_neg hk]
      exact ih (fun e he => h e (by simp [he]))

/-- An entry put in leaves every other key. -/
theorem tget_tins_ne (d : α) (k j : Nat) (v : α) (t : Tbl α) (h : j ≠ k) : tget d (tins k v t) j = tget d t j := by
  induction t with
  | nil => simp [tins, tget, Ne.symm h]
  | cons e t ih =>
    obtain ⟨k', v'⟩ := e
    unfold tins
    split
    · simp only [tget]; rw [if_neg (Ne.symm h)]
    · simp only [tget, ih]

/-- Keeping the entries whose keys satisfy a test: the other keys read as unlisted. -/
theorem tget_filter (d : α) (p : Nat → Bool) (t : Tbl α) (k : Nat) :
    tget d (t.filter (fun e => p e.1)) k = if p k then tget d t k else d := by
  induction t with
  | nil => simp [tget]
  | cons e t ih =>
    by_cases h : p e.1 = true
    · simp only [List.filter_cons, h, if_true, tget]
      by_cases hk : e.1 = k
      · subst hk; simp [h]
      · simp [hk, ih]
    · simp only [List.filter_cons, h, tget]
      by_cases hk : e.1 = k
      · subst hk; simp [ih, h]
      · simp [hk, ih]

theorem mem_tdel_ne {t : Tbl α} {k : Nat} : ∀ e ∈ tdel t k, e.1 ≠ k := by
  intro e he
  simp only [tdel, List.mem_filter, bne_iff_ne] at he
  exact he.2

/-- Removing an entry leaves every other key. -/
theorem tget_tdel_ne (d : α) (t : Tbl α) (k j : Nat) (h : j ≠ k) : tget d (tdel t k) j = tget d t j := by
  unfold tdel
  rw [tget_filter d (fun a => a != k)]
  simp [h]

/-- What is written is read back. -/
@[simp] theorem tget_tset_self [DecidableEq α] (d : α) (t : Tbl α) (k : Nat) (v : α) : tget d (tset d t k v) k = v := by
  unfold tset
  split
  · rename_i hv; rw [tget_absent d k _ mem_tdel_ne, hv]
  · exact tget_tins_self d k v _ mem_tdel_ne

/-- A write leaves every other key, whatever that key reads as when it is unlisted. -/
theorem tget_tset_ne [DecidableEq α] (d d' : α) (t : Tbl α) (k j : Nat) (v : α) (h : j ≠ k) : tget d' (tset d t k v) j = tget d' t j := by
  unfold tset
  split
  · exact tget_tdel_ne d' t k j h
  · rw [tget_tins_ne d' k j v _ h, tget_tdel_ne d' t k j h]

/-- What a table reads after a write, at any key. -/
theorem tget_tset [DecidableEq α] (d : α) (t : Tbl α) (k j : Nat) (v : α) :
    tget d (tset d t k v) j = if j = k then v else tget d t j := by
  by_cases h : j = k
  · subst h; simp
  · rw [tget_tset_ne d d t k j v h, if_neg h]

/-! ### The canonical form -/

/-- Rising keys, said of the whole list. -/
theorem tsorted_iff (lo : Nat) (t : Tbl α) :
    tsorted lo t = true ↔ t.Pairwise (fun x y => x.1 < y.1) ∧ ∀ e ∈ t, lo ≤ e.1 := by
  induction t generalizing lo with
  | nil => simp [tsorted]
  | cons e t ih =>
    obtain ⟨k, v⟩ := e
    simp only [tsorted, Bool.and_eq_true, decide_eq_true_eq, ih, List.pairwise_cons, List.mem_cons, forall_eq_or_imp]
    constructor
    · rintro ⟨h1, h2, h3⟩
      exact ⟨⟨fun e he => h3 e he, h2⟩, h1, fun e he => by have := h3 e he; omega⟩
    · rintro ⟨⟨h1, h2⟩, h3, _⟩
      exact ⟨h3, h2, fun e he => h1 e he⟩

/-- The canonical form, said of the whole list. -/
theorem twf_iff [DecidableEq α] (d : α) (t : Tbl α) :
    twf d t = true ↔ t.Pairwise (fun x y => x.1 < y.1) ∧ ∀ e ∈ t, e.2 ≠ d := by
  unfold twf
  rw [Bool.and_eq_true, tsorted_iff, List.all_eq_true]
  simp

theorem twf_nil [DecidableEq α] (d : α) : twf d ([] : Tbl α) = true := rfl

/-- A part of a canonical table is canonical. -/
theorem twf_filter [DecidableEq α] (d : α) (t : Tbl α) (p : Nat × α → Bool) (h : twf d t = true) : twf d (t.filter p) = true := by
  rw [twf_iff] at h ⊢
  exact ⟨h.1.filter p, fun e he => h.2 e (List.mem_of_mem_filter he)⟩

theorem twf_tdel [DecidableEq α] (d : α) (t : Tbl α) (k : Nat) (h : twf d t = true) : twf d (tdel t k) = true := twf_filter d t _ h
theorem twf_tdrop [DecidableEq α] (d : α) (t : Tbl α) (lo hi : Nat) (h : twf d t = true) : twf d (tdrop t lo hi) = true :=
  twf_filter d t _ h

theorem mem_tins {k : Nat} {v : α} {t : Tbl α} {e : Nat × α} (h : e ∈ tins k v t) : e = (k, v) ∨ e ∈ t := by
  induction t with
  | nil => simp only [tins, List.mem_singleton] at h; exact .inl h
  | cons x t ih =>
    obtain ⟨k', v'⟩ := x
    unfold tins at h
    split at h
    · simpa using h
    · rcases List.mem_cons.mp h with h | h
      · exact .inr (by simp [h])
      · rcases ih h with h | h
        · exact .inl h
        · exact .inr (by simp [h])

theorem pairwise_tins {k : Nat} {v : α} {t : Tbl α} (h : t.Pairwise (fun x y => x.1 < y.1)) (hk : ∀ e ∈ t, e.1 ≠ k) :
    (tins k v t).Pairwise (fun x y => x.1 < y.1) := by
  induction t with
  | nil => simp [tins]
  | cons x t ih =>
    obtain ⟨k', v'⟩ := x
    have hne : k' ≠ k := hk (k', v') (by simp)
    rw [List.pairwise_cons] at h
    unfold tins
    split
    · rename_i hlt
      rw [List.pairwise_cons, List.pairwise_cons]
      refine ⟨fun e he => ?_, h⟩
      rcases List.mem_cons.mp he with rfl | he
      · exact hlt
      · exact Nat.lt_trans hlt (h.1 e he)
    · rename_i hle
      rw [List.pairwise_cons]
      refine ⟨fun e he => ?_, ih h.2 (fun e he => hk e (by simp [he]))⟩
      rcases mem_tins he with rfl | he
      · simp only; omega
      · exact h.1 e he

/-- A write keeps the canonical form. -/
theorem twf_tset [DecidableEq α] (d : α) (t : Tbl α) (k : Nat) (v : α) (h : twf d t = true) : twf d (tset d t k v) = true := by
  have hd := twf_tdel d t k h
  unfold tset
  split
  · exact hd
  · rename_i hv
    rw [twf_iff] at hd ⊢
    refine ⟨pairwise_tins hd.1 mem_tdel_ne, fun e he => ?_⟩
    rcases mem_tins he with rfl | he
    · exact hv
    · exact hd.2 e he

/-- A list of writes keeps the canonical form. -/
theorem twf_tsetAll [DecidableEq α] (d : α) (t : Tbl α) (es : List (Nat × α)) (h : twf d t = true) : twf d (tsetAll d t es) = true := by
  induction es generalizing t with
  | nil => exact h
  | cons e es ih => exact ih (tset d t e.1 e.2) (twf_tset d t e.1 e.2 h)

theorem twf_tcopy [DecidableEq α] (d : α) (u t : Tbl α) (src lo n : Nat) (h : twf d t = true) : twf d (tcopy d u t src lo n) = true :=
  twf_tsetAll d _ _ (twf_tdrop d t lo (lo + n) h)

end Sys2Proof.Machine
end

