-- ==== Sys2Proof/Laws/State.lean ====
section
/-! SUPPORT. The parts of the state after each update: one lemma for each field and update, and what the updated part reads as.
An update changes the part it names and no other. -/

namespace Sys2Proof.Machine

open Sys2Proof


/-! ### setReg: the stored value of a register -/

@[simp] theorem State.setReg_pending (s : State) (a v : Nat) : (s.setReg a v).pending = s.pending := rfl
@[simp] theorem State.setReg_devTime (s : State) (a v : Nat) : (s.setReg a v).devTime = s.devTime := rfl
@[simp] theorem State.setReg_staged (s : State) (a v : Nat) : (s.setReg a v).staged = s.staged := rfl
@[simp] theorem State.setReg_dram (s : State) (a v : Nat) : (s.setReg a v).dram = s.dram := rfl
@[simp] theorem State.setReg_dramErr (s : State) (a v : Nat) : (s.setReg a v).dramErr = s.dramErr := rfl
@[simp] theorem State.setReg_dramMis (s : State) (a v : Nat) : (s.setReg a v).dramMis = s.dramMis := rfl
@[simp] theorem State.setReg_flash (s : State) (a v : Nat) : (s.setReg a v).flash = s.flash := rfl
@[simp] theorem State.setReg_regions (s : State) (a v : Nat) : (s.setReg a v).regions = s.regions := rfl
@[simp] theorem State.setReg_slotDef (s : State) (a v : Nat) : (s.setReg a v).slotDef = s.slotDef := rfl
@[simp] theorem State.setReg_panes (s : State) (a v : Nat) : (s.setReg a v).panes = s.panes := rfl
@[simp] theorem State.setReg_bays (s : State) (a v : Nat) : (s.setReg a v).bays = s.bays := rfl
@[simp] theorem State.setReg_ports (s : State) (a v : Nat) : (s.setReg a v).ports = s.ports := rfl
@[simp] theorem State.setReg_fin (s : State) (a v : Nat) : (s.setReg a v).fin = s.fin := rfl
@[simp] theorem State.setReg_syn (s : State) (a v : Nat) : (s.setReg a v).syn = s.syn := rfl
@[simp] theorem State.setReg_sigs (s : State) (a v : Nat) : (s.setReg a v).sigs = s.sigs := rfl
@[simp] theorem State.setReg_tasks (s : State) (a v : Nat) : (s.setReg a v).tasks = s.tasks := rfl
@[simp] theorem State.setReg_taskSeq (s : State) (a v : Nat) : (s.setReg a v).taskSeq = s.taskSeq := rfl
@[simp] theorem State.setReg_accs (s : State) (a v : Nat) : (s.setReg a v).accs = s.accs := rfl
@[simp] theorem State.setReg_accSeq (s : State) (a v : Nat) : (s.setReg a v).accSeq = s.accSeq := rfl
@[simp] theorem State.setReg_nonce (s : State) (a v : Nat) : (s.setReg a v).nonce = s.nonce := rfl
@[simp] theorem State.setReg_ctxReset (s : State) (a v : Nat) : (s.setReg a v).ctxReset = s.ctxReset := rfl
@[simp] theorem State.setReg_ctxDead (s : State) (a v : Nat) : (s.setReg a v).ctxDead = s.ctxDead := rfl
@[simp] theorem State.setReg_ctxResetQ (s : State) (a v : Nat) : (s.setReg a v).ctxResetQ = s.ctxResetQ := rfl
@[simp] theorem State.setReg_gx (s : State) (a v : Nat) : (s.setReg a v).gx = s.gx := rfl
@[simp] theorem State.setReg_rel (s : State) (a v : Nat) : (s.setReg a v).rel = s.rel := rfl
@[simp] theorem State.setReg_boot (s : State) (a v : Nat) : (s.setReg a v).boot = s.boot := rfl
@[simp] theorem State.setReg_sec (s : State) (a v : Nat) : (s.setReg a v).sec = s.sec := rfl
@[simp] theorem State.setReg_dbg (s : State) (a v : Nat) : (s.setReg a v).dbg = s.dbg := rfl
@[simp] theorem State.setReg_pwr (s : State) (a v : Nat) : (s.setReg a v).pwr = s.pwr := rfl
@[simp] theorem State.setReg_sup (s : State) (a v : Nat) : (s.setReg a v).sup = s.sup := rfl
@[simp] theorem State.setReg_mgmt (s : State) (a v : Nat) : (s.setReg a v).mgmt = s.mgmt := rfl

/-! ### incReg: a counter register -/

@[simp] theorem State.incReg_pending (s : State) (a n : Nat) : (s.incReg a n).pending = s.pending := rfl
@[simp] theorem State.incReg_devTime (s : State) (a n : Nat) : (s.incReg a n).devTime = s.devTime := rfl
@[simp] theorem State.incReg_staged (s : State) (a n : Nat) : (s.incReg a n).staged = s.staged := rfl
@[simp] theorem State.incReg_dram (s : State) (a n : Nat) : (s.incReg a n).dram = s.dram := rfl
@[simp] theorem State.incReg_dramErr (s : State) (a n : Nat) : (s.incReg a n).dramErr = s.dramErr := rfl
@[simp] theorem State.incReg_dramMis (s : State) (a n : Nat) : (s.incReg a n).dramMis = s.dramMis := rfl
@[simp] theorem State.incReg_flash (s : State) (a n : Nat) : (s.incReg a n).flash = s.flash := rfl
@[simp] theorem State.incReg_regions (s : State) (a n : Nat) : (s.incReg a n).regions = s.regions := rfl
@[simp] theorem State.incReg_slotDef (s : State) (a n : Nat) : (s.incReg a n).slotDef = s.slotDef := rfl
@[simp] theorem State.incReg_panes (s : State) (a n : Nat) : (s.incReg a n).panes = s.panes := rfl
@[simp] theorem State.incReg_bays (s : State) (a n : Nat) : (s.incReg a n).bays = s.bays := rfl
@[simp] theorem State.incReg_ports (s : State) (a n : Nat) : (s.incReg a n).ports = s.ports := rfl
@[simp] theorem State.incReg_fin (s : State) (a n : Nat) : (s.incReg a n).fin = s.fin := rfl
@[simp] theorem State.incReg_syn (s : State) (a n : Nat) : (s.incReg a n).syn = s.syn := rfl
@[simp] theorem State.incReg_sigs (s : State) (a n : Nat) : (s.incReg a n).sigs = s.sigs := rfl
@[simp] theorem State.incReg_tasks (s : State) (a n : Nat) : (s.incReg a n).tasks = s.tasks := rfl
@[simp] theorem State.incReg_taskSeq (s : State) (a n : Nat) : (s.incReg a n).taskSeq = s.taskSeq := rfl
@[simp] theorem State.incReg_accs (s : State) (a n : Nat) : (s.incReg a n).accs = s.accs := rfl
@[simp] theorem State.incReg_accSeq (s : State) (a n : Nat) : (s.incReg a n).accSeq = s.accSeq := rfl
@[simp] theorem State.incReg_nonce (s : State) (a n : Nat) : (s.incReg a n).nonce = s.nonce := rfl
@[simp] theorem State.incReg_ctxReset (s : State) (a n : Nat) : (s.incReg a n).ctxReset = s.ctxReset := rfl
@[simp] theorem State.incReg_ctxDead (s : State) (a n : Nat) : (s.incReg a n).ctxDead = s.ctxDead := rfl
@[simp] theorem State.incReg_ctxResetQ (s : State) (a n : Nat) : (s.incReg a n).ctxResetQ = s.ctxResetQ := rfl
@[simp] theorem State.incReg_gx (s : State) (a n : Nat) : (s.incReg a n).gx = s.gx := rfl
@[simp] theorem State.incReg_rel (s : State) (a n : Nat) : (s.incReg a n).rel = s.rel := rfl
@[simp] theorem State.incReg_boot (s : State) (a n : Nat) : (s.incReg a n).boot = s.boot := rfl
@[simp] theorem State.incReg_sec (s : State) (a n : Nat) : (s.incReg a n).sec = s.sec := rfl
@[simp] theorem State.incReg_dbg (s : State) (a n : Nat) : (s.incReg a n).dbg = s.dbg := rfl
@[simp] theorem State.incReg_pwr (s : State) (a n : Nat) : (s.incReg a n).pwr = s.pwr := rfl
@[simp] theorem State.incReg_sup (s : State) (a n : Nat) : (s.incReg a n).sup = s.sup := rfl
@[simp] theorem State.incReg_mgmt (s : State) (a n : Nat) : (s.incReg a n).mgmt = s.mgmt := rfl

/-! ### setField: a field of a register -/

@[simp] theorem State.setField_pending (s : State) (a hi lo v : Nat) : (s.setField a hi lo v).pending = s.pending := rfl
@[simp] theorem State.setField_devTime (s : State) (a hi lo v : Nat) : (s.setField a hi lo v).devTime = s.devTime := rfl
@[simp] theorem State.setField_staged (s : State) (a hi lo v : Nat) : (s.setField a hi lo v).staged = s.staged := rfl
@[simp] theorem State.setField_dram (s : State) (a hi lo v : Nat) : (s.setField a hi lo v).dram = s.dram := rfl
@[simp] theorem State.setField_dramErr (s : State) (a hi lo v : Nat) : (s.setField a hi lo v).dramErr = s.dramErr := rfl
@[simp] theorem State.setField_dramMis (s : State) (a hi lo v : Nat) : (s.setField a hi lo v).dramMis = s.dramMis := rfl
@[simp] theorem State.setField_flash (s : State) (a hi lo v : Nat) : (s.setField a hi lo v).flash = s.flash := rfl
@[simp] theorem State.setField_regions (s : State) (a hi lo v : Nat) : (s.setField a hi lo v).regions = s.regions := rfl
@[simp] theorem State.setField_slotDef (s : State) (a hi lo v : Nat) : (s.setField a hi lo v).slotDef = s.slotDef := rfl
@[simp] theorem State.setField_panes (s : State) (a hi lo v : Nat) : (s.setField a hi lo v).panes = s.panes := rfl
@[simp] theorem State.setField_bays (s : State) (a hi lo v : Nat) : (s.setField a hi lo v).bays = s.bays := rfl
@[simp] theorem State.setField_ports (s : State) (a hi lo v : Nat) : (s.setField a hi lo v).ports = s.ports := rfl
@[simp] theorem State.setField_fin (s : State) (a hi lo v : Nat) : (s.setField a hi lo v).fin = s.fin := rfl
@[simp] theorem State.setField_syn (s : State) (a hi lo v : Nat) : (s.setField a hi lo v).syn = s.syn := rfl
@[simp] theorem State.setField_sigs (s : State) (a hi lo v : Nat) : (s.setField a hi lo v).sigs = s.sigs := rfl
@[simp] theorem State.setField_tasks (s : State) (a hi lo v : Nat) : (s.setField a hi lo v).tasks = s.tasks := rfl
@[simp] theorem State.setField_taskSeq (s : State) (a hi lo v : Nat) : (s.setField a hi lo v).taskSeq = s.taskSeq := rfl
@[simp] theorem State.setField_accs (s : State) (a hi lo v : Nat) : (s.setField a hi lo v).accs = s.accs := rfl
@[simp] theorem State.setField_accSeq (s : State) (a hi lo v : Nat) : (s.setField a hi lo v).accSeq = s.accSeq := rfl
@[simp] theorem State.setField_nonce (s : State) (a hi lo v : Nat) : (s.setField a hi lo v).nonce = s.nonce := rfl
@[simp] theorem State.setField_ctxReset (s : State) (a hi lo v : Nat) : (s.setField a hi lo v).ctxReset = s.ctxReset := rfl
@[simp] theorem State.setField_ctxDead (s : State) (a hi lo v : Nat) : (s.setField a hi lo v).ctxDead = s.ctxDead := rfl
@[simp] theorem State.setField_ctxResetQ (s : State) (a hi lo v : Nat) : (s.setField a hi lo v).ctxResetQ = s.ctxResetQ := rfl
@[simp] theorem State.setField_gx (s : State) (a hi lo v : Nat) : (s.setField a hi lo v).gx = s.gx := rfl
@[simp] theorem State.setField_rel (s : State) (a hi lo v : Nat) : (s.setField a hi lo v).rel = s.rel := rfl
@[simp] theorem State.setField_boot (s : State) (a hi lo v : Nat) : (s.setField a hi lo v).boot = s.boot := rfl
@[simp] theorem State.setField_sec (s : State) (a hi lo v : Nat) : (s.setField a hi lo v).sec = s.sec := rfl
@[simp] theorem State.setField_dbg (s : State) (a hi lo v : Nat) : (s.setField a hi lo v).dbg = s.dbg := rfl
@[simp] theorem State.setField_pwr (s : State) (a hi lo v : Nat) : (s.setField a hi lo v).pwr = s.pwr := rfl
@[simp] theorem State.setField_sup (s : State) (a hi lo v : Nat) : (s.setField a hi lo v).sup = s.sup := rfl
@[simp] theorem State.setField_mgmt (s : State) (a hi lo v : Nat) : (s.setField a hi lo v).mgmt = s.mgmt := rfl

/-! ### setPane: a pane instance -/

@[simp] theorem State.setPane_pending (s : State) (i : Nat) (p : Pane) : (s.setPane i p).pending = s.pending := rfl
@[simp] theorem State.setPane_devTime (s : State) (i : Nat) (p : Pane) : (s.setPane i p).devTime = s.devTime := rfl
@[simp] theorem State.setPane_regs (s : State) (i : Nat) (p : Pane) : (s.setPane i p).regs = s.regs := rfl
@[simp] theorem State.setPane_staged (s : State) (i : Nat) (p : Pane) : (s.setPane i p).staged = s.staged := rfl
@[simp] theorem State.setPane_dram (s : State) (i : Nat) (p : Pane) : (s.setPane i p).dram = s.dram := rfl
@[simp] theorem State.setPane_dramErr (s : State) (i : Nat) (p : Pane) : (s.setPane i p).dramErr = s.dramErr := rfl
@[simp] theorem State.setPane_dramMis (s : State) (i : Nat) (p : Pane) : (s.setPane i p).dramMis = s.dramMis := rfl
@[simp] theorem State.setPane_flash (s : State) (i : Nat) (p : Pane) : (s.setPane i p).flash = s.flash := rfl
@[simp] theorem State.setPane_regions (s : State) (i : Nat) (p : Pane) : (s.setPane i p).regions = s.regions := rfl
@[simp] theorem State.setPane_slotDef (s : State) (i : Nat) (p : Pane) : (s.setPane i p).slotDef = s.slotDef := rfl
@[simp] theorem State.setPane_bays (s : State) (i : Nat) (p : Pane) : (s.setPane i p).bays = s.bays := rfl
@[simp] theorem State.setPane_ports (s : State) (i : Nat) (p : Pane) : (s.setPane i p).ports = s.ports := rfl
@[simp] theorem State.setPane_fin (s : State) (i : Nat) (p : Pane) : (s.setPane i p).fin = s.fin := rfl
@[simp] theorem State.setPane_syn (s : State) (i : Nat) (p : Pane) : (s.setPane i p).syn = s.syn := rfl
@[simp] theorem State.setPane_sigs (s : State) (i : Nat) (p : Pane) : (s.setPane i p).sigs = s.sigs := rfl
@[simp] theorem State.setPane_tasks (s : State) (i : Nat) (p : Pane) : (s.setPane i p).tasks = s.tasks := rfl
@[simp] theorem State.setPane_taskSeq (s : State) (i : Nat) (p : Pane) : (s.setPane i p).taskSeq = s.taskSeq := rfl
@[simp] theorem State.setPane_accs (s : State) (i : Nat) (p : Pane) : (s.setPane i p).accs = s.accs := rfl
@[simp] theorem State.setPane_accSeq (s : State) (i : Nat) (p : Pane) : (s.setPane i p).accSeq = s.accSeq := rfl
@[simp] theorem State.setPane_nonce (s : State) (i : Nat) (p : Pane) : (s.setPane i p).nonce = s.nonce := rfl
@[simp] theorem State.setPane_ctxReset (s : State) (i : Nat) (p : Pane) : (s.setPane i p).ctxReset = s.ctxReset := rfl
@[simp] theorem State.setPane_ctxDead (s : State) (i : Nat) (p : Pane) : (s.setPane i p).ctxDead = s.ctxDead := rfl
@[simp] theorem State.setPane_ctxResetQ (s : State) (i : Nat) (p : Pane) : (s.setPane i p).ctxResetQ = s.ctxResetQ := rfl
@[simp] theorem State.setPane_gx (s : State) (i : Nat) (p : Pane) : (s.setPane i p).gx = s.gx := rfl
@[simp] theorem State.setPane_rel (s : State) (i : Nat) (p : Pane) : (s.setPane i p).rel = s.rel := rfl
@[simp] theorem State.setPane_boot (s : State) (i : Nat) (p : Pane) : (s.setPane i p).boot = s.boot := rfl
@[simp] theorem State.setPane_sec (s : State) (i : Nat) (p : Pane) : (s.setPane i p).sec = s.sec := rfl
@[simp] theorem State.setPane_dbg (s : State) (i : Nat) (p : Pane) : (s.setPane i p).dbg = s.dbg := rfl
@[simp] theorem State.setPane_pwr (s : State) (i : Nat) (p : Pane) : (s.setPane i p).pwr = s.pwr := rfl
@[simp] theorem State.setPane_sup (s : State) (i : Nat) (p : Pane) : (s.setPane i p).sup = s.sup := rfl
@[simp] theorem State.setPane_mgmt (s : State) (i : Nat) (p : Pane) : (s.setPane i p).mgmt = s.mgmt := rfl

/-! ### modPane: a pane instance, by a function -/

@[simp] theorem State.modPane_pending (s : State) (i : Nat) (f : Pane → Pane) : (s.modPane i f).pending = s.pending := rfl
@[simp] theorem State.modPane_devTime (s : State) (i : Nat) (f : Pane → Pane) : (s.modPane i f).devTime = s.devTime := rfl
@[simp] theorem State.modPane_regs (s : State) (i : Nat) (f : Pane → Pane) : (s.modPane i f).regs = s.regs := rfl
@[simp] theorem State.modPane_staged (s : State) (i : Nat) (f : Pane → Pane) : (s.modPane i f).staged = s.staged := rfl
@[simp] theorem State.modPane_dram (s : State) (i : Nat) (f : Pane → Pane) : (s.modPane i f).dram = s.dram := rfl
@[simp] theorem State.modPane_dramErr (s : State) (i : Nat) (f : Pane → Pane) : (s.modPane i f).dramErr = s.dramErr := rfl
@[simp] theorem State.modPane_dramMis (s : State) (i : Nat) (f : Pane → Pane) : (s.modPane i f).dramMis = s.dramMis := rfl
@[simp] theorem State.modPane_flash (s : State) (i : Nat) (f : Pane → Pane) : (s.modPane i f).flash = s.flash := rfl
@[simp] theorem State.modPane_regions (s : State) (i : Nat) (f : Pane → Pane) : (s.modPane i f).regions = s.regions := rfl
@[simp] theorem State.modPane_slotDef (s : State) (i : Nat) (f : Pane → Pane) : (s.modPane i f).slotDef = s.slotDef := rfl
@[simp] theorem State.modPane_bays (s : State) (i : Nat) (f : Pane → Pane) : (s.modPane i f).bays = s.bays := rfl
@[simp] theorem State.modPane_ports (s : State) (i : Nat) (f : Pane → Pane) : (s.modPane i f).ports = s.ports := rfl
@[simp] theorem State.modPane_fin (s : State) (i : Nat) (f : Pane → Pane) : (s.modPane i f).fin = s.fin := rfl
@[simp] theorem State.modPane_syn (s : State) (i : Nat) (f : Pane → Pane) : (s.modPane i f).syn = s.syn := rfl
@[simp] theorem State.modPane_sigs (s : State) (i : Nat) (f : Pane → Pane) : (s.modPane i f).sigs = s.sigs := rfl
@[simp] theorem State.modPane_tasks (s : State) (i : Nat) (f : Pane → Pane) : (s.modPane i f).tasks = s.tasks := rfl
@[simp] theorem State.modPane_taskSeq (s : State) (i : Nat) (f : Pane → Pane) : (s.modPane i f).taskSeq = s.taskSeq := rfl
@[simp] theorem State.modPane_accs (s : State) (i : Nat) (f : Pane → Pane) : (s.modPane i f).accs = s.accs := rfl
@[simp] theorem State.modPane_accSeq (s : State) (i : Nat) (f : Pane → Pane) : (s.modPane i f).accSeq = s.accSeq := rfl
@[simp] theorem State.modPane_nonce (s : State) (i : Nat) (f : Pane → Pane) : (s.modPane i f).nonce = s.nonce := rfl
@[simp] theorem State.modPane_ctxReset (s : State) (i : Nat) (f : Pane → Pane) : (s.modPane i f).ctxReset = s.ctxReset := rfl
@[simp] theorem State.modPane_ctxDead (s : State) (i : Nat) (f : Pane → Pane) : (s.modPane i f).ctxDead = s.ctxDead := rfl
@[simp] theorem State.modPane_ctxResetQ (s : State) (i : Nat) (f : Pane → Pane) : (s.modPane i f).ctxResetQ = s.ctxResetQ := rfl
@[simp] theorem State.modPane_gx (s : State) (i : Nat) (f : Pane → Pane) : (s.modPane i f).gx = s.gx := rfl
@[simp] theorem State.modPane_rel (s : State) (i : Nat) (f : Pane → Pane) : (s.modPane i f).rel = s.rel := rfl
@[simp] theorem State.modPane_boot (s : State) (i : Nat) (f : Pane → Pane) : (s.modPane i f).boot = s.boot := rfl
@[simp] theorem State.modPane_sec (s : State) (i : Nat) (f : Pane → Pane) : (s.modPane i f).sec = s.sec := rfl
@[simp] theorem State.modPane_dbg (s : State) (i : Nat) (f : Pane → Pane) : (s.modPane i f).dbg = s.dbg := rfl
@[simp] theorem State.modPane_pwr (s : State) (i : Nat) (f : Pane → Pane) : (s.modPane i f).pwr = s.pwr := rfl
@[simp] theorem State.modPane_sup (s : State) (i : Nat) (f : Pane → Pane) : (s.modPane i f).sup = s.sup := rfl
@[simp] theorem State.modPane_mgmt (s : State) (i : Nat) (f : Pane → Pane) : (s.modPane i f).mgmt = s.mgmt := rfl

/-! ### setBay: a bay -/

@[simp] theorem State.setBay_pending (s : State) (b : Nat) (x : Bay) : (s.setBay b x).pending = s.pending := rfl
@[simp] theorem State.setBay_devTime (s : State) (b : Nat) (x : Bay) : (s.setBay b x).devTime = s.devTime := rfl
@[simp] theorem State.setBay_regs (s : State) (b : Nat) (x : Bay) : (s.setBay b x).regs = s.regs := rfl
@[simp] theorem State.setBay_staged (s : State) (b : Nat) (x : Bay) : (s.setBay b x).staged = s.staged := rfl
@[simp] theorem State.setBay_dram (s : State) (b : Nat) (x : Bay) : (s.setBay b x).dram = s.dram := rfl
@[simp] theorem State.setBay_dramErr (s : State) (b : Nat) (x : Bay) : (s.setBay b x).dramErr = s.dramErr := rfl
@[simp] theorem State.setBay_dramMis (s : State) (b : Nat) (x : Bay) : (s.setBay b x).dramMis = s.dramMis := rfl
@[simp] theorem State.setBay_flash (s : State) (b : Nat) (x : Bay) : (s.setBay b x).flash = s.flash := rfl
@[simp] theorem State.setBay_regions (s : State) (b : Nat) (x : Bay) : (s.setBay b x).regions = s.regions := rfl
@[simp] theorem State.setBay_slotDef (s : State) (b : Nat) (x : Bay) : (s.setBay b x).slotDef = s.slotDef := rfl
@[simp] theorem State.setBay_panes (s : State) (b : Nat) (x : Bay) : (s.setBay b x).panes = s.panes := rfl
@[simp] theorem State.setBay_ports (s : State) (b : Nat) (x : Bay) : (s.setBay b x).ports = s.ports := rfl
@[simp] theorem State.setBay_fin (s : State) (b : Nat) (x : Bay) : (s.setBay b x).fin = s.fin := rfl
@[simp] theorem State.setBay_syn (s : State) (b : Nat) (x : Bay) : (s.setBay b x).syn = s.syn := rfl
@[simp] theorem State.setBay_sigs (s : State) (b : Nat) (x : Bay) : (s.setBay b x).sigs = s.sigs := rfl
@[simp] theorem State.setBay_tasks (s : State) (b : Nat) (x : Bay) : (s.setBay b x).tasks = s.tasks := rfl
@[simp] theorem State.setBay_taskSeq (s : State) (b : Nat) (x : Bay) : (s.setBay b x).taskSeq = s.taskSeq := rfl
@[simp] theorem State.setBay_accs (s : State) (b : Nat) (x : Bay) : (s.setBay b x).accs = s.accs := rfl
@[simp] theorem State.setBay_accSeq (s : State) (b : Nat) (x : Bay) : (s.setBay b x).accSeq = s.accSeq := rfl
@[simp] theorem State.setBay_nonce (s : State) (b : Nat) (x : Bay) : (s.setBay b x).nonce = s.nonce := rfl
@[simp] theorem State.setBay_ctxReset (s : State) (b : Nat) (x : Bay) : (s.setBay b x).ctxReset = s.ctxReset := rfl
@[simp] theorem State.setBay_ctxDead (s : State) (b : Nat) (x : Bay) : (s.setBay b x).ctxDead = s.ctxDead := rfl
@[simp] theorem State.setBay_ctxResetQ (s : State) (b : Nat) (x : Bay) : (s.setBay b x).ctxResetQ = s.ctxResetQ := rfl
@[simp] theorem State.setBay_gx (s : State) (b : Nat) (x : Bay) : (s.setBay b x).gx = s.gx := rfl
@[simp] theorem State.setBay_rel (s : State) (b : Nat) (x : Bay) : (s.setBay b x).rel = s.rel := rfl
@[simp] theorem State.setBay_boot (s : State) (b : Nat) (x : Bay) : (s.setBay b x).boot = s.boot := rfl
@[simp] theorem State.setBay_sec (s : State) (b : Nat) (x : Bay) : (s.setBay b x).sec = s.sec := rfl
@[simp] theorem State.setBay_dbg (s : State) (b : Nat) (x : Bay) : (s.setBay b x).dbg = s.dbg := rfl
@[simp] theorem State.setBay_pwr (s : State) (b : Nat) (x : Bay) : (s.setBay b x).pwr = s.pwr := rfl
@[simp] theorem State.setBay_sup (s : State) (b : Nat) (x : Bay) : (s.setBay b x).sup = s.sup := rfl
@[simp] theorem State.setBay_mgmt (s : State) (b : Nat) (x : Bay) : (s.setBay b x).mgmt = s.mgmt := rfl

/-! ### modBay: a bay, by a function -/

@[simp] theorem State.modBay_pending (s : State) (b : Nat) (f : Bay → Bay) : (s.modBay b f).pending = s.pending := rfl
@[simp] theorem State.modBay_devTime (s : State) (b : Nat) (f : Bay → Bay) : (s.modBay b f).devTime = s.devTime := rfl
@[simp] theorem State.modBay_regs (s : State) (b : Nat) (f : Bay → Bay) : (s.modBay b f).regs = s.regs := rfl
@[simp] theorem State.modBay_staged (s : State) (b : Nat) (f : Bay → Bay) : (s.modBay b f).staged = s.staged := rfl
@[simp] theorem State.modBay_dram (s : State) (b : Nat) (f : Bay → Bay) : (s.modBay b f).dram = s.dram := rfl
@[simp] theorem State.modBay_dramErr (s : State) (b : Nat) (f : Bay → Bay) : (s.modBay b f).dramErr = s.dramErr := rfl
@[simp] theorem State.modBay_dramMis (s : State) (b : Nat) (f : Bay → Bay) : (s.modBay b f).dramMis = s.dramMis := rfl
@[simp] theorem State.modBay_flash (s : State) (b : Nat) (f : Bay → Bay) : (s.modBay b f).flash = s.flash := rfl
@[simp] theorem State.modBay_regions (s : State) (b : Nat) (f : Bay → Bay) : (s.modBay b f).regions = s.regions := rfl
@[simp] theorem State.modBay_slotDef (s : State) (b : Nat) (f : Bay → Bay) : (s.modBay b f).slotDef = s.slotDef := rfl
@[simp] theorem State.modBay_panes (s : State) (b : Nat) (f : Bay → Bay) : (s.modBay b f).panes = s.panes := rfl
@[simp] theorem State.modBay_ports (s : State) (b : Nat) (f : Bay → Bay) : (s.modBay b f).ports = s.ports := rfl
@[simp] theorem State.modBay_fin (s : State) (b : Nat) (f : Bay → Bay) : (s.modBay b f).fin = s.fin := rfl
@[simp] theorem State.modBay_syn (s : State) (b : Nat) (f : Bay → Bay) : (s.modBay b f).syn = s.syn := rfl
@[simp] theorem State.modBay_sigs (s : State) (b : Nat) (f : Bay → Bay) : (s.modBay b f).sigs = s.sigs := rfl
@[simp] theorem State.modBay_tasks (s : State) (b : Nat) (f : Bay → Bay) : (s.modBay b f).tasks = s.tasks := rfl
@[simp] theorem State.modBay_taskSeq (s : State) (b : Nat) (f : Bay → Bay) : (s.modBay b f).taskSeq = s.taskSeq := rfl
@[simp] theorem State.modBay_accs (s : State) (b : Nat) (f : Bay → Bay) : (s.modBay b f).accs = s.accs := rfl
@[simp] theorem State.modBay_accSeq (s : State) (b : Nat) (f : Bay → Bay) : (s.modBay b f).accSeq = s.accSeq := rfl
@[simp] theorem State.modBay_nonce (s : State) (b : Nat) (f : Bay → Bay) : (s.modBay b f).nonce = s.nonce := rfl
@[simp] theorem State.modBay_ctxReset (s : State) (b : Nat) (f : Bay → Bay) : (s.modBay b f).ctxReset = s.ctxReset := rfl
@[simp] theorem State.modBay_ctxDead (s : State) (b : Nat) (f : Bay → Bay) : (s.modBay b f).ctxDead = s.ctxDead := rfl
@[simp] theorem State.modBay_ctxResetQ (s : State) (b : Nat) (f : Bay → Bay) : (s.modBay b f).ctxResetQ = s.ctxResetQ := rfl
@[simp] theorem State.modBay_gx (s : State) (b : Nat) (f : Bay → Bay) : (s.modBay b f).gx = s.gx := rfl
@[simp] theorem State.modBay_rel (s : State) (b : Nat) (f : Bay → Bay) : (s.modBay b f).rel = s.rel := rfl
@[simp] theorem State.modBay_boot (s : State) (b : Nat) (f : Bay → Bay) : (s.modBay b f).boot = s.boot := rfl
@[simp] theorem State.modBay_sec (s : State) (b : Nat) (f : Bay → Bay) : (s.modBay b f).sec = s.sec := rfl
@[simp] theorem State.modBay_dbg (s : State) (b : Nat) (f : Bay → Bay) : (s.modBay b f).dbg = s.dbg := rfl
@[simp] theorem State.modBay_pwr (s : State) (b : Nat) (f : Bay → Bay) : (s.modBay b f).pwr = s.pwr := rfl
@[simp] theorem State.modBay_sup (s : State) (b : Nat) (f : Bay → Bay) : (s.modBay b f).sup = s.sup := rfl
@[simp] theorem State.modBay_mgmt (s : State) (b : Nat) (f : Bay → Bay) : (s.modBay b f).mgmt = s.mgmt := rfl

/-! ### modTe: the table engine of a bay -/

@[simp] theorem State.modTe_pending (s : State) (b : Nat) (f : Te → Te) : (s.modTe b f).pending = s.pending := rfl
@[simp] theorem State.modTe_devTime (s : State) (b : Nat) (f : Te → Te) : (s.modTe b f).devTime = s.devTime := rfl
@[simp] theorem State.modTe_regs (s : State) (b : Nat) (f : Te → Te) : (s.modTe b f).regs = s.regs := rfl
@[simp] theorem State.modTe_staged (s : State) (b : Nat) (f : Te → Te) : (s.modTe b f).staged = s.staged := rfl
@[simp] theorem State.modTe_dram (s : State) (b : Nat) (f : Te → Te) : (s.modTe b f).dram = s.dram := rfl
@[simp] theorem State.modTe_dramErr (s : State) (b : Nat) (f : Te → Te) : (s.modTe b f).dramErr = s.dramErr := rfl
@[simp] theorem State.modTe_dramMis (s : State) (b : Nat) (f : Te → Te) : (s.modTe b f).dramMis = s.dramMis := rfl
@[simp] theorem State.modTe_flash (s : State) (b : Nat) (f : Te → Te) : (s.modTe b f).flash = s.flash := rfl
@[simp] theorem State.modTe_regions (s : State) (b : Nat) (f : Te → Te) : (s.modTe b f).regions = s.regions := rfl
@[simp] theorem State.modTe_slotDef (s : State) (b : Nat) (f : Te → Te) : (s.modTe b f).slotDef = s.slotDef := rfl
@[simp] theorem State.modTe_panes (s : State) (b : Nat) (f : Te → Te) : (s.modTe b f).panes = s.panes := rfl
@[simp] theorem State.modTe_ports (s : State) (b : Nat) (f : Te → Te) : (s.modTe b f).ports = s.ports := rfl
@[simp] theorem State.modTe_fin (s : State) (b : Nat) (f : Te → Te) : (s.modTe b f).fin = s.fin := rfl
@[simp] theorem State.modTe_syn (s : State) (b : Nat) (f : Te → Te) : (s.modTe b f).syn = s.syn := rfl
@[simp] theorem State.modTe_sigs (s : State) (b : Nat) (f : Te → Te) : (s.modTe b f).sigs = s.sigs := rfl
@[simp] theorem State.modTe_tasks (s : State) (b : Nat) (f : Te → Te) : (s.modTe b f).tasks = s.tasks := rfl
@[simp] theorem State.modTe_taskSeq (s : State) (b : Nat) (f : Te → Te) : (s.modTe b f).taskSeq = s.taskSeq := rfl
@[simp] theorem State.modTe_accs (s : State) (b : Nat) (f : Te → Te) : (s.modTe b f).accs = s.accs := rfl
@[simp] theorem State.modTe_accSeq (s : State) (b : Nat) (f : Te → Te) : (s.modTe b f).accSeq = s.accSeq := rfl
@[simp] theorem State.modTe_nonce (s : State) (b : Nat) (f : Te → Te) : (s.modTe b f).nonce = s.nonce := rfl
@[simp] theorem State.modTe_ctxReset (s : State) (b : Nat) (f : Te → Te) : (s.modTe b f).ctxReset = s.ctxReset := rfl
@[simp] theorem State.modTe_ctxDead (s : State) (b : Nat) (f : Te → Te) : (s.modTe b f).ctxDead = s.ctxDead := rfl
@[simp] theorem State.modTe_ctxResetQ (s : State) (b : Nat) (f : Te → Te) : (s.modTe b f).ctxResetQ = s.ctxResetQ := rfl
@[simp] theorem State.modTe_gx (s : State) (b : Nat) (f : Te → Te) : (s.modTe b f).gx = s.gx := rfl
@[simp] theorem State.modTe_rel (s : State) (b : Nat) (f : Te → Te) : (s.modTe b f).rel = s.rel := rfl
@[simp] theorem State.modTe_boot (s : State) (b : Nat) (f : Te → Te) : (s.modTe b f).boot = s.boot := rfl
@[simp] theorem State.modTe_sec (s : State) (b : Nat) (f : Te → Te) : (s.modTe b f).sec = s.sec := rfl
@[simp] theorem State.modTe_dbg (s : State) (b : Nat) (f : Te → Te) : (s.modTe b f).dbg = s.dbg := rfl
@[simp] theorem State.modTe_pwr (s : State) (b : Nat) (f : Te → Te) : (s.modTe b f).pwr = s.pwr := rfl
@[simp] theorem State.modTe_sup (s : State) (b : Nat) (f : Te → Te) : (s.modTe b f).sup = s.sup := rfl
@[simp] theorem State.modTe_mgmt (s : State) (b : Nat) (f : Te → Te) : (s.modTe b f).mgmt = s.mgmt := rfl

/-! ### modXe: the exchange engine of a bay -/

@[simp] theorem State.modXe_pending (s : State) (b : Nat) (f : Xe → Xe) : (s.modXe b f).pending = s.pending := rfl
@[simp] theorem State.modXe_devTime (s : State) (b : Nat) (f : Xe → Xe) : (s.modXe b f).devTime = s.devTime := rfl
@[simp] theorem State.modXe_regs (s : State) (b : Nat) (f : Xe → Xe) : (s.modXe b f).regs = s.regs := rfl
@[simp] theorem State.modXe_staged (s : State) (b : Nat) (f : Xe → Xe) : (s.modXe b f).staged = s.staged := rfl
@[simp] theorem State.modXe_dram (s : State) (b : Nat) (f : Xe → Xe) : (s.modXe b f).dram = s.dram := rfl
@[simp] theorem State.modXe_dramErr (s : State) (b : Nat) (f : Xe → Xe) : (s.modXe b f).dramErr = s.dramErr := rfl
@[simp] theorem State.modXe_dramMis (s : State) (b : Nat) (f : Xe → Xe) : (s.modXe b f).dramMis = s.dramMis := rfl
@[simp] theorem State.modXe_flash (s : State) (b : Nat) (f : Xe → Xe) : (s.modXe b f).flash = s.flash := rfl
@[simp] theorem State.modXe_regions (s : State) (b : Nat) (f : Xe → Xe) : (s.modXe b f).regions = s.regions := rfl
@[simp] theorem State.modXe_slotDef (s : State) (b : Nat) (f : Xe → Xe) : (s.modXe b f).slotDef = s.slotDef := rfl
@[simp] theorem State.modXe_panes (s : State) (b : Nat) (f : Xe → Xe) : (s.modXe b f).panes = s.panes := rfl
@[simp] theorem State.modXe_ports (s : State) (b : Nat) (f : Xe → Xe) : (s.modXe b f).ports = s.ports := rfl
@[simp] theorem State.modXe_fin (s : State) (b : Nat) (f : Xe → Xe) : (s.modXe b f).fin = s.fin := rfl
@[simp] theorem State.modXe_syn (s : State) (b : Nat) (f : Xe → Xe) : (s.modXe b f).syn = s.syn := rfl
@[simp] theorem State.modXe_sigs (s : State) (b : Nat) (f : Xe → Xe) : (s.modXe b f).sigs = s.sigs := rfl
@[simp] theorem State.modXe_tasks (s : State) (b : Nat) (f : Xe → Xe) : (s.modXe b f).tasks = s.tasks := rfl
@[simp] theorem State.modXe_taskSeq (s : State) (b : Nat) (f : Xe → Xe) : (s.modXe b f).taskSeq = s.taskSeq := rfl
@[simp] theorem State.modXe_accs (s : State) (b : Nat) (f : Xe → Xe) : (s.modXe b f).accs = s.accs := rfl
@[simp] theorem State.modXe_accSeq (s : State) (b : Nat) (f : Xe → Xe) : (s.modXe b f).accSeq = s.accSeq := rfl
@[simp] theorem State.modXe_nonce (s : State) (b : Nat) (f : Xe → Xe) : (s.modXe b f).nonce = s.nonce := rfl
@[simp] theorem State.modXe_ctxReset (s : State) (b : Nat) (f : Xe → Xe) : (s.modXe b f).ctxReset = s.ctxReset := rfl
@[simp] theorem State.modXe_ctxDead (s : State) (b : Nat) (f : Xe → Xe) : (s.modXe b f).ctxDead = s.ctxDead := rfl
@[simp] theorem State.modXe_ctxResetQ (s : State) (b : Nat) (f : Xe → Xe) : (s.modXe b f).ctxResetQ = s.ctxResetQ := rfl
@[simp] theorem State.modXe_gx (s : State) (b : Nat) (f : Xe → Xe) : (s.modXe b f).gx = s.gx := rfl
@[simp] theorem State.modXe_rel (s : State) (b : Nat) (f : Xe → Xe) : (s.modXe b f).rel = s.rel := rfl
@[simp] theorem State.modXe_boot (s : State) (b : Nat) (f : Xe → Xe) : (s.modXe b f).boot = s.boot := rfl
@[simp] theorem State.modXe_sec (s : State) (b : Nat) (f : Xe → Xe) : (s.modXe b f).sec = s.sec := rfl
@[simp] theorem State.modXe_dbg (s : State) (b : Nat) (f : Xe → Xe) : (s.modXe b f).dbg = s.dbg := rfl
@[simp] theorem State.modXe_pwr (s : State) (b : Nat) (f : Xe → Xe) : (s.modXe b f).pwr = s.pwr := rfl
@[simp] theorem State.modXe_sup (s : State) (b : Nat) (f : Xe → Xe) : (s.modXe b f).sup = s.sup := rfl
@[simp] theorem State.modXe_mgmt (s : State) (b : Nat) (f : Xe → Xe) : (s.modXe b f).mgmt = s.mgmt := rfl

/-! ### modMem: the memory controller of a bay -/

@[simp] theorem State.modMem_pending (s : State) (b : Nat) (f : MemCtl → MemCtl) : (s.modMem b f).pending = s.pending := rfl
@[simp] theorem State.modMem_devTime (s : State) (b : Nat) (f : MemCtl → MemCtl) : (s.modMem b f).devTime = s.devTime := rfl
@[simp] theorem State.modMem_regs (s : State) (b : Nat) (f : MemCtl → MemCtl) : (s.modMem b f).regs = s.regs := rfl
@[simp] theorem State.modMem_staged (s : State) (b : Nat) (f : MemCtl → MemCtl) : (s.modMem b f).staged = s.staged := rfl
@[simp] theorem State.modMem_dram (s : State) (b : Nat) (f : MemCtl → MemCtl) : (s.modMem b f).dram = s.dram := rfl
@[simp] theorem State.modMem_dramErr (s : State) (b : Nat) (f : MemCtl → MemCtl) : (s.modMem b f).dramErr = s.dramErr := rfl
@[simp] theorem State.modMem_dramMis (s : State) (b : Nat) (f : MemCtl → MemCtl) : (s.modMem b f).dramMis = s.dramMis := rfl
@[simp] theorem State.modMem_flash (s : State) (b : Nat) (f : MemCtl → MemCtl) : (s.modMem b f).flash = s.flash := rfl
@[simp] theorem State.modMem_regions (s : State) (b : Nat) (f : MemCtl → MemCtl) : (s.modMem b f).regions = s.regions := rfl
@[simp] theorem State.modMem_slotDef (s : State) (b : Nat) (f : MemCtl → MemCtl) : (s.modMem b f).slotDef = s.slotDef := rfl
@[simp] theorem State.modMem_panes (s : State) (b : Nat) (f : MemCtl → MemCtl) : (s.modMem b f).panes = s.panes := rfl
@[simp] theorem State.modMem_ports (s : State) (b : Nat) (f : MemCtl → MemCtl) : (s.modMem b f).ports = s.ports := rfl
@[simp] theorem State.modMem_fin (s : State) (b : Nat) (f : MemCtl → MemCtl) : (s.modMem b f).fin = s.fin := rfl
@[simp] theorem State.modMem_syn (s : State) (b : Nat) (f : MemCtl → MemCtl) : (s.modMem b f).syn = s.syn := rfl
@[simp] theorem State.modMem_sigs (s : State) (b : Nat) (f : MemCtl → MemCtl) : (s.modMem b f).sigs = s.sigs := rfl
@[simp] theorem State.modMem_tasks (s : State) (b : Nat) (f : MemCtl → MemCtl) : (s.modMem b f).tasks = s.tasks := rfl
@[simp] theorem State.modMem_taskSeq (s : State) (b : Nat) (f : MemCtl → MemCtl) : (s.modMem b f).taskSeq = s.taskSeq := rfl
@[simp] theorem State.modMem_accs (s : State) (b : Nat) (f : MemCtl → MemCtl) : (s.modMem b f).accs = s.accs := rfl
@[simp] theorem State.modMem_accSeq (s : State) (b : Nat) (f : MemCtl → MemCtl) : (s.modMem b f).accSeq = s.accSeq := rfl
@[simp] theorem State.modMem_nonce (s : State) (b : Nat) (f : MemCtl → MemCtl) : (s.modMem b f).nonce = s.nonce := rfl
@[simp] theorem State.modMem_ctxReset (s : State) (b : Nat) (f : MemCtl → MemCtl) : (s.modMem b f).ctxReset = s.ctxReset := rfl
@[simp] theorem State.modMem_ctxDead (s : State) (b : Nat) (f : MemCtl → MemCtl) : (s.modMem b f).ctxDead = s.ctxDead := rfl
@[simp] theorem State.modMem_ctxResetQ (s : State) (b : Nat) (f : MemCtl → MemCtl) : (s.modMem b f).ctxResetQ = s.ctxResetQ := rfl
@[simp] theorem State.modMem_gx (s : State) (b : Nat) (f : MemCtl → MemCtl) : (s.modMem b f).gx = s.gx := rfl
@[simp] theorem State.modMem_rel (s : State) (b : Nat) (f : MemCtl → MemCtl) : (s.modMem b f).rel = s.rel := rfl
@[simp] theorem State.modMem_boot (s : State) (b : Nat) (f : MemCtl → MemCtl) : (s.modMem b f).boot = s.boot := rfl
@[simp] theorem State.modMem_sec (s : State) (b : Nat) (f : MemCtl → MemCtl) : (s.modMem b f).sec = s.sec := rfl
@[simp] theorem State.modMem_dbg (s : State) (b : Nat) (f : MemCtl → MemCtl) : (s.modMem b f).dbg = s.dbg := rfl
@[simp] theorem State.modMem_pwr (s : State) (b : Nat) (f : MemCtl → MemCtl) : (s.modMem b f).pwr = s.pwr := rfl
@[simp] theorem State.modMem_sup (s : State) (b : Nat) (f : MemCtl → MemCtl) : (s.modMem b f).sup = s.sup := rfl
@[simp] theorem State.modMem_mgmt (s : State) (b : Nat) (f : MemCtl → MemCtl) : (s.modMem b f).mgmt = s.mgmt := rfl

/-! ### modXlt: the translation unit of a bay -/

@[simp] theorem State.modXlt_pending (s : State) (b : Nat) (f : BayXlt → BayXlt) : (s.modXlt b f).pending = s.pending := rfl
@[simp] theorem State.modXlt_devTime (s : State) (b : Nat) (f : BayXlt → BayXlt) : (s.modXlt b f).devTime = s.devTime := rfl
@[simp] theorem State.modXlt_regs (s : State) (b : Nat) (f : BayXlt → BayXlt) : (s.modXlt b f).regs = s.regs := rfl
@[simp] theorem State.modXlt_staged (s : State) (b : Nat) (f : BayXlt → BayXlt) : (s.modXlt b f).staged = s.staged := rfl
@[simp] theorem State.modXlt_dram (s : State) (b : Nat) (f : BayXlt → BayXlt) : (s.modXlt b f).dram = s.dram := rfl
@[simp] theorem State.modXlt_dramErr (s : State) (b : Nat) (f : BayXlt → BayXlt) : (s.modXlt b f).dramErr = s.dramErr := rfl
@[simp] theorem State.modXlt_dramMis (s : State) (b : Nat) (f : BayXlt → BayXlt) : (s.modXlt b f).dramMis = s.dramMis := rfl
@[simp] theorem State.modXlt_flash (s : State) (b : Nat) (f : BayXlt → BayXlt) : (s.modXlt b f).flash = s.flash := rfl
@[simp] theorem State.modXlt_regions (s : State) (b : Nat) (f : BayXlt → BayXlt) : (s.modXlt b f).regions = s.regions := rfl
@[simp] theorem State.modXlt_slotDef (s : State) (b : Nat) (f : BayXlt → BayXlt) : (s.modXlt b f).slotDef = s.slotDef := rfl
@[simp] theorem State.modXlt_panes (s : State) (b : Nat) (f : BayXlt → BayXlt) : (s.modXlt b f).panes = s.panes := rfl
@[simp] theorem State.modXlt_ports (s : State) (b : Nat) (f : BayXlt → BayXlt) : (s.modXlt b f).ports = s.ports := rfl
@[simp] theorem State.modXlt_fin (s : State) (b : Nat) (f : BayXlt → BayXlt) : (s.modXlt b f).fin = s.fin := rfl
@[simp] theorem State.modXlt_syn (s : State) (b : Nat) (f : BayXlt → BayXlt) : (s.modXlt b f).syn = s.syn := rfl
@[simp] theorem State.modXlt_sigs (s : State) (b : Nat) (f : BayXlt → BayXlt) : (s.modXlt b f).sigs = s.sigs := rfl
@[simp] theorem State.modXlt_tasks (s : State) (b : Nat) (f : BayXlt → BayXlt) : (s.modXlt b f).tasks = s.tasks := rfl
@[simp] theorem State.modXlt_taskSeq (s : State) (b : Nat) (f : BayXlt → BayXlt) : (s.modXlt b f).taskSeq = s.taskSeq := rfl
@[simp] theorem State.modXlt_accs (s : State) (b : Nat) (f : BayXlt → BayXlt) : (s.modXlt b f).accs = s.accs := rfl
@[simp] theorem State.modXlt_accSeq (s : State) (b : Nat) (f : BayXlt → BayXlt) : (s.modXlt b f).accSeq = s.accSeq := rfl
@[simp] theorem State.modXlt_nonce (s : State) (b : Nat) (f : BayXlt → BayXlt) : (s.modXlt b f).nonce = s.nonce := rfl
@[simp] theorem State.modXlt_ctxReset (s : State) (b : Nat) (f : BayXlt → BayXlt) : (s.modXlt b f).ctxReset = s.ctxReset := rfl
@[simp] theorem State.modXlt_ctxDead (s : State) (b : Nat) (f : BayXlt → BayXlt) : (s.modXlt b f).ctxDead = s.ctxDead := rfl
@[simp] theorem State.modXlt_ctxResetQ (s : State) (b : Nat) (f : BayXlt → BayXlt) : (s.modXlt b f).ctxResetQ = s.ctxResetQ := rfl
@[simp] theorem State.modXlt_gx (s : State) (b : Nat) (f : BayXlt → BayXlt) : (s.modXlt b f).gx = s.gx := rfl
@[simp] theorem State.modXlt_rel (s : State) (b : Nat) (f : BayXlt → BayXlt) : (s.modXlt b f).rel = s.rel := rfl
@[simp] theorem State.modXlt_boot (s : State) (b : Nat) (f : BayXlt → BayXlt) : (s.modXlt b f).boot = s.boot := rfl
@[simp] theorem State.modXlt_sec (s : State) (b : Nat) (f : BayXlt → BayXlt) : (s.modXlt b f).sec = s.sec := rfl
@[simp] theorem State.modXlt_dbg (s : State) (b : Nat) (f : BayXlt → BayXlt) : (s.modXlt b f).dbg = s.dbg := rfl
@[simp] theorem State.modXlt_pwr (s : State) (b : Nat) (f : BayXlt → BayXlt) : (s.modXlt b f).pwr = s.pwr := rfl
@[simp] theorem State.modXlt_sup (s : State) (b : Nat) (f : BayXlt → BayXlt) : (s.modXlt b f).sup = s.sup := rfl
@[simp] theorem State.modXlt_mgmt (s : State) (b : Nat) (f : BayXlt → BayXlt) : (s.modXlt b f).mgmt = s.mgmt := rfl

/-! ### setPort: a port -/

@[simp] theorem State.setPort_pending (s : State) (p : Nat) (x : Port) : (s.setPort p x).pending = s.pending := rfl
@[simp] theorem State.setPort_devTime (s : State) (p : Nat) (x : Port) : (s.setPort p x).devTime = s.devTime := rfl
@[simp] theorem State.setPort_regs (s : State) (p : Nat) (x : Port) : (s.setPort p x).regs = s.regs := rfl
@[simp] theorem State.setPort_staged (s : State) (p : Nat) (x : Port) : (s.setPort p x).staged = s.staged := rfl
@[simp] theorem State.setPort_dram (s : State) (p : Nat) (x : Port) : (s.setPort p x).dram = s.dram := rfl
@[simp] theorem State.setPort_dramErr (s : State) (p : Nat) (x : Port) : (s.setPort p x).dramErr = s.dramErr := rfl
@[simp] theorem State.setPort_dramMis (s : State) (p : Nat) (x : Port) : (s.setPort p x).dramMis = s.dramMis := rfl
@[simp] theorem State.setPort_flash (s : State) (p : Nat) (x : Port) : (s.setPort p x).flash = s.flash := rfl
@[simp] theorem State.setPort_regions (s : State) (p : Nat) (x : Port) : (s.setPort p x).regions = s.regions := rfl
@[simp] theorem State.setPort_slotDef (s : State) (p : Nat) (x : Port) : (s.setPort p x).slotDef = s.slotDef := rfl
@[simp] theorem State.setPort_panes (s : State) (p : Nat) (x : Port) : (s.setPort p x).panes = s.panes := rfl
@[simp] theorem State.setPort_bays (s : State) (p : Nat) (x : Port) : (s.setPort p x).bays = s.bays := rfl
@[simp] theorem State.setPort_fin (s : State) (p : Nat) (x : Port) : (s.setPort p x).fin = s.fin := rfl
@[simp] theorem State.setPort_syn (s : State) (p : Nat) (x : Port) : (s.setPort p x).syn = s.syn := rfl
@[simp] theorem State.setPort_sigs (s : State) (p : Nat) (x : Port) : (s.setPort p x).sigs = s.sigs := rfl
@[simp] theorem State.setPort_tasks (s : State) (p : Nat) (x : Port) : (s.setPort p x).tasks = s.tasks := rfl
@[simp] theorem State.setPort_taskSeq (s : State) (p : Nat) (x : Port) : (s.setPort p x).taskSeq = s.taskSeq := rfl
@[simp] theorem State.setPort_accs (s : State) (p : Nat) (x : Port) : (s.setPort p x).accs = s.accs := rfl
@[simp] theorem State.setPort_accSeq (s : State) (p : Nat) (x : Port) : (s.setPort p x).accSeq = s.accSeq := rfl
@[simp] theorem State.setPort_nonce (s : State) (p : Nat) (x : Port) : (s.setPort p x).nonce = s.nonce := rfl
@[simp] theorem State.setPort_ctxReset (s : State) (p : Nat) (x : Port) : (s.setPort p x).ctxReset = s.ctxReset := rfl
@[simp] theorem State.setPort_ctxDead (s : State) (p : Nat) (x : Port) : (s.setPort p x).ctxDead = s.ctxDead := rfl
@[simp] theorem State.setPort_ctxResetQ (s : State) (p : Nat) (x : Port) : (s.setPort p x).ctxResetQ = s.ctxResetQ := rfl
@[simp] theorem State.setPort_gx (s : State) (p : Nat) (x : Port) : (s.setPort p x).gx = s.gx := rfl
@[simp] theorem State.setPort_rel (s : State) (p : Nat) (x : Port) : (s.setPort p x).rel = s.rel := rfl
@[simp] theorem State.setPort_boot (s : State) (p : Nat) (x : Port) : (s.setPort p x).boot = s.boot := rfl
@[simp] theorem State.setPort_sec (s : State) (p : Nat) (x : Port) : (s.setPort p x).sec = s.sec := rfl
@[simp] theorem State.setPort_dbg (s : State) (p : Nat) (x : Port) : (s.setPort p x).dbg = s.dbg := rfl
@[simp] theorem State.setPort_pwr (s : State) (p : Nat) (x : Port) : (s.setPort p x).pwr = s.pwr := rfl
@[simp] theorem State.setPort_sup (s : State) (p : Nat) (x : Port) : (s.setPort p x).sup = s.sup := rfl
@[simp] theorem State.setPort_mgmt (s : State) (p : Nat) (x : Port) : (s.setPort p x).mgmt = s.mgmt := rfl

/-! ### modPort: a port, by a function -/

@[simp] theorem State.modPort_pending (s : State) (p : Nat) (f : Port → Port) : (s.modPort p f).pending = s.pending := rfl
@[simp] theorem State.modPort_devTime (s : State) (p : Nat) (f : Port → Port) : (s.modPort p f).devTime = s.devTime := rfl
@[simp] theorem State.modPort_regs (s : State) (p : Nat) (f : Port → Port) : (s.modPort p f).regs = s.regs := rfl
@[simp] theorem State.modPort_staged (s : State) (p : Nat) (f : Port → Port) : (s.modPort p f).staged = s.staged := rfl
@[simp] theorem State.modPort_dram (s : State) (p : Nat) (f : Port → Port) : (s.modPort p f).dram = s.dram := rfl
@[simp] theorem State.modPort_dramErr (s : State) (p : Nat) (f : Port → Port) : (s.modPort p f).dramErr = s.dramErr := rfl
@[simp] theorem State.modPort_dramMis (s : State) (p : Nat) (f : Port → Port) : (s.modPort p f).dramMis = s.dramMis := rfl
@[simp] theorem State.modPort_flash (s : State) (p : Nat) (f : Port → Port) : (s.modPort p f).flash = s.flash := rfl
@[simp] theorem State.modPort_regions (s : State) (p : Nat) (f : Port → Port) : (s.modPort p f).regions = s.regions := rfl
@[simp] theorem State.modPort_slotDef (s : State) (p : Nat) (f : Port → Port) : (s.modPort p f).slotDef = s.slotDef := rfl
@[simp] theorem State.modPort_panes (s : State) (p : Nat) (f : Port → Port) : (s.modPort p f).panes = s.panes := rfl
@[simp] theorem State.modPort_bays (s : State) (p : Nat) (f : Port → Port) : (s.modPort p f).bays = s.bays := rfl
@[simp] theorem State.modPort_fin (s : State) (p : Nat) (f : Port → Port) : (s.modPort p f).fin = s.fin := rfl
@[simp] theorem State.modPort_syn (s : State) (p : Nat) (f : Port → Port) : (s.modPort p f).syn = s.syn := rfl
@[simp] theorem State.modPort_sigs (s : State) (p : Nat) (f : Port → Port) : (s.modPort p f).sigs = s.sigs := rfl
@[simp] theorem State.modPort_tasks (s : State) (p : Nat) (f : Port → Port) : (s.modPort p f).tasks = s.tasks := rfl
@[simp] theorem State.modPort_taskSeq (s : State) (p : Nat) (f : Port → Port) : (s.modPort p f).taskSeq = s.taskSeq := rfl
@[simp] theorem State.modPort_accs (s : State) (p : Nat) (f : Port → Port) : (s.modPort p f).accs = s.accs := rfl
@[simp] theorem State.modPort_accSeq (s : State) (p : Nat) (f : Port → Port) : (s.modPort p f).accSeq = s.accSeq := rfl
@[simp] theorem State.modPort_nonce (s : State) (p : Nat) (f : Port → Port) : (s.modPort p f).nonce = s.nonce := rfl
@[simp] theorem State.modPort_ctxReset (s : State) (p : Nat) (f : Port → Port) : (s.modPort p f).ctxReset = s.ctxReset := rfl
@[simp] theorem State.modPort_ctxDead (s : State) (p : Nat) (f : Port → Port) : (s.modPort p f).ctxDead = s.ctxDead := rfl
@[simp] theorem State.modPort_ctxResetQ (s : State) (p : Nat) (f : Port → Port) : (s.modPort p f).ctxResetQ = s.ctxResetQ := rfl
@[simp] theorem State.modPort_gx (s : State) (p : Nat) (f : Port → Port) : (s.modPort p f).gx = s.gx := rfl
@[simp] theorem State.modPort_rel (s : State) (p : Nat) (f : Port → Port) : (s.modPort p f).rel = s.rel := rfl
@[simp] theorem State.modPort_boot (s : State) (p : Nat) (f : Port → Port) : (s.modPort p f).boot = s.boot := rfl
@[simp] theorem State.modPort_sec (s : State) (p : Nat) (f : Port → Port) : (s.modPort p f).sec = s.sec := rfl
@[simp] theorem State.modPort_dbg (s : State) (p : Nat) (f : Port → Port) : (s.modPort p f).dbg = s.dbg := rfl
@[simp] theorem State.modPort_pwr (s : State) (p : Nat) (f : Port → Port) : (s.modPort p f).pwr = s.pwr := rfl
@[simp] theorem State.modPort_sup (s : State) (p : Nat) (f : Port → Port) : (s.modPort p f).sup = s.sup := rfl
@[simp] theorem State.modPort_mgmt (s : State) (p : Nat) (f : Port → Port) : (s.modPort p f).mgmt = s.mgmt := rfl

/-! ### setObj: a sync object -/

@[simp] theorem State.setObj_pending (s : State) (o : Nat) (x : SynObj) : (s.setObj o x).pending = s.pending := rfl
@[simp] theorem State.setObj_devTime (s : State) (o : Nat) (x : SynObj) : (s.setObj o x).devTime = s.devTime := rfl
@[simp] theorem State.setObj_regs (s : State) (o : Nat) (x : SynObj) : (s.setObj o x).regs = s.regs := rfl
@[simp] theorem State.setObj_staged (s : State) (o : Nat) (x : SynObj) : (s.setObj o x).staged = s.staged := rfl
@[simp] theorem State.setObj_dram (s : State) (o : Nat) (x : SynObj) : (s.setObj o x).dram = s.dram := rfl
@[simp] theorem State.setObj_dramErr (s : State) (o : Nat) (x : SynObj) : (s.setObj o x).dramErr = s.dramErr := rfl
@[simp] theorem State.setObj_dramMis (s : State) (o : Nat) (x : SynObj) : (s.setObj o x).dramMis = s.dramMis := rfl
@[simp] theorem State.setObj_flash (s : State) (o : Nat) (x : SynObj) : (s.setObj o x).flash = s.flash := rfl
@[simp] theorem State.setObj_regions (s : State) (o : Nat) (x : SynObj) : (s.setObj o x).regions = s.regions := rfl
@[simp] theorem State.setObj_slotDef (s : State) (o : Nat) (x : SynObj) : (s.setObj o x).slotDef = s.slotDef := rfl
@[simp] theorem State.setObj_panes (s : State) (o : Nat) (x : SynObj) : (s.setObj o x).panes = s.panes := rfl
@[simp] theorem State.setObj_bays (s : State) (o : Nat) (x : SynObj) : (s.setObj o x).bays = s.bays := rfl
@[simp] theorem State.setObj_ports (s : State) (o : Nat) (x : SynObj) : (s.setObj o x).ports = s.ports := rfl
@[simp] theorem State.setObj_fin (s : State) (o : Nat) (x : SynObj) : (s.setObj o x).fin = s.fin := rfl
@[simp] theorem State.setObj_sigs (s : State) (o : Nat) (x : SynObj) : (s.setObj o x).sigs = s.sigs := rfl
@[simp] theorem State.setObj_tasks (s : State) (o : Nat) (x : SynObj) : (s.setObj o x).tasks = s.tasks := rfl
@[simp] theorem State.setObj_taskSeq (s : State) (o : Nat) (x : SynObj) : (s.setObj o x).taskSeq = s.taskSeq := rfl
@[simp] theorem State.setObj_accs (s : State) (o : Nat) (x : SynObj) : (s.setObj o x).accs = s.accs := rfl
@[simp] theorem State.setObj_accSeq (s : State) (o : Nat) (x : SynObj) : (s.setObj o x).accSeq = s.accSeq := rfl
@[simp] theorem State.setObj_nonce (s : State) (o : Nat) (x : SynObj) : (s.setObj o x).nonce = s.nonce := rfl
@[simp] theorem State.setObj_ctxReset (s : State) (o : Nat) (x : SynObj) : (s.setObj o x).ctxReset = s.ctxReset := rfl
@[simp] theorem State.setObj_ctxDead (s : State) (o : Nat) (x : SynObj) : (s.setObj o x).ctxDead = s.ctxDead := rfl
@[simp] theorem State.setObj_ctxResetQ (s : State) (o : Nat) (x : SynObj) : (s.setObj o x).ctxResetQ = s.ctxResetQ := rfl
@[simp] theorem State.setObj_gx (s : State) (o : Nat) (x : SynObj) : (s.setObj o x).gx = s.gx := rfl
@[simp] theorem State.setObj_rel (s : State) (o : Nat) (x : SynObj) : (s.setObj o x).rel = s.rel := rfl
@[simp] theorem State.setObj_boot (s : State) (o : Nat) (x : SynObj) : (s.setObj o x).boot = s.boot := rfl
@[simp] theorem State.setObj_sec (s : State) (o : Nat) (x : SynObj) : (s.setObj o x).sec = s.sec := rfl
@[simp] theorem State.setObj_dbg (s : State) (o : Nat) (x : SynObj) : (s.setObj o x).dbg = s.dbg := rfl
@[simp] theorem State.setObj_pwr (s : State) (o : Nat) (x : SynObj) : (s.setObj o x).pwr = s.pwr := rfl
@[simp] theorem State.setObj_sup (s : State) (o : Nat) (x : SynObj) : (s.setObj o x).sup = s.sup := rfl
@[simp] theorem State.setObj_mgmt (s : State) (o : Nat) (x : SynObj) : (s.setObj o x).mgmt = s.mgmt := rfl

/-! ### modTask: a task -/

@[simp] theorem State.modTask_pending (s : State) (t : Nat) (f : Task → Task) : (s.modTask t f).pending = s.pending := rfl
@[simp] theorem State.modTask_devTime (s : State) (t : Nat) (f : Task → Task) : (s.modTask t f).devTime = s.devTime := rfl
@[simp] theorem State.modTask_regs (s : State) (t : Nat) (f : Task → Task) : (s.modTask t f).regs = s.regs := rfl
@[simp] theorem State.modTask_staged (s : State) (t : Nat) (f : Task → Task) : (s.modTask t f).staged = s.staged := rfl
@[simp] theorem State.modTask_dram (s : State) (t : Nat) (f : Task → Task) : (s.modTask t f).dram = s.dram := rfl
@[simp] theorem State.modTask_dramErr (s : State) (t : Nat) (f : Task → Task) : (s.modTask t f).dramErr = s.dramErr := rfl
@[simp] theorem State.modTask_dramMis (s : State) (t : Nat) (f : Task → Task) : (s.modTask t f).dramMis = s.dramMis := rfl
@[simp] theorem State.modTask_flash (s : State) (t : Nat) (f : Task → Task) : (s.modTask t f).flash = s.flash := rfl
@[simp] theorem State.modTask_regions (s : State) (t : Nat) (f : Task → Task) : (s.modTask t f).regions = s.regions := rfl
@[simp] theorem State.modTask_slotDef (s : State) (t : Nat) (f : Task → Task) : (s.modTask t f).slotDef = s.slotDef := rfl
@[simp] theorem State.modTask_panes (s : State) (t : Nat) (f : Task → Task) : (s.modTask t f).panes = s.panes := rfl
@[simp] theorem State.modTask_bays (s : State) (t : Nat) (f : Task → Task) : (s.modTask t f).bays = s.bays := rfl
@[simp] theorem State.modTask_ports (s : State) (t : Nat) (f : Task → Task) : (s.modTask t f).ports = s.ports := rfl
@[simp] theorem State.modTask_fin (s : State) (t : Nat) (f : Task → Task) : (s.modTask t f).fin = s.fin := rfl
@[simp] theorem State.modTask_syn (s : State) (t : Nat) (f : Task → Task) : (s.modTask t f).syn = s.syn := rfl
@[simp] theorem State.modTask_sigs (s : State) (t : Nat) (f : Task → Task) : (s.modTask t f).sigs = s.sigs := rfl
@[simp] theorem State.modTask_taskSeq (s : State) (t : Nat) (f : Task → Task) : (s.modTask t f).taskSeq = s.taskSeq := rfl
@[simp] theorem State.modTask_accs (s : State) (t : Nat) (f : Task → Task) : (s.modTask t f).accs = s.accs := rfl
@[simp] theorem State.modTask_accSeq (s : State) (t : Nat) (f : Task → Task) : (s.modTask t f).accSeq = s.accSeq := rfl
@[simp] theorem State.modTask_nonce (s : State) (t : Nat) (f : Task → Task) : (s.modTask t f).nonce = s.nonce := rfl
@[simp] theorem State.modTask_ctxReset (s : State) (t : Nat) (f : Task → Task) : (s.modTask t f).ctxReset = s.ctxReset := rfl
@[simp] theorem State.modTask_ctxDead (s : State) (t : Nat) (f : Task → Task) : (s.modTask t f).ctxDead = s.ctxDead := rfl
@[simp] theorem State.modTask_ctxResetQ (s : State) (t : Nat) (f : Task → Task) : (s.modTask t f).ctxResetQ = s.ctxResetQ := rfl
@[simp] theorem State.modTask_gx (s : State) (t : Nat) (f : Task → Task) : (s.modTask t f).gx = s.gx := rfl
@[simp] theorem State.modTask_rel (s : State) (t : Nat) (f : Task → Task) : (s.modTask t f).rel = s.rel := rfl
@[simp] theorem State.modTask_boot (s : State) (t : Nat) (f : Task → Task) : (s.modTask t f).boot = s.boot := rfl
@[simp] theorem State.modTask_sec (s : State) (t : Nat) (f : Task → Task) : (s.modTask t f).sec = s.sec := rfl
@[simp] theorem State.modTask_dbg (s : State) (t : Nat) (f : Task → Task) : (s.modTask t f).dbg = s.dbg := rfl
@[simp] theorem State.modTask_pwr (s : State) (t : Nat) (f : Task → Task) : (s.modTask t f).pwr = s.pwr := rfl
@[simp] theorem State.modTask_sup (s : State) (t : Nat) (f : Task → Task) : (s.modTask t f).sup = s.sup := rfl
@[simp] theorem State.modTask_mgmt (s : State) (t : Nat) (f : Task → Task) : (s.modTask t f).mgmt = s.mgmt := rfl

/-! ### setDom: a fault domain -/

@[simp] theorem State.setDom_pending (s : State) (k : Nat) (d : Dom) : (s.setDom k d).pending = s.pending := rfl
@[simp] theorem State.setDom_devTime (s : State) (k : Nat) (d : Dom) : (s.setDom k d).devTime = s.devTime := rfl
@[simp] theorem State.setDom_regs (s : State) (k : Nat) (d : Dom) : (s.setDom k d).regs = s.regs := rfl
@[simp] theorem State.setDom_staged (s : State) (k : Nat) (d : Dom) : (s.setDom k d).staged = s.staged := rfl
@[simp] theorem State.setDom_dram (s : State) (k : Nat) (d : Dom) : (s.setDom k d).dram = s.dram := rfl
@[simp] theorem State.setDom_dramErr (s : State) (k : Nat) (d : Dom) : (s.setDom k d).dramErr = s.dramErr := rfl
@[simp] theorem State.setDom_dramMis (s : State) (k : Nat) (d : Dom) : (s.setDom k d).dramMis = s.dramMis := rfl
@[simp] theorem State.setDom_flash (s : State) (k : Nat) (d : Dom) : (s.setDom k d).flash = s.flash := rfl
@[simp] theorem State.setDom_regions (s : State) (k : Nat) (d : Dom) : (s.setDom k d).regions = s.regions := rfl
@[simp] theorem State.setDom_slotDef (s : State) (k : Nat) (d : Dom) : (s.setDom k d).slotDef = s.slotDef := rfl
@[simp] theorem State.setDom_panes (s : State) (k : Nat) (d : Dom) : (s.setDom k d).panes = s.panes := rfl
@[simp] theorem State.setDom_bays (s : State) (k : Nat) (d : Dom) : (s.setDom k d).bays = s.bays := rfl
@[simp] theorem State.setDom_ports (s : State) (k : Nat) (d : Dom) : (s.setDom k d).ports = s.ports := rfl
@[simp] theorem State.setDom_fin (s : State) (k : Nat) (d : Dom) : (s.setDom k d).fin = s.fin := rfl
@[simp] theorem State.setDom_syn (s : State) (k : Nat) (d : Dom) : (s.setDom k d).syn = s.syn := rfl
@[simp] theorem State.setDom_sigs (s : State) (k : Nat) (d : Dom) : (s.setDom k d).sigs = s.sigs := rfl
@[simp] theorem State.setDom_tasks (s : State) (k : Nat) (d : Dom) : (s.setDom k d).tasks = s.tasks := rfl
@[simp] theorem State.setDom_taskSeq (s : State) (k : Nat) (d : Dom) : (s.setDom k d).taskSeq = s.taskSeq := rfl
@[simp] theorem State.setDom_accs (s : State) (k : Nat) (d : Dom) : (s.setDom k d).accs = s.accs := rfl
@[simp] theorem State.setDom_accSeq (s : State) (k : Nat) (d : Dom) : (s.setDom k d).accSeq = s.accSeq := rfl
@[simp] theorem State.setDom_nonce (s : State) (k : Nat) (d : Dom) : (s.setDom k d).nonce = s.nonce := rfl
@[simp] theorem State.setDom_ctxReset (s : State) (k : Nat) (d : Dom) : (s.setDom k d).ctxReset = s.ctxReset := rfl
@[simp] theorem State.setDom_ctxDead (s : State) (k : Nat) (d : Dom) : (s.setDom k d).ctxDead = s.ctxDead := rfl
@[simp] theorem State.setDom_ctxResetQ (s : State) (k : Nat) (d : Dom) : (s.setDom k d).ctxResetQ = s.ctxResetQ := rfl
@[simp] theorem State.setDom_gx (s : State) (k : Nat) (d : Dom) : (s.setDom k d).gx = s.gx := rfl
@[simp] theorem State.setDom_boot (s : State) (k : Nat) (d : Dom) : (s.setDom k d).boot = s.boot := rfl
@[simp] theorem State.setDom_sec (s : State) (k : Nat) (d : Dom) : (s.setDom k d).sec = s.sec := rfl
@[simp] theorem State.setDom_dbg (s : State) (k : Nat) (d : Dom) : (s.setDom k d).dbg = s.dbg := rfl
@[simp] theorem State.setDom_pwr (s : State) (k : Nat) (d : Dom) : (s.setDom k d).pwr = s.pwr := rfl
@[simp] theorem State.setDom_sup (s : State) (k : Nat) (d : Dom) : (s.setDom k d).sup = s.sup := rfl
@[simp] theorem State.setDom_mgmt (s : State) (k : Nat) (d : Dom) : (s.setDom k d).mgmt = s.mgmt := rfl

/-! ### readOut: the data of a read -/

@[simp] theorem State.readOut_pending (s : State) (v : Nat) : (s.readOut v).pending = s.pending := rfl
@[simp] theorem State.readOut_devTime (s : State) (v : Nat) : (s.readOut v).devTime = s.devTime := rfl
@[simp] theorem State.readOut_regs (s : State) (v : Nat) : (s.readOut v).regs = s.regs := rfl
@[simp] theorem State.readOut_staged (s : State) (v : Nat) : (s.readOut v).staged = s.staged := rfl
@[simp] theorem State.readOut_dram (s : State) (v : Nat) : (s.readOut v).dram = s.dram := rfl
@[simp] theorem State.readOut_dramErr (s : State) (v : Nat) : (s.readOut v).dramErr = s.dramErr := rfl
@[simp] theorem State.readOut_dramMis (s : State) (v : Nat) : (s.readOut v).dramMis = s.dramMis := rfl
@[simp] theorem State.readOut_flash (s : State) (v : Nat) : (s.readOut v).flash = s.flash := rfl
@[simp] theorem State.readOut_regions (s : State) (v : Nat) : (s.readOut v).regions = s.regions := rfl
@[simp] theorem State.readOut_slotDef (s : State) (v : Nat) : (s.readOut v).slotDef = s.slotDef := rfl
@[simp] theorem State.readOut_panes (s : State) (v : Nat) : (s.readOut v).panes = s.panes := rfl
@[simp] theorem State.readOut_bays (s : State) (v : Nat) : (s.readOut v).bays = s.bays := rfl
@[simp] theorem State.readOut_ports (s : State) (v : Nat) : (s.readOut v).ports = s.ports := rfl
@[simp] theorem State.readOut_fin (s : State) (v : Nat) : (s.readOut v).fin = s.fin := rfl
@[simp] theorem State.readOut_syn (s : State) (v : Nat) : (s.readOut v).syn = s.syn := rfl
@[simp] theorem State.readOut_sigs (s : State) (v : Nat) : (s.readOut v).sigs = s.sigs := rfl
@[simp] theorem State.readOut_tasks (s : State) (v : Nat) : (s.readOut v).tasks = s.tasks := rfl
@[simp] theorem State.readOut_taskSeq (s : State) (v : Nat) : (s.readOut v).taskSeq = s.taskSeq := rfl
@[simp] theorem State.readOut_accs (s : State) (v : Nat) : (s.readOut v).accs = s.accs := rfl
@[simp] theorem State.readOut_accSeq (s : State) (v : Nat) : (s.readOut v).accSeq = s.accSeq := rfl
@[simp] theorem State.readOut_nonce (s : State) (v : Nat) : (s.readOut v).nonce = s.nonce := rfl
@[simp] theorem State.readOut_ctxReset (s : State) (v : Nat) : (s.readOut v).ctxReset = s.ctxReset := rfl
@[simp] theorem State.readOut_ctxDead (s : State) (v : Nat) : (s.readOut v).ctxDead = s.ctxDead := rfl
@[simp] theorem State.readOut_ctxResetQ (s : State) (v : Nat) : (s.readOut v).ctxResetQ = s.ctxResetQ := rfl
@[simp] theorem State.readOut_gx (s : State) (v : Nat) : (s.readOut v).gx = s.gx := rfl
@[simp] theorem State.readOut_rel (s : State) (v : Nat) : (s.readOut v).rel = s.rel := rfl
@[simp] theorem State.readOut_boot (s : State) (v : Nat) : (s.readOut v).boot = s.boot := rfl
@[simp] theorem State.readOut_sec (s : State) (v : Nat) : (s.readOut v).sec = s.sec := rfl
@[simp] theorem State.readOut_dbg (s : State) (v : Nat) : (s.readOut v).dbg = s.dbg := rfl
@[simp] theorem State.readOut_pwr (s : State) (v : Nat) : (s.readOut v).pwr = s.pwr := rfl
@[simp] theorem State.readOut_sup (s : State) (v : Nat) : (s.readOut v).sup = s.sup := rfl

/-! ### keepStraps: the queue and the straps of the state before -/

@[simp] theorem keepStraps_pending (s t : State) : (keepStraps s t).pending = s.pending := rfl
@[simp] theorem keepStraps_devTime (s t : State) : (keepStraps s t).devTime = t.devTime := rfl
@[simp] theorem keepStraps_regs (s t : State) : (keepStraps s t).regs = t.regs := rfl
@[simp] theorem keepStraps_staged (s t : State) : (keepStraps s t).staged = t.staged := rfl
@[simp] theorem keepStraps_dram (s t : State) : (keepStraps s t).dram = t.dram := rfl
@[simp] theorem keepStraps_dramErr (s t : State) : (keepStraps s t).dramErr = t.dramErr := rfl
@[simp] theorem keepStraps_dramMis (s t : State) : (keepStraps s t).dramMis = t.dramMis := rfl
@[simp] theorem keepStraps_flash (s t : State) : (keepStraps s t).flash = t.flash := rfl
@[simp] theorem keepStraps_regions (s t : State) : (keepStraps s t).regions = t.regions := rfl
@[simp] theorem keepStraps_slotDef (s t : State) : (keepStraps s t).slotDef = t.slotDef := rfl
@[simp] theorem keepStraps_panes (s t : State) : (keepStraps s t).panes = t.panes := rfl
@[simp] theorem keepStraps_bays (s t : State) : (keepStraps s t).bays = t.bays := rfl
@[simp] theorem keepStraps_ports (s t : State) : (keepStraps s t).ports = t.ports := rfl
@[simp] theorem keepStraps_fin (s t : State) : (keepStraps s t).fin = t.fin := rfl
@[simp] theorem keepStraps_syn (s t : State) : (keepStraps s t).syn = t.syn := rfl
@[simp] theorem keepStraps_sigs (s t : State) : (keepStraps s t).sigs = t.sigs := rfl
@[simp] theorem keepStraps_tasks (s t : State) : (keepStraps s t).tasks = t.tasks := rfl
@[simp] theorem keepStraps_taskSeq (s t : State) : (keepStraps s t).taskSeq = t.taskSeq := rfl
@[simp] theorem keepStraps_accs (s t : State) : (keepStraps s t).accs = t.accs := rfl
@[simp] theorem keepStraps_accSeq (s t : State) : (keepStraps s t).accSeq = t.accSeq := rfl
@[simp] theorem keepStraps_nonce (s t : State) : (keepStraps s t).nonce = t.nonce := rfl
@[simp] theorem keepStraps_ctxReset (s t : State) : (keepStraps s t).ctxReset = t.ctxReset := rfl
@[simp] theorem keepStraps_ctxDead (s t : State) : (keepStraps s t).ctxDead = t.ctxDead := rfl
@[simp] theorem keepStraps_ctxResetQ (s t : State) : (keepStraps s t).ctxResetQ = t.ctxResetQ := rfl
@[simp] theorem keepStraps_gx (s t : State) : (keepStraps s t).gx = t.gx := rfl
@[simp] theorem keepStraps_rel (s t : State) : (keepStraps s t).rel = t.rel := rfl
@[simp] theorem keepStraps_boot (s t : State) : (keepStraps s t).boot = t.boot := rfl
@[simp] theorem keepStraps_sec (s t : State) : (keepStraps s t).sec = t.sec := rfl
@[simp] theorem keepStraps_dbg (s t : State) : (keepStraps s t).dbg = t.dbg := rfl
@[simp] theorem keepStraps_pwr (s t : State) : (keepStraps s t).pwr = t.pwr := rfl
@[simp] theorem keepStraps_sup_chip (s t : State) : (keepStraps s t).sup.chip = s.sup.chip := rfl
@[simp] theorem keepStraps_sup_smba (s t : State) : (keepStraps s t).sup.smba = s.sup.smba := rfl
@[simp] theorem keepStraps_sup_recoverN (s t : State) : (keepStraps s t).sup.recoverN = s.sup.recoverN := rfl
@[simp] theorem keepStraps_mgmt (s t : State) : (keepStraps s t).mgmt = t.mgmt := rfl

/-! ### What the updated part reads as -/

@[simp] theorem State.setPane_pane (s : State) (i : Nat) (p : Pane) : (s.setPane i p).pane i = p := tget_tset_self _ _ _ _
@[simp] theorem State.modPane_pane (s : State) (i : Nat) (f : Pane → Pane) : (s.modPane i f).pane i = f (s.pane i) := tget_tset_self _ _ _ _
theorem State.setPane_pane_ne (s : State) (i j : Nat) (p : Pane) (h : j ≠ i) : (s.setPane i p).pane j = s.pane j :=
  tget_tset_ne _ _ _ _ _ _ h
theorem State.modPane_pane_ne (s : State) (i j : Nat) (f : Pane → Pane) (h : j ≠ i) : (s.modPane i f).pane j = s.pane j :=
  State.setPane_pane_ne s i j _ h
@[simp] theorem State.setBay_bay (s : State) (b : Nat) (x : Bay) : (s.setBay b x).bay b = x := tget_tset_self _ _ _ _
@[simp] theorem State.modBay_bay (s : State) (b : Nat) (f : Bay → Bay) : (s.modBay b f).bay b = f (s.bay b) := tget_tset_self _ _ _ _
theorem State.setBay_bay_ne (s : State) (b j : Nat) (x : Bay) (h : j ≠ b) : (s.setBay b x).bay j = s.bay j := tget_tset_ne _ _ _ _ _ _ h
theorem State.modBay_bay_ne (s : State) (b j : Nat) (f : Bay → Bay) (h : j ≠ b) : (s.modBay b f).bay j = s.bay j :=
  State.setBay_bay_ne s b j _ h
@[simp] theorem State.setPort_port (s : State) (p : Nat) (x : Port) : (s.setPort p x).port p = x := tget_tset_self _ _ _ _
@[simp] theorem State.modPort_port (s : State) (p : Nat) (f : Port → Port) : (s.modPort p f).port p = f (s.port p) := tget_tset_self _ _ _ _
theorem State.setPort_port_ne (s : State) (p j : Nat) (x : Port) (h : j ≠ p) : (s.setPort p x).port j = s.port j := tget_tset_ne _ _ _ _ _ _ h
theorem State.modPort_port_ne (s : State) (p j : Nat) (f : Port → Port) (h : j ≠ p) : (s.modPort p f).port j = s.port j :=
  State.setPort_port_ne s p j _ h
@[simp] theorem State.setObj_obj (s : State) (o : Nat) (x : SynObj) : (s.setObj o x).obj o = x := tget_tset_self _ _ _ _
theorem State.setObj_obj_ne (s : State) (o j : Nat) (x : SynObj) (h : j ≠ o) : (s.setObj o x).obj j = s.obj j := tget_tset_ne _ _ _ _ _ _ h
@[simp] theorem State.setReg_reg (s : State) (a v : Nat) : (s.setReg a v).reg a = BitVec.ofNat 32 v := tget_tset_self _ _ _ _
theorem State.setReg_reg_ne (s : State) (a j v : Nat) (h : j ≠ a) : (s.setReg a v).reg j = s.reg j := tget_tset_ne _ _ _ _ _ _ h
@[simp] theorem State.setReg_regN (s : State) (a v : Nat) : (s.setReg a v).regN a = v % 2 ^ 32 := by simp [State.regN]
theorem State.setReg_regN_ne (s : State) (a j v : Nat) (h : j ≠ a) : (s.setReg a v).regN j = s.regN j := by
  unfold State.regN; rw [State.setReg_reg_ne s a j v h]
/-- A stored register fits 32 bits. -/
theorem State.regN_lt (s : State) (a : Nat) : s.regN a < 2 ^ 32 := (s.reg a).isLt
/-- The same change of a port by two functions that agree on it. -/
theorem State.modPort_congr (s : State) (p : Nat) (f g : Port → Port) (h : f (s.port p) = g (s.port p)) : s.modPort p f = s.modPort p g := by
  unfold State.modPort; rw [h]

end Sys2Proof.Machine
end

