-- ==== Sys2Proof/Laws/Exec.lean ====
section
/-! SUPPORT. What a command's outcome can be, said once for all of them: the shape of `exec`, and `answer` under each of its
conditions. -/

namespace Sys2Proof.Machine

open Sys2Proof

/-! ### answer -/

/-- With good operands and outside P5 a command has its effect, the queue and the straps kept. -/
theorem answer_on {s t : State} (h : s.pwr.st ≠ 5) : answer s true t = .next (keepStraps s t) := by simp [answer, h]

/-- In P5 a command with good operands changes nothing. -/
theorem answer_off {s t : State} (h : s.pwr.st = 5) : answer s true t = .next s := by simp [answer, h]

/-- The three outcomes of `answer`. -/
theorem answer_cases (s : State) (ok : Bool) (t : State) :
    ok = false ∧ answer s ok t = .fault .noSuchInstance ∨ ok = true ∧ s.pwr.st = 5 ∧ answer s ok t = .next s ∨
      ok = true ∧ s.pwr.st ≠ 5 ∧ answer s ok t = .next (keepStraps s t) := by
  cases ok
  · exact .inl ⟨rfl, rfl⟩
  · by_cases h : s.pwr.st = 5
    · exact .inr (.inl ⟨rfl, h, answer_off h⟩)
    · exact .inr (.inr ⟨rfl, h, answer_on h⟩)

/-- A register that answers is not in P5. -/
theorem on_of_open {s : State} {a : Nat} (h : regOpen s a = true) : s.pwr.st ≠ 5 := by
  unfold regOpen at h
  intro h5
  simp [h5] at h

/-- A register write that is served has its effect. -/
theorem answer_open {s t : State} {a : Nat} (h : regOpen s a = true) : answer s true (whenOpen s a t) = .next (keepStraps s t) := by
  rw [answer_on (on_of_open h)]
  simp [whenOpen, h]

theorem okBay_of_lt {b : Nat} (h : b < 16) : okBay b = true := by simp [okBay, h]
theorem okPane_of_lt {i : Nat} (h : i < 144) : okPane i = true := by simp [okPane, h]
theorem okPort_of_lt {p : Nat} (h : p < 34) : okPort p = true := by simp [okPort, h]
theorem okPath_of_range {p : Nat} (h1 : 1 ≤ p) (h3 : p ≤ 3) : okPath p = true := by simp [okPath, h1, h3]

/-! ### exec -/

/-- Every command answers through `answer`, but for the events of the supply die and the two that sample the straps. -/
theorem exec_form (c : Instr) (s : State) :
    (∃ ok t, exec c s = answer s ok t) ∨ (supplyEvent c = true ∧ ∃ t, exec c s = answerSupply s t) ∨
      (∃ a b d, c = .powerUp a b d) ∨ (∃ a b d, c = .pinReset a b d) := by
  cases c <;> first
    | exact .inr (.inr (.inl ⟨_, _, _, rfl⟩))
    | exact .inr (.inr (.inr ⟨_, _, _, rfl⟩))
    | exact .inr (.inl ⟨rfl, _, rfl⟩)
    | exact .inl ⟨_, _, rfl⟩
    | exact .inl ⟨true, _, rfl⟩

/-! ### Accesses over a path (R544) -/

/-- A write that no reason refuses, and that no commit holds, has its effect and is answered with reason 0. -/
theorem rowAccess_write {s : State} {path a v : Nat} (h5 : s.pwr.st ≠ 5) (h3 : s.rel.upd ≠ 3) (hb : pathBusy s path = false)
    (hr : accessReason s path a true = 0) (hf : resolve s a ≠ Reg.DBG_FDATA)
    (hl : (writeEffect s path (resolve s a) v).mgmt.held.length ≤ s.mgmt.held.length) :
    rowAccess s path a v true = noteAnswer (writeEffect s path (resolve s a) v) path 0 0 := by
  unfold rowAccess
  rw [if_neg (by simp [h3])]
  unfold pathAccess
  rw [if_neg (by simp [h5, hb]), if_neg h3, if_pos rfl]
  unfold pathWrite serveWrite
  simp only [hr, ne_eq, not_true, if_false, hf, not_lt.mpr hl]

/-- A read that no reason refuses, and that waits for no snoop, is answered with what the register delivers. -/
theorem rowAccess_read {s t : State} {path a v : Nat} (h5 : s.pwr.st ≠ 5) (h3 : s.rel.upd ≠ 3) (hb : pathBusy s path = false)
    (hr : accessReason s path a false = 0) (he : readEffect s path (resolve s a) = (some v, t)) :
    rowAccess s path a 0 false = (noteAnswer t path 0 v).readOut v := by
  unfold rowAccess
  rw [if_neg (by simp [h3])]
  unfold pathAccess
  rw [if_neg (by simp [h5, hb]), if_neg h3]
  simp only [Bool.false_eq_true, if_false]
  unfold pathRead serveRead
  simp only [hr, ne_eq, not_true, if_false, he]

/-- Addresses below the alias range name their register. -/
theorem resolve_low (s : State) (a : Nat) (h : a < 0x04000000) : resolve s a = a := by
  unfold resolve isAlias
  rw [if_neg (by simp; omega)]

end Sys2Proof.Machine
end

