-- ==== Sys2Proof/Laws/Mc.lean ====
section
/-! SUPPORT. Running an operation of `Mc`: one lemma for each way of building one. -/

namespace Sys2Proof.Machine

variable {α β : Type}

@[simp] theorem runMc_pure (a : α) (s : State) : runMc (pure a : Mc α) s = (.ok a, s) := rfl
@[simp] theorem runMc_throw (e : Stop) (s : State) : runMc (throw e : Mc α) s = (.error e, s) := rfl
@[simp] theorem runMc_get (s : State) : runMc (get : Mc State) s = (.ok s, s) := rfl
@[simp] theorem runMc_set (t s : State) : runMc (set t : Mc PUnit) s = (.ok PUnit.unit, t) := rfl
@[simp] theorem runMc_modify (f : State → State) (s : State) : runMc (modify f : Mc PUnit) s = (.ok PUnit.unit, f s) := rfl
@[simp] theorem runMc_fault (code addr : Nat) (s : State) :
    runMc (fault code addr : Mc α) s = (.error (.flt { code, addr }), s) := rfl

/-- One operation after another: the second runs in the state the first leaves, unless the first stops. -/
theorem runMc_bind (m : Mc α) (f : α → Mc β) (s : State) :
    runMc (m >>= f) s = match runMc m s with | (.ok a, t) => runMc (f a) t | (.error e, t) => (.error e, t) := by
  show ((m.run >>= ExceptT.bindCont f).run s : Id _) = _
  show (match (m.run.run s : Id _) with | (x, t) => (ExceptT.bindCont f x).run t : Id _) = _
  unfold runMc
  rcases (m.run.run s : Id _) with ⟨_ | a, t⟩ <;> rfl

/-- A failed check stops with its code; a passed one does nothing. -/
theorem runMc_failIf (p : Bool) (code addr : Nat) (s : State) :
    runMc (failIf p code addr) s = if p then (.error (.flt { code, addr }), s) else (.ok (), s) := by
  cases p <;> rfl

@[simp] theorem runMc_failIf_false (code addr : Nat) (s : State) : runMc (failIf false code addr) s = (.ok (), s) := rfl

/-- After an operation that answers, the next one runs in the state it leaves. -/
theorem runMc_bind_ok {m : Mc α} {f : α → Mc β} {s t : State} {a : α} (h : runMc m s = (.ok a, t)) :
    runMc (m >>= f) s = runMc (f a) t := by rw [runMc_bind, h]

/-- An operation that stops ends what follows it. -/
theorem runMc_bind_error {m : Mc α} {f : α → Mc β} {s t : State} {e : Stop} (h : runMc m s = (.error e, t)) :
    runMc (m >>= f) s = (.error e, t) := by rw [runMc_bind, h]

end Sys2Proof.Machine
end

