-- ==== Sys2Proof/Laws/Start.lean ====
section
/-! SUPPORT. What the shared issue and start of engine commands do when the engine starts the command: the lemmas that every
statement about a completed engine command goes through. -/

namespace Sys2Proof.Machine

open Sys2Proof

/-- A command without immediate data, of the length of its row, passes the checks that every row makes. -/
theorem bodyChecks_of_plain {s1 : State} {i c len : Nat} {r : CmdRow} (hf : plainForm c len = true) :
    runMc (bodyChecks s1 i c r len) s1 = (.ok (), s1) := by
  simp only [plainForm, Bool.and_eq_true, Bool.not_eq_true', beq_iff_eq] at hf
  simp [bodyChecks, hf.1, hf.2]

/-- So does one with immediate data, of a row that defines them, outside Run mode (R54). -/
theorem bodyChecks_of_imm {s1 : State} {i c len : Nat} {r : CmdRow} (hl : hLen c = len) (hi : hImm c = true)
    (hm : (s1.pane i).mode ≠ 0) (hr : r.immCode = none) : runMc (bodyChecks s1 i c r len) s1 = (.ok (), s1) := by
  simp [bodyChecks, hl, hi, hm, hr]

/-- A body that passes its row's checks runs. -/
theorem startBody_of_ok {s0 sp s1 s2 : State} {i c len : Nat} {r : CmdRow} {body : Mc Bool} {fin : Bool}
    (h1 : runMc (bodyChecks s1 i c r len) s1 = (.ok (), s1)) (hb : runMc body s1 = (.ok fin, s2)) :
    startBody s0 sp s1 i c r len body = if fin then completed s2 i c r else underWay s2 i r.eng := by
  unfold startBody
  rw [runMc_bind_ok h1, hb]
  cases fin <;> rfl

/-- A command that waits, and whose engine is free or reads for it already, goes on in the state that `startState` names. -/
theorem runCmdLen_of_waiting {s s1 s2 : State} {i c len : Nat} {r : CmdRow} {busy : State → Bool} {body : Mc Bool} {fin : Bool}
    (hu : waitsToStart s i c r = true) (hs : startState s i c r busy = some s1)
    (hf : runMc (bodyChecks s1 i c r len) s1 = (.ok (), s1)) (hb : runMc body s1 = (.ok fin, s2)) :
    runCmdLen s i c r len busy body = if fin then completed s2 i c r else underWay s2 i r.eng := by
  unfold startState at hs
  unfold runCmdLen
  rw [if_pos hu] at hs ⊢
  by_cases hz : busy s = true
  · rw [if_pos hz] at hs
    cases hs
  · rw [if_neg hz] at hs ⊢
    by_cases h5 : 5 ≤ r.eng ∧ (!reading s i r.eng) = true
    · rw [if_pos h5] at hs ⊢
      by_cases hg : bayAccepts s i r.eng = true
      · rw [if_pos hg, Option.some.injEq] at hs
        subst hs
        simp only [bayAccepts, Bool.or_eq_true, Bool.and_eq_true, decide_eq_true_eq, beq_iff_eq, Bool.not_eq_true'] at hg
        obtain ⟨h1, h2⟩ := hg.resolve_left (by omega)
        simp only [taken, h5.1, if_true] at hf hb
        simp only [h1, h2, Bool.false_eq_true, if_false]
        exact startBody_of_ok hf hb
      · rw [if_neg hg] at hs
        cases hs
    · rw [if_neg h5, Option.some.injEq] at hs
      subst hs
      rw [if_neg h5]
      exact startBody_of_ok hf hb

/-- A command read from the list that starts at once runs in the state that `startState` names. -/
theorem runCmdLen_of_listed {s s1 s2 : State} {i c len : Nat} {r : CmdRow} {busy : State → Bool} {body : Mc Bool} {fin : Bool}
    (hu : ¬ waitsToStart s i c r = true) (hs : startState s i c r busy = some s1)
    (hf : runMc (bodyChecks s1 i c r len) s1 = (.ok (), s1)) (hb : runMc body s1 = (.ok fin, s2)) :
    runCmdLen s i c r len busy body = if fin then completed s2 i c r else underWay s2 i r.eng := by
  unfold startState at hs
  unfold runCmdLen
  rw [if_neg hu] at hs ⊢
  by_cases hm : mayIssue s i = true
  · simp only [hm, Bool.not_true, Bool.false_eq_true, if_false] at hs ⊢
    rcases hr : runMc (readCmd i c) s with ⟨_ | (_ | _), s'⟩ <;> rw [hr] at hs <;>
      simp only [Bool.and_eq_true, Bool.not_eq_true', Option.ite_none_right_eq_some, Option.some.injEq, reduceCtorEq,
        Option.isNone_iff_eq_none, beq_iff_eq] at hs ⊢
    obtain ⟨⟨⟨⟨⟨⟨⟨⟨hh, he⟩, ho⟩, hk⟩, hw⟩, hq⟩, hz⟩, hg⟩, rfl⟩ := hs
    simp only [bayAccepts, Bool.or_eq_true, Bool.and_eq_true, decide_eq_true_eq, beq_iff_eq, Bool.not_eq_true'] at hg
    unfold issueCmd
    rw [hh]
    simp only [he, ho, hk, hw, hq, hz, beq_self_eq_true, Bool.not_true, Bool.not_false, Bool.and_false, Bool.and_true,
      Bool.or_false, Bool.false_eq_true, if_false, if_true]
    by_cases h5 : 5 ≤ r.eng
    · obtain ⟨h1, h2⟩ := hg.resolve_left (by omega)
      simp only [taken, h5, if_true] at hf hb
      simp only [h5, h1, h2, if_true, Bool.not_false]
      exact startBody_of_ok hf hb
    · simp only [taken, h5, if_false] at hf hb
      simp only [h5, if_false]
      exact startBody_of_ok hf hb
  · simp only [hm, Bool.not_false, if_true, reduceCtorEq] at hs

/-- A command that starts and whose body ends without a stop leaves its completed or its running state. -/
theorem runCmdLen_of_start {s s1 s2 : State} {i c len : Nat} {r : CmdRow} {busy : State → Bool} {body : Mc Bool} {fin : Bool}
    (hs : startState s i c r busy = some s1) (hf : runMc (bodyChecks s1 i c r len) s1 = (.ok (), s1)) (hb : runMc body s1 = (.ok fin, s2)) :
    runCmdLen s i c r len busy body = if fin then completed s2 i c r else underWay s2 i r.eng := by
  by_cases hu : waitsToStart s i c r = true
  · exact runCmdLen_of_waiting hu hs hf hb
  · exact runCmdLen_of_listed hu hs hf hb

/-- A row's command without immediate data that starts and whose body ends without a stop answers its completed or its
running state. -/
theorem runCmd_of_start {s s1 s2 : State} {i c : Nat} {r : CmdRow} {busy : State → Bool} {body : Mc Bool} {fin : Bool}
    (hs : startState s i c r busy = some s1) (hf : plainForm c r.len = true) (hb : runMc body s1 = (.ok fin, s2)) :
    runCmd s i c r busy body = settle (if fin then completed s2 i c r else underWay s2 i r.eng) := by
  rw [runCmd, runCmdLen_of_start hs (bodyChecks_of_plain hf) hb]

end Sys2Proof.Machine
end

