-- ==== Sys2Proof/Laws/Engines.lean ====
section
/-! SUPPORT. What a started command of each shared engine leaves, and that the shared completion of a command keeps the streams: the lemmas
that statements about gather, table and stream commands go through. -/

namespace Sys2Proof.Machine

open Sys2Proof

/-- A started table-engine command makes its job the engine's. -/
theorem runTe_of_start {s s1 s2 : State} {i c op len : Nat} {body : Mc TeJob} {j : TeJob} (h5 : s.pwr.st ≠ 5) (hi : i < 144)
    (hs : startState s i c (teRow op len) (fun _ => false) = some s1) (hf : plainForm c len = true) (hb : runMc body s1 = (.ok j, s2)) :
    answer s (okPane i) (runTe s i c op len body) =
      .next (followedTe s (underWay (s2.modTe (bayOf i) (fun x => { x with jobs := [j] })) i 5)) := by
  have hb' : runMc (do let j ← body; putTe (bayOf i) j; pure false) s1 = (.ok false, s2.modTe (bayOf i) (fun x => { x with jobs := [j] })) := by
    rw [runMc_bind_ok hb]
    rfl
  rw [okPane_of_lt hi, answer_on h5]
  unfold runTe
  rw [runCmdLen_of_start (r := teRow op len) hs (bodyChecks_of_plain hf) hb']
  rfl

/-- A started gather command advances its job at once. -/
theorem runNge_of_start {s s1 s2 : State} {i c op len : Nat} {body : Mc Bool} {fin : Bool} (h5 : s.pwr.st ≠ 5) (hi : i < 144)
    (hs : startState s i c (ngeRow op len) (engBusy i 3) = some s1) (hf : plainForm c len = true) (hb : runMc body s1 = (.ok fin, s2)) :
    answer s (okPane i) (runNge s i c op len body) =
      .next (followed s (ngeGo (if fin then completed s2 i c (ngeRow op len) else underWay s2 i (ngeRow op len).eng) i)) := by
  rw [okPane_of_lt hi, answer_on h5]
  unfold runNge
  rw [runCmdLen_of_start (r := ngeRow op len) hs (bodyChecks_of_plain hf) hb]
  rfl

/-- A trace record leaves the panes alone. -/
theorem traceRec_pane (s : State) (i e o t j : Nat) : (traceRec s i e o t).pane j = s.pane j := by
  unfold traceRec
  simp only
  split <;> rfl

/-- A command's completion keeps the streams. -/
theorem streamOf_cmdDone (s : State) (i e o t st : Nat) : streamOf (cmdDone s i e o t) i st = streamOf s i st := by
  unfold streamOf cmdDone countCmd
  rw [traceRec_pane]
  have h : ∀ (u : State) (a v : Nat), (u.setReg a v).pane i = u.pane i := fun _ _ _ => rfl
  rw [h, State.modPane_pane]
  rfl

/-- So does what a command that runs on leaves. -/
theorem streamOf_underWay (s : State) (i e st : Nat) : streamOf (underWay s i e) i st = streamOf s i st := by
  unfold streamOf underWay
  have h : ∀ (u : State) (a : Nat), (dropFetched u i a).pane i = u.pane i := fun _ _ => rfl
  rw [h, h, State.modPane_pane]

/-- So does a completed command. -/
theorem streamOf_completed (s : State) (i c : Nat) (r : CmdRow) (st : Nat) : streamOf (completed s i c r) i st = streamOf s i st := by
  unfold completed
  rw [streamOf_cmdDone, streamOf_underWay]

/-- The stream just changed reads as it was made. -/
theorem streamOf_setStream (s : State) (i st : Nat) (x : Stream) : streamOf (setStream s i st x) i st = x := by
  unfold streamOf setStream
  rw [State.modPane_pane]
  exact tget_tset_self _ _ _ _

/-- What ends a stream keeps its position: a stream that is finished keeps how far it was delivered and taken up. -/
theorem streamOf_finishStream (s : State) (i st : Nat) :
    (streamOf (finishStream s i st) i st).deliv = (streamOf s i st).deliv ∧ (streamOf (finishStream s i st) i st).done = (streamOf s i st).done := by
  unfold finishStream seDone
  dsimp only
  split
  · split
    · rw [streamOf_cmdDone, streamOf_setStream]
      exact ⟨rfl, rfl⟩
    · exact ⟨rfl, rfl⟩
  · split
    · rw [streamOf_cmdDone, streamOf_setStream]
      exact ⟨rfl, rfl⟩
    · exact ⟨rfl, rfl⟩

end Sys2Proof.Machine
end

