-- ==== Sys2Proof/Laws/Memory.lean ====
section
/-! SUPPORT. Byte memories: every operation that changes one keeps its canonical form, and what a range written reads as. -/

namespace Sys2Proof.Machine

open Sys2Proof

theorem twf_rawWrite (d : Byte) (t : Tbl Byte) (a : Nat) (bs : List Byte) (h : twf d t = true) : twf d (rawWrite t d a bs) = true :=
  twf_tsetAll d t _ h

/-- Rewriting words through the check code keeps the canonical form. -/
theorem twf_healWords (t : Tbl Byte) (errs : Tbl Nat) (ws : List Nat) (h : twf 0 t = true) : twf 0 (healWords t errs ws).1 = true := by
  unfold healWords
  induction ws generalizing t errs with
  | nil => exact h
  | cons w ws ih =>
    rw [List.foldl_cons]
    split
    · exact ih _ _ (twf_rawWrite 0 t w _ h)
    · exact ih _ _ h

/-- A store to local memory keeps every byte memory in canonical form. -/
theorem storeBytes_wf (s : State) (pa : Nat) (bs : List Byte) (h : Memory.wf s = true) : Memory.wf (storeBytes s pa bs) = true := by
  unfold Memory.wf at h ⊢
  simp only [Bool.and_eq_true] at h ⊢
  exact ⟨⟨twf_rawWrite 0 s.dram pa bs h.1.1, h.1.2⟩, h.2⟩

/-- Entries laid out at consecutive keys lie in their range and rise. -/
theorem mapIdx_rising (a : Nat) (bs : List Byte) :
    (bs.mapIdx (fun k b => (a + k, b))).Pairwise (fun x y => x.1 < y.1) ∧
      ∀ e ∈ bs.mapIdx (fun k b => (a + k, b)), a ≤ e.1 ∧ e.1 < a + bs.length := by
  constructor
  · rw [List.pairwise_iff_getElem]
    intro i j hi hj hij
    simp only [List.getElem_mapIdx]
    omega
  · intro e he
    obtain ⟨k, hk, rfl⟩ := List.mem_mapIdx.mp he
    simp only
    omega

/-- A range put into the flash keeps it in canonical form. -/
theorem flashPut_wf (s : State) (a : Nat) (bs : List Byte) (h : twf 0xFF s.flash = true) : twf 0xFF (flashPut s a bs).flash = true := by
  obtain ⟨hp, hr⟩ := mapIdx_rising a bs
  have h1 := (twf_iff _ _).mp h
  rw [twf_iff]
  have mid : ∀ e ∈ (bs.mapIdx (fun k b => (a + k, b))).filter (fun c => c.2 != 0xFF), a ≤ e.1 ∧ e.1 < a + bs.length ∧ e.2 ≠ 0xFF := by
    intro e he
    have hm := List.mem_filter.mp he
    exact ⟨(hr e hm.1).1, (hr e hm.1).2, by simpa using hm.2⟩
  have low : ∀ e ∈ s.flash.filter (fun c => decide (c.1 < a)), e.1 < a ∧ e.2 ≠ 0xFF := by
    intro e he
    have hm := List.mem_filter.mp he
    exact ⟨by simpa using hm.2, h1.2 e hm.1⟩
  have high : ∀ e ∈ s.flash.filter (fun c => decide (a + bs.length ≤ c.1)), a + bs.length ≤ e.1 ∧ e.2 ≠ 0xFF := by
    intro e he
    have hm := List.mem_filter.mp he
    exact ⟨by simpa using hm.2, h1.2 e hm.1⟩
  constructor
  · simp only [flashPut, List.pairwise_append, List.mem_append]
    refine ⟨⟨h1.1.filter _, hp.filter _, fun x hx y hy => ?_⟩, h1.1.filter _, fun x hx y hy => ?_⟩
    · have := (low x hx).1; have := (mid y hy).1; omega
    · have hy' := (high y hy).1
      rcases hx with hx | hx
      · have := (low x hx).1; omega
      · have := (mid x hx).2.1; omega
  · intro e he
    simp only [flashPut, List.mem_append] at he
    rcases he with (he | he) | he
    · exact (low e he).2
    · exact (mid e he).2.2
    · exact (high e he).2

/-- The slot-table section that bring-up loads is in canonical form. -/
theorem slotDef_wf (bs : List Byte) : twf 0 (((bs.mapIdx (fun k x => (k, x))).filter (fun c => c.2 != 0)) : Tbl Byte) = true := by
  have h := (mapIdx_rising 0 bs).1
  simp only [Nat.zero_add] at h
  rw [twf_iff]
  exact ⟨h.filter _, fun e he => by simpa using (List.mem_filter.mp he).2⟩

/-- A reset keeps every byte memory in canonical form: the flash stays, the others are empty. -/
theorem resetAll_wf (s : State) (h : Memory.wf s = true) : Memory.wf (resetAll s) = true := by
  unfold Memory.wf at h ⊢
  simp only [Bool.and_eq_true] at h ⊢
  exact ⟨⟨rfl, h.1.2⟩, rfl⟩

/-! ### Scratchpads and accumulators -/

/-- Writing accumulator bytes keeps a pane's memories in canonical form. -/
theorem accWrite_wf (p : Pane) (es : List (Nat × Byte)) (h : p.wf = true) : ({ p with acc := tsetAll 0 p.acc es } : Pane).wf = true := by
  unfold Pane.wf at h ⊢
  simp only [Bool.and_eq_true] at h ⊢
  exact ⟨h.1, twf_tsetAll 0 p.acc es h.2⟩

/-- Writing scratchpad bytes keeps a pane's memories in canonical form. -/
theorem spWrite_wf (p : Pane) (a : Nat) (bs : List Byte) (h : p.wf = true) : ({ p with sp := rawWrite p.sp 0 a bs } : Pane).wf = true := by
  unfold Pane.wf at h ⊢
  simp only [Bool.and_eq_true] at h ⊢
  exact ⟨twf_rawWrite 0 p.sp a bs h.1, h.2⟩

end Sys2Proof.Machine
end

