-- ==== Sys2Proof/Laws/PerInstr.lean ====
section
/-! SUPPORT. Well-formedness command by command: what a well-formed command says about the instance it names and about the
engine command it carries (Table 1-1, R48). -/

namespace Sys2Proof.Laws.WellFormedOperands

/-- The pane instance that a command names. -/
def paneOf : Instr → Option Nat
  | .nop x _ => some x
  | .fence x _ => some x
  | .signal x _ => some x
  | .wait x _ => some x
  | .take x _ => some x
  | .endList x _ => some x
  | .commandTimeLimit x _ => some x
  | .scratchpadBankSlot x _ _ => some x
  | .accumulatorPortSlot x _ _ => some x
  | .switchDrained x => some x
  | .switchSaveDone x => some x
  | .switchRestoreDone x => some x
  | .paneSlotdataRead x => some x
  | .matmul x _ => some x
  | .matmulResultWrite x => some x
  | .drain x _ => some x
  | .encode x _ => some x
  | .chstep x _ => some x
  | .gather x _ => some x
  | .seggather x _ => some x
  | .degscan x _ => some x
  | .seqstage x _ => some x
  | .seqsoft x _ => some x
  | .narrowReadReturn x _ => some x
  | .sash x _ => some x
  | .reduce x _ => some x
  | .tabulate x _ => some x
  | .tlookup x _ => some x
  | .tprefetch x _ => some x
  | .tgrad x _ => some x
  | .tstepApply x _ => some x
  | .tstepRefresh x _ => some x
  | .trepl x _ => some x
  | .tmigrate x _ => some x
  | .trowwrite x _ => some x
  | .sopen x _ => some x
  | .srelease x _ => some x
  | .spost x _ => some x
  | .scancel x _ => some x
  | .blockDelivered x _ => some x
  | .streamSlip x _ => some x
  | .seStrdataRead x => some x
  | .taskComplete x => some x
  | .sliceExpiry x => some x
  | .blockedSwitch x => some x
  | .check x _ => some x
  | _ => none

/-- The bay that a command names. -/
def bayOperand : Instr → Option Nat
  | .arrayClockStep x => some x
  | .bayDoorbell x _ => some x
  | .taskFetch x => some x
  | .memoryChannelSlot x _ _ => some x
  | .lintelPortSlot x _ _ _ => some x
  | .bayEngineCommandSlot x _ => some x
  | .baySlotdataWrite x _ => some x
  | .baySlotdataRead x => some x
  | .bayQerrClear x _ => some x
  | .chainRecordLand x => some x
  | .lineUpdate x => some x
  | .rowRequest x => some x
  | .rowResponse x => some x
  | .contribution x => some x
  | .migrationCopyDone x => some x
  | .teCtrclr x _ => some x
  | .blockDelivered _ x => some x
  | .streamSlip _ x => some x
  | .marginMonitorLow x _ => some x
  | .shutterStart x => some x
  | .shutterEnd x => some x
  | .retrainingFailure x => some x
  | .memRqtailWrite x _ => some x
  | .memRack x _ => some x
  | .memSvcRetrain x _ => some x
  | .memSvcSelfTest x _ => some x
  | .memSvcDeclareFailed x _ => some x
  | .evacuationCopyDone x => some x
  | .stackTemperatureRead x _ => some x
  | .pageWalkLine x _ => some x
  | .walkrsp x => some x
  | .companionWalkTimeout x _ => some x
  | .inval x => some x
  | .invack x => some x
  | .xltFlushTlb x => some x
  | .xltFlushOwner x => some x
  | .dspTftailWrite x _ => some x
  | .contextReset x _ => some x
  | .signalApply x => some x
  | .waitTimeout x _ => some x
  | .synCreate x _ => some x
  | .synDestroy x _ => some x
  | .synSetValue x _ => some x
  | .flowRelease x => some x
  | .rdreq x => some x
  | .wrreq x => some x
  | .atomic x => some x
  | .rdresp x => some x
  | .wrack x => some x
  | .atack x => some x
  | .lkreq x => some x
  | .lkresp x => some x
  | .grad x => some x
  | .grack x => some x
  | .chrec x => some x
  | .signalMessage x => some x
  | .tesvc x => some x
  | .remoteTimeout x _ => some x
  | .xeRtflush x _ => some x
  | .snoopTimeout x _ => some x
  | .companionTimeout x _ => some x
  | .junctionSensorRead x _ => some x
  | _ => none

/-- The bytes of the engine command that a command carries. -/
def bytesOf : Instr → Option Nat
  | .nop _ x => some x
  | .fence _ x => some x
  | .signal _ x => some x
  | .wait _ x => some x
  | .take _ x => some x
  | .endList _ x => some x
  | .matmul _ x => some x
  | .drain _ x => some x
  | .encode _ x => some x
  | .chstep _ x => some x
  | .gather _ x => some x
  | .seggather _ x => some x
  | .degscan _ x => some x
  | .seqstage _ x => some x
  | .seqsoft _ x => some x
  | .sash _ x => some x
  | .reduce _ x => some x
  | .tabulate _ x => some x
  | .tlookup _ x => some x
  | .tprefetch _ x => some x
  | .tgrad _ x => some x
  | .tstepApply _ x => some x
  | .tstepRefresh _ x => some x
  | .trepl _ x => some x
  | .tmigrate _ x => some x
  | .trowwrite _ x => some x
  | .sopen _ x => some x
  | .srelease _ x => some x
  | .spost _ x => some x
  | .scancel _ x => some x
  | .flitReceive _ x => some x
  | .check _ x => some x
  | _ => none

/-- A well-formed command names a pane and a bay of the package, and carries an engine command of at most 256 bytes. -/
def Statement (i : Instr) : Prop :=
  i.wellFormed = true → (∀ p, paneOf i = some p → p < 144) ∧ (∀ b, bayOperand i = some b → b < 16) ∧ ∀ c, bytesOf i = some c → c < 2 ^ 2048

theorem all (i : Instr) : Statement i := by
  intro h
  cases i <;> refine ⟨?_, ?_, ?_⟩ <;> intro p e <;> cases e <;> simp only [Instr.wellFormed, Bool.and_eq_true, decide_eq_true_eq] at h <;> with_reducible first | exact h | exact h.1 | exact h.2 | exact h.1.1 | exact h.1.2 | exact h.1.1.1

theorem arrayClockStep (x1) : Statement (.arrayClockStep x1) := all _
theorem bayDoorbell (x1 x2) : Statement (.bayDoorbell x1 x2) := all _
theorem taskFetch (x1) : Statement (.taskFetch x1) := all _
theorem nop (x1 x2) : Statement (.nop x1 x2) := all _
theorem fence (x1 x2) : Statement (.fence x1 x2) := all _
theorem signal (x1 x2) : Statement (.signal x1 x2) := all _
theorem wait (x1 x2) : Statement (.wait x1 x2) := all _
theorem take (x1 x2) : Statement (.take x1 x2) := all _
theorem endList (x1 x2) : Statement (.endList x1 x2) := all _
theorem commandTimeLimit (x1 x2) : Statement (.commandTimeLimit x1 x2) := all _
theorem memoryChannelSlot (x1 x2 x3) : Statement (.memoryChannelSlot x1 x2 x3) := all _
theorem lintelPortSlot (x1 x2 x3 x4) : Statement (.lintelPortSlot x1 x2 x3 x4) := all _
theorem scratchpadBankSlot (x1 x2 x3) : Statement (.scratchpadBankSlot x1 x2 x3) := all _
theorem accumulatorPortSlot (x1 x2 x3) : Statement (.accumulatorPortSlot x1 x2 x3) := all _
theorem bayEngineCommandSlot (x1 x2) : Statement (.bayEngineCommandSlot x1 x2) := all _
theorem switchDrained (x1) : Statement (.switchDrained x1) := all _
theorem switchSaveDone (x1) : Statement (.switchSaveDone x1) := all _
theorem switchRestoreDone (x1) : Statement (.switchRestoreDone x1) := all _
theorem baySlotdataWrite (x1 x2) : Statement (.baySlotdataWrite x1 x2) := all _
theorem baySlotdataRead (x1) : Statement (.baySlotdataRead x1) := all _
theorem paneSlotdataRead (x1) : Statement (.paneSlotdataRead x1) := all _
theorem bayQerrClear (x1 x2) : Statement (.bayQerrClear x1 x2) := all _
theorem matmul (x1 x2) : Statement (.matmul x1 x2) := all _
theorem matmulResultWrite (x1) : Statement (.matmulResultWrite x1) := all _
theorem drain (x1 x2) : Statement (.drain x1 x2) := all _
theorem encode (x1 x2) : Statement (.encode x1 x2) := all _
theorem chstep (x1 x2) : Statement (.chstep x1 x2) := all _
theorem chainRecordLand (x1) : Statement (.chainRecordLand x1) := all _
theorem gather (x1 x2) : Statement (.gather x1 x2) := all _
theorem seggather (x1 x2) : Statement (.seggather x1 x2) := all _
theorem degscan (x1 x2) : Statement (.degscan x1 x2) := all _
theorem seqstage (x1 x2) : Statement (.seqstage x1 x2) := all _
theorem seqsoft (x1 x2) : Statement (.seqsoft x1 x2) := all _
theorem narrowReadReturn (x1 x2) : Statement (.narrowReadReturn x1 x2) := all _
theorem sash (x1 x2) : Statement (.sash x1 x2) := all _
theorem reduce (x1 x2) : Statement (.reduce x1 x2) := all _
theorem tabulate (x1 x2) : Statement (.tabulate x1 x2) := all _
theorem lineUpdate (x1) : Statement (.lineUpdate x1) := all _
theorem tlookup (x1 x2) : Statement (.tlookup x1 x2) := all _
theorem tprefetch (x1 x2) : Statement (.tprefetch x1 x2) := all _
theorem tgrad (x1 x2) : Statement (.tgrad x1 x2) := all _
theorem tstepApply (x1 x2) : Statement (.tstepApply x1 x2) := all _
theorem tstepRefresh (x1 x2) : Statement (.tstepRefresh x1 x2) := all _
theorem trepl (x1 x2) : Statement (.trepl x1 x2) := all _
theorem tmigrate (x1 x2) : Statement (.tmigrate x1 x2) := all _
theorem trowwrite (x1 x2) : Statement (.trowwrite x1 x2) := all _
theorem rowRequest (x1) : Statement (.rowRequest x1) := all _
theorem rowResponse (x1) : Statement (.rowResponse x1) := all _
theorem contribution (x1) : Statement (.contribution x1) := all _
theorem migrationCopyDone (x1) : Statement (.migrationCopyDone x1) := all _
theorem teCtrclr (x1 x2) : Statement (.teCtrclr x1 x2) := all _
theorem sopen (x1 x2) : Statement (.sopen x1 x2) := all _
theorem srelease (x1 x2) : Statement (.srelease x1 x2) := all _
theorem spost (x1 x2) : Statement (.spost x1 x2) := all _
theorem scancel (x1 x2) : Statement (.scancel x1 x2) := all _
theorem blockDelivered (x1 x2) : Statement (.blockDelivered x1 x2) := all _
theorem streamSlip (x1 x2) : Statement (.streamSlip x1 x2) := all _
theorem seStrdataRead (x1) : Statement (.seStrdataRead x1) := all _
theorem marginMonitorLow (x1 x2) : Statement (.marginMonitorLow x1 x2) := all _
theorem shutterStart (x1) : Statement (.shutterStart x1) := all _
theorem shutterEnd (x1) : Statement (.shutterEnd x1) := all _
theorem retrainingFailure (x1) : Statement (.retrainingFailure x1) := all _
theorem memRqtailWrite (x1 x2) : Statement (.memRqtailWrite x1 x2) := all _
theorem memRack (x1 x2) : Statement (.memRack x1 x2) := all _
theorem memSvcRetrain (x1 x2) : Statement (.memSvcRetrain x1 x2) := all _
theorem memSvcSelfTest (x1 x2) : Statement (.memSvcSelfTest x1 x2) := all _
theorem memSvcDeclareFailed (x1 x2) : Statement (.memSvcDeclareFailed x1 x2) := all _
theorem evacuationCopyDone (x1) : Statement (.evacuationCopyDone x1) := all _
theorem stackTemperatureRead (x1 x2) : Statement (.stackTemperatureRead x1 x2) := all _
theorem pageWalkLine (x1 x2) : Statement (.pageWalkLine x1 x2) := all _
theorem walkrsp (x1) : Statement (.walkrsp x1) := all _
theorem companionWalkTimeout (x1 x2) : Statement (.companionWalkTimeout x1 x2) := all _
theorem inval (x1) : Statement (.inval x1) := all _
theorem invack (x1) : Statement (.invack x1) := all _
theorem xltFresolve (x1) : Statement (.xltFresolve x1) := all _
theorem xltFntailWrite (x1) : Statement (.xltFntailWrite x1) := all _
theorem xltMptailWrite (x1) : Statement (.xltMptailWrite x1) := all _
theorem migrationStart : Statement .migrationStart := all _
theorem migrationStepDone : Statement .migrationStepDone := all _
theorem xltFlushTlb (x1) : Statement (.xltFlushTlb x1) := all _
theorem xltFlushOwner (x1) : Statement (.xltFlushOwner x1) := all _
theorem taskComplete (x1) : Statement (.taskComplete x1) := all _
theorem dspTftailWrite (x1 x2) : Statement (.dspTftailWrite x1 x2) := all _
theorem sliceExpiry (x1) : Statement (.sliceExpiry x1) := all _
theorem blockedSwitch (x1) : Statement (.blockedSwitch x1) := all _
theorem contextReset (x1 x2) : Statement (.contextReset x1 x2) := all _
theorem contextResetDone : Statement .contextResetDone := all _
theorem signalApply (x1) : Statement (.signalApply x1) := all _
theorem waitTimeout (x1 x2) : Statement (.waitTimeout x1 x2) := all _
theorem synCreate (x1 x2) : Statement (.synCreate x1 x2) := all _
theorem synDestroy (x1 x2) : Statement (.synDestroy x1 x2) := all _
theorem synSetValue (x1 x2) : Statement (.synSetValue x1 x2) := all _
theorem winPctrlRetrain (x1) : Statement (.winPctrlRetrain x1) := all _
theorem winPctrlReplaceLane (x1 x2) : Statement (.winPctrlReplaceLane x1 x2) := all _
theorem winPctrlDisable (x1) : Statement (.winPctrlDisable x1) := all _
theorem winPctrlEnable (x1) : Statement (.winPctrlEnable x1) := all _
theorem lightDetected (x1 x2) : Statement (.lightDetected x1 x2) := all _
theorem darkRetry (x1) : Statement (.darkRetry x1) := all _
theorem ringsTuned (x1) : Statement (.ringsTuned x1) := all _
theorem clockLock (x1 x2) : Statement (.clockLock x1 x2) := all _
theorem lockTimeout (x1) : Statement (.lockTimeout x1) := all _
theorem trainingWord (x1 x2 x3) : Statement (.trainingWord x1 x2 x3) := all _
theorem codeword (x1 x2) : Statement (.codeword x1 x2) := all _
theorem flitReceive (x1 x2) : Statement (.flitReceive x1 x2) := all _
theorem flitSend (x1) : Statement (.flitSend x1) := all _
theorem replayTimeout (x1) : Statement (.replayTimeout x1) := all _
theorem laneFault (x1 x2 x3) : Statement (.laneFault x1 x2 x3) := all _
theorem lightLost (x1 x2) : Statement (.lightLost x1 x2) := all _
theorem drainDone (x1) : Statement (.drainDone x1) := all _
theorem drainTimeout (x1) : Statement (.drainTimeout x1) := all _
theorem flowRelease (x1) : Statement (.flowRelease x1) := all _
theorem rdreq (x1) : Statement (.rdreq x1) := all _
theorem wrreq (x1) : Statement (.wrreq x1) := all _
theorem atomic (x1) : Statement (.atomic x1) := all _
theorem rdresp (x1) : Statement (.rdresp x1) := all _
theorem wrack (x1) : Statement (.wrack x1) := all _
theorem atack (x1) : Statement (.atack x1) := all _
theorem lkreq (x1) : Statement (.lkreq x1) := all _
theorem lkresp (x1) : Statement (.lkresp x1) := all _
theorem grad (x1) : Statement (.grad x1) := all _
theorem grack (x1) : Statement (.grack x1) := all _
theorem chrec (x1) : Statement (.chrec x1) := all _
theorem signalMessage (x1) : Statement (.signalMessage x1) := all _
theorem tesvc (x1) : Statement (.tesvc x1) := all _
theorem failover (x1) : Statement (.failover x1) := all _
theorem remoteTimeout (x1 x2) : Statement (.remoteTimeout x1 x2) := all _
theorem xeRtflush (x1 x2) : Statement (.xeRtflush x1 x2) := all _
theorem crds (x1) : Statement (.crds x1) := all _
theorem crdo (x1) : Statement (.crdo x1) := all _
theorem crdu (x1) : Statement (.crdu x1) := all _
theorem cwr (x1) : Statement (.cwr x1) := all _
theorem cwb (x1) : Statement (.cwb x1) := all _
theorem cevict (x1) : Statement (.cevict x1) := all _
theorem snprsp (x1) : Statement (.snprsp x1) := all _
theorem snoopTimeout (x1 x2) : Statement (.snoopTimeout x1 x2) := all _
theorem doorbell (x1) : Statement (.doorbell x1) := all _
theorem mgrd (x1) : Statement (.mgrd x1) := all _
theorem mgwr (x1) : Statement (.mgwr x1) := all _
theorem companionTimeout (x1 x2) : Statement (.companionTimeout x1 x2) := all _
theorem flxMsictlWrite (x1 x2) : Statement (.flxMsictlWrite x1 x2) := all _
theorem ctlIrqtest (x1) : Statement (.ctlIrqtest x1) := all _
theorem check (x1 x2) : Statement (.check x1 x2) := all _
theorem powerUp (x1 x2 x3) : Statement (.powerUp x1 x2 x3) := all _
theorem pinReset (x1 x2 x3) : Statement (.pinReset x1 x2 x3) := all _
theorem restart (x1) : Statement (.restart x1) := all _
theorem recovery (x1) : Statement (.recovery x1) := all _
theorem bootDirectoryRead : Statement .bootDirectoryRead := all _
theorem slotVerifyDone : Statement .slotVerifyDone := all _
theorem bringUpStepsDone (x1) : Statement (.bringUpStepsDone x1) := all _
theorem lasersLocked (x1) : Statement (.lasersLocked x1) := all _
theorem exchangeTrainingTimeout : Statement .exchangeTrainingTimeout := all _
theorem folluxTrainingTimeout : Statement .folluxTrainingTimeout := all _
theorem ctlCommit (x1) : Statement (.ctlCommit x1) := all _
theorem commitApply (x1) : Statement (.commitApply x1) := all _
theorem secNewNonce : Statement .secNewNonce := all _
theorem secLoadToken (x1) : Statement (.secLoadToken x1) := all _
theorem secLeaveService : Statement .secLeaveService := all _
theorem secAttest : Statement .secAttest := all _
theorem secCertificate : Statement .secCertificate := all _
theorem secEnrol : Statement .secEnrol := all _
theorem secTokdata (x1) : Statement (.secTokdata x1) := all _
theorem serviceEnd : Statement .serviceEnd := all _
theorem secFpdataWrite (x1) : Statement (.secFpdataWrite x1) := all _
theorem secFpdataRead : Statement .secFpdataRead := all _
theorem flashErase : Statement .flashErase := all _
theorem flashProgram : Statement .flashProgram := all _
theorem dbgReq (x1 x2) : Statement (.dbgReq x1 x2) := all _
theorem halt (x1 x2) : Statement (.halt x1 x2) := all _
theorem resume (x1 x2) : Statement (.resume x1 x2) := all _
theorem step (x1 x2) : Statement (.step x1 x2) := all _
theorem dbgMdataRead (x1) : Statement (.dbgMdataRead x1) := all _
theorem dbgMdataWrite (x1 x2) : Statement (.dbgMdataWrite x1 x2) := all _
theorem dbgFdata (x1 x2) : Statement (.dbgFdata x1 x2) := all _
theorem dbgTrcdataRead (x1) : Statement (.dbgTrcdataRead x1) := all _
theorem pwrReq (x1) : Statement (.pwrReq x1) := all _
theorem powerTransitionDone : Statement .powerTransitionDone := all _
theorem junctionSensorRead (x1 x2) : Statement (.junctionSensorRead x1 x2) := all _
theorem targetedSelfTest (x1) : Statement (.targetedSelfTest x1) := all _
theorem selfTestVerdict (x1 x2 x3) : Statement (.selfTestVerdict x1 x2 x3) := all _
theorem domainResetDone (x1 x2) : Statement (.domainResetDone x1 x2) := all _
theorem logDataRead : Statement .logDataRead := all _
theorem updateStart : Statement .updateStart := all _
theorem updateAbort : Statement .updateAbort := all _
theorem updateVerifyDone : Statement .updateVerifyDone := all _
theorem updateWriteDone (x1) : Statement (.updateWriteDone x1) := all _
theorem updateHandover : Statement .updateHandover := all _
theorem linkFirmwarePortDone : Statement .linkFirmwarePortDone := all _
theorem panesvcSelfTest (x1) : Statement (.panesvcSelfTest x1) := all _
theorem panesvcReplace (x1) : Statement (.panesvcReplace x1) := all _
theorem smbusRead (x1) : Statement (.smbusRead x1) := all _
theorem smbusWrite (x1 x2) : Statement (.smbusWrite x1 x2) := all _
theorem smbusTimeout (x1 x2) : Statement (.smbusTimeout x1 x2) := all _
theorem dbgacc (x1 x2 x3) : Statement (.dbgacc x1 x2 x3) := all _
theorem ctlTimeLoRead (x1) : Statement (.ctlTimeLoRead x1) := all _
theorem registerWrite (x1 x2 x3) : Statement (.registerWrite x1 x2 x3) := all _
theorem supEventsClear (x1) : Statement (.supEventsClear x1) := all _
theorem refclk0Loss : Statement .refclk0Loss := all _
theorem refclkBothLost : Statement .refclkBothLost := all _
theorem vinUndervoltage : Statement .vinUndervoltage := all _
theorem vauxUndervoltage : Statement .vauxUndervoltage := all _
theorem sensorRead (x1) : Statement (.sensorRead x1) := all _
theorem vinDip : Statement .vinDip := all _
theorem vioUndervoltage : Statement .vioUndervoltage := all _
theorem refclk1Loss : Statement .refclk1Loss := all _
theorem secCommandComplete : Statement .secCommandComplete := all _
theorem flashOperationComplete (x1) : Statement (.flashOperationComplete x1) := all _
theorem extest (x1) : Statement (.extest x1) := all _

end Sys2Proof.Laws.WellFormedOperands
end

