-- ==== Sys2Proof/Laws/Reads.lean ====
section
/-! SUPPORT. What reading lines, asking for them, posting writes and running an operation that reads can do: one lemma for each shared
operation, cited in place of its text. -/

namespace Sys2Proof.Machine

variable {s s' : State} {w : Who}

/-- Reading lines leaves the state alone. -/
theorem readLines_keeps (w : Who) (ctx : Nat) (sys : Bool) (a n : Nat) (s : State) : (runMc (readLines w ctx sys a n) s).2 = s := by
  unfold readLines
  rw [runMc_bind_ok (runMc_get s)]
  dsimp only
  split
  · rfl
  · split <;> rfl

/-- A read of lines delivers when every line has come and none of them stops it: the bytes of its range in what the lines brought. -/
theorem readLines_came {ctx a n : Nat} {sys : Bool} {bs : List Byte} {t : State} (h : runMc (readLines w ctx sys a n) s = (.ok bs, t)) :
    t = s ∧ (∀ l ∈ linesIn a n, (s.came { w, ctx, va := l, sys }).isSome = true) ∧
      bs = ((((linesIn a n).filterMap (fun l => s.came { w, ctx, va := l, sys })).flatMap (·.data)).drop (a % 64)).take n := by
  have hk : t = s := by simpa [h] using readLines_keeps w ctx sys a n s
  refine ⟨hk, ?_⟩
  unfold readLines at h
  rw [runMc_bind_ok (runMc_get s)] at h
  dsimp only at h
  split at h
  · cases h
  · rename_i hn
    rw [List.filter_eq_nil_iff] at hn
    have hc : ∀ l ∈ linesIn a n, (s.came { w, ctx, va := l, sys }).isSome = true := by
      intro l hl
      have := hn _ (List.mem_map_of_mem hl)
      simpa [Option.isNone_iff_eq_none, Option.isSome_iff_ne_none] using this
    split at h
    · cases h
    · simp only [runMc_pure, Prod.mk.injEq, Except.ok.injEq] at h
      refine ⟨hc, ?_⟩
      rw [← h.1, List.filterMap_map]
      rfl

/-- A system read leaves the state alone. -/
theorem sysRead_keeps (w : Who) (pa n : Nat) (s : State) : (runMc (sysRead w pa n) s).2 = s := readLines_keeps w 0 true (localPa pa) n s

/-- A read by virtual address leaves the state alone. -/
theorem vaRead_keeps (w : Who) (ctx va n : Nat) (s : State) : (runMc (vaRead w ctx va n) s).2 = s := readLines_keeps w ctx false va n s

/-- Dropping what `w` has read changes the accesses only. -/
theorem dropNeeds_eq (s : State) (w : Who) : dropNeeds s w = { s with accs := (dropNeeds s w).accs } := rfl

/-- An access that stays after `w` has used up what it read was there before. -/
theorem mem_dropNeeds {a : Access} (h : a ∈ (dropNeeds s w).accs) : a ∈ s.accs ∧ a.purpose ≠ .fetch w := by
  simp only [dropNeeds, List.mem_filter, Bool.not_eq_true', Bool.or_eq_false_iff, beq_eq_false_iff_ne, ne_eq] at h
  exact ⟨h.1, h.2.1.1⟩

/-- A message to the companion leaves the memories, the panes and the flash alone. -/
theorem sendHost_keeps (s : State) (b vc : Nat) (m : List Byte) :
    (s.sendHost b vc m).dram = s.dram ∧ (s.sendHost b vc m).panes = s.panes ∧ (s.sendHost b vc m).flash = s.flash := by
  unfold State.sendHost
  split <;> exact ⟨rfl, rfl, rfl⟩

/-- So does an MSI. -/
theorem sendMsi_keeps (s : State) (v : Nat) : (sendMsi s v).dram = s.dram ∧ (sendMsi s v).panes = s.panes ∧ (sendMsi s v).flash = s.flash := by
  unfold sendMsi
  generalize (if v < 48 then v % 16 else 0) = b
  dsimp only
  split
  · exact sendHost_keeps s b 0 _
  · exact ⟨rfl, rfl, rfl⟩

/-- So does an interrupt. -/
theorem raiseIrq_keeps (s : State) (v : Nat) :
    (raiseIrq s v).dram = s.dram ∧ (raiseIrq s v).panes = s.panes ∧ (raiseIrq s v).flash = s.flash := by
  unfold raiseIrq
  split
  · exact sendMsi_keeps (s.setReg _ _) v
  · exact ⟨rfl, rfl, rfl⟩

/-- So does a log entry. -/
theorem logEvt_keeps (s : State) (ev verdict dkind inst addr d0 d1 : Nat) :
    (logEvt s ev verdict dkind inst addr d0 d1).dram = s.dram ∧ (logEvt s ev verdict dkind inst addr d0 d1).panes = s.panes ∧
      (logEvt s ev verdict dkind inst addr d0 d1).flash = s.flash := by
  unfold logEvt
  dsimp only
  split
  · exact raiseIrq_keeps { s with rel := _ } 49
  · exact ⟨rfl, rfl, rfl⟩

/-- A posted write has not been made yet: memory, panes and flash stay. -/
theorem sysPost_keeps (s : State) (w : Who) (pa : Nat) (bs : List Byte) (put : Purpose) :
    (sysPost s w pa bs put).dram = s.dram ∧ (sysPost s w pa bs put).panes = s.panes ∧ (sysPost s w pa bs put).flash = s.flash := by
  unfold sysPost
  refine List.foldlRecOn (motive := fun (t : State) => t.dram = s.dram ∧ t.panes = s.panes ∧ t.flash = s.flash) _ _ ⟨rfl, rfl, rfl⟩ ?_
  intro t ht l _
  dsimp only
  split
  · obtain ⟨h1, h2, h3⟩ := logEvt_keeps t 0x18 0 2 (w.access t 0 true .write _ _ _ _ put).bay _ (detail 0x83 0) 0
    exact ⟨h1.trans ht.1, h2.trans ht.2.1, h3.trans ht.2.2⟩
  · exact ht

/-- A unit's operation ends with its effect and what it read used up, asks for what it lacks, waits, or hands its stop on. -/
theorem runUnit_cases {m : Mc Unit} {onStop : Stop → State → State} (h : runUnit s w m onStop = s') :
    (∃ t, runMc m s = (.ok (), t) ∧ s' = dropNeeds t w) ∨ (∃ ns t, runMc m s = (.error (.need ns), t) ∧ s' = postNeeds s ns) ∨
      (∃ t, runMc m s = (.error .wait, t) ∧ s' = s) ∨ ∃ e t, runMc m s = (.error e, t) ∧ s' = onStop e (dropNeeds t w) := by
  unfold runUnit at h
  split at h
  · exact .inl ⟨_, ‹_›, h.symm⟩
  · exact .inr (.inl ⟨_, _, ‹_›, h.symm⟩)
  · exact .inr (.inr (.inl ⟨_, ‹_›, h.symm⟩))
  · exact .inr (.inr (.inr ⟨_, _, ‹_›, h.symm⟩))

/-- A unit's operation that ends has used up what it read. -/
theorem runUnit_ok {m : Mc Unit} {onStop : Stop → State → State} (h : runMc m s = (.ok (), s')) : runUnit s w m onStop = dropNeeds s' w := by
  unfold runUnit
  rw [h]

/-- A security command goes on with what it read, asks for it, or ends with result 0x07. -/
theorem secRead_ok {n : Nat} {k : List Byte → State → State} {bs : List Byte} (h : runMc (sysRead secWho (argAddr s) n) s = (.ok bs, s')) :
    secRead s n k = k bs (dropNeeds s' secWho) := by
  unfold secRead
  rw [h]

/-- An owner's operation that ends has used up what it read, and is done with its message. -/
theorem holdOwner_ok {b n : Nat} {drop : Bool} {m : Mc Bool} {f : Flt → Mc Unit} (h : runMc m s = (.ok true, s')) :
    holdOwner s b n drop m f = (dropNeeds s' (.te b n), true) := by
  unfold holdOwner
  rw [h]

/-- An owner's operation that lacks lines asks for them and keeps its message. -/
theorem holdOwner_need {b n : Nat} {drop : Bool} {m : Mc Bool} {f : Flt → Mc Unit} {ns : List Need}
    (h : runMc m s = (.error (.need ns), s')) : holdOwner s b n drop m f = (postNeeds s ns, false) := by
  unfold holdOwner
  rw [h]

/-- A doorbell at the front whose descriptor has come is served, and the next one comes up. -/
theorem goDoorbells_served {n b v : Nat} {vs : List Nat} (hw : (s.bay b).dbWait = v :: vs) (h : runMc (doorbellRead b v) s = (.ok (), s')) :
    goDoorbells (n + 1) s b = goDoorbells n ((dropNeeds s' (.bay b .doorbell)).modBay b (fun x => { x with dbWait := vs })) b := by
  simp only [goDoorbells, hw, h]

/-- No doorbell waits: nothing happens. -/
theorem goDoorbells_none {n b : Nat} (hw : (s.bay b).dbWait = []) : goDoorbells n s b = s := by
  cases n <;> simp [goDoorbells, hw]

/-- An address of more than 48 bits stops before any look-up (R321). -/
theorem xlate_wide {b ctx va : Nat} {wr : Bool} (h : 2 ^ 48 ≤ va) : runMc (xlate w b ctx va wr) s = (.error (.flt { code := 0x90, addr := va }), s) := by
  unfold xlate
  rw [if_pos h]
  rfl

end Sys2Proof.Machine
end

