-- ==== Sys2Proof/Tests/Slice0.lean ====
section
/-! SUPPORT. Tests of single steps, and for every statement with hypotheses a state and operands that meet them together. -/

set_option Elab.async false
set_option linter.unusedVariables false

namespace Sys2Proof.Tests

open Sys2Proof Sys2Proof.Machine

/-! ### Small states -/

/-- A device in P0 after bring-up, Sealed, with one stack-local region of 2 MiB at address 0. -/
def up : State := { State.reset with
  devTime := 5000
  regions := [{ base := 0, size := 0x200000, kind := 2, stack := 0 }]
  boot := { phase := 6, ready := true }
  sec := { st := 1 }
  pwr := { st := 0 } }

/-- A running task of context 0 that claims the whole scratchpad and every tile. -/
def task1 : Task := {
  id := 1, bay := 0, queue := 0, index := 0, ctx := 0, dclass := 1, prio := 1, lpane := 0, anypane := false, slotset := 0, listaddr := 0
  listlen := 256, depctr := 0xFFFFFFFF, donesync := 5, doneen := true, doneadd := 1, spbase := 0, spcount := 192, accmask := 2 ^ 128 - 1
  st := .running, readyAt := some 0, ranOn := some 0, saved := none, wake := false, shares := {} }

/-- Pane 0 of `up` running `task1`. -/
def busy0 : State := { up.modPane 0 (fun p => { p with mode := 0, task := some 1, seq := { listEnd := 256 } }) with tasks := [task1] }

/-- The same with command `c` of engine `eng` issued and waiting for its engine, which for a bay engine has its slot. -/
def waiting0 (eng c : Nat) : State :=
  (busy0.modPane 0 (fun p => { p with seq := { p.seq with pc := 64, inflight := [eng], unstarted := [(eng, c)] } })).modBay 0 (fun x => { x with
    grant := [(eng, some 0)]
    slotIn := [(3 * 2 ^ 18 + (eng - 5) * 2 ^ 13, some 0x10)] })

/-- A command's bytes: opcode, engine, length and the words behind the header. -/
def cmdOf (eng op len body : Nat) : Nat := op + eng * 2 ^ 8 + (len / 16 - 1) * 2 ^ 12 + body * 2 ^ 64

/-- A wait for 3 at object 5 that ends at time 100. -/
def wt1 : Waiter := { obj := 5, kind := 0, task := 1, ctx := 0, thr := 3, expiry := some 100, parked := false }

/-- A 32-byte read of bay 0's table engine at its channel. -/
def acc1 : Access := {
  id := 9, isPane := false, owner := 0, eng := 5, bay := 0, ctx := 0, sys := false, ahead := false, op := .read, va := 0, pa := 0, len := 32
  data := [], cls := 0, stage := .chan, purpose := .none, flt := none, fails := 0 }

/-- A 64-byte line that came for `w`, with what memory holds there. -/
def came1 (s : State) (w : Who) (sys : Bool) (l : Nat) : Access :=
  { acc1 with purpose := .fetch w, sys, va := l, stage := .got, data := (List.range 64).map (fun k => tget 0 s.dram (l + k)) }

/-- The state in which the lines of a range have come for `w`. -/
def fetched (s : State) (w : Who) (sys : Bool) (a n : Nat) : State := { s with accs := s.accs ++ (linesIn a n).map (came1 s w sys) }

/-- The state with bytes stored in memory. -/
def withBytes (s : State) (a : Nat) (bs : List Byte) : State := storeBytes s a bs

/-- A command waiting on pane 0 whose engine holds a slot of every bank and accumulator port, with the first 16 KiB mapped. -/
def engine0 (eng c : Nat) : State :=
  ((waiting0 eng c).modXlt 0 (fun x => { x with tlb := [{ ctx := 0, lvl := 3, run := 2, vpn := 0, leaf := 0xF }] })).modPane 0 (fun p => { p with
    slotSet := some (0, 0)
    slots := (List.range 34).map (fun k => (k * 256, 0x10 + eng)) })

/-- Bytes of a graph descriptor at 0x1000 (one FP32 element a row, one vertex of degree 1), its vertex pointers at 0x1400. -/
def withGraph (s : State) : State :=
  withBytes (withBytes s 0x1000 (leBytes 8 0x1400 ++ leBytes 8 0x1500 ++ leBytes 8 0 ++ leBytes 8 0x1600 ++ leBytes 8 1 ++ leBytes 8 1
    ++ leBytes 4 (32 + 2 ^ 16) ++ leBytes 4 0x40)) 0x1408 (leBytes 8 1)

/-- Bytes of table 0, a trained table of 16 rows of one FP32 element at home in bay 0: row 0 is present, row 1 moved to bay 1. -/
def withTable (s : State) : State :=
  withBytes (withBytes (withBytes s 0 (leBytes 8 (16 + 2 ^ 42 + 10 * 2 ^ 43 + 2 ^ 48) ++ leBytes 4 1 ++ leBytes 4 0 ++ leBytes 8 0x400
    ++ leBytes 8 0x800)) 0x800 (leBytes 32 0x1000 ++ leBytes 8 0xA00 ++ leBytes 8 0xB00 ++ leBytes 8 0x2000 ++ leBytes 4 4 ++ leBytes 4 4))
    0xA00 (leBytes 8 4 ++ leBytes 8 (12 + 2 ^ 56))

/-- A table, a shard record and a row that stand where an operation gives none. -/
def noTab : TDesc × Shard :=
  ({ nrows := 0, mode := 0, train := false, slog := 0, valid := false, nelem := 0, opt := 0, seq := false, comb := 0, tctx := 0, smap := 0
     shbase := 0, defaddr := 0, hmul := 0, qtab := 0, rtab := 0, nrem := 0, h0 := 0, h1 := 0, h2 := 0, rsv := false },
   { tier := [], dir := 0, gdir := 0, gbuf := 0, glog := 0, gbufln := 0, applied := 0, cursor := 0 })
def noRow : RowAt := { ea := 0, guest := none, tier := 0, st := 0, loc := 0, fwd := 0 }

/-! ### Reading off outcomes -/

/-- The value of an operation, or `d`. -/
def okv {ε α : Type} (d : α) : Except ε α → α
  | .ok v => v
  | .error _ => d

/-- Did an operation end with this value? -/
def okIs {ε α : Type} [DecidableEq α] (x : Except ε α) (v : α) : Bool :=
  match x with
  | .ok a => decide (a = v)
  | .error _ => false

theorem okPair {ε α σ : Type} (d : α) {x : Except ε α × σ} (h : x.1.isOk = true) : x = (.ok (okv d x.1), x.2) := by
  obtain ⟨_ | _, _⟩ := x
  · cases h
  · rfl

theorem okPairV {ε α σ : Type} [DecidableEq α] {v : α} {x : Except ε α × σ} (h : okIs x.1 v = true) : x = (.ok v, x.2) := by
  obtain ⟨_ | a, _⟩ := x
  · cases h
  · simp [okIs] at h; simp [h]

theorem okEq {ε α : Type} (d : α) {x : Except ε α} (h : x.isOk = true) : x = .ok (okv d x) := by
  cases x
  · cases h
  · rfl

theorem somePair {α : Type} (d : α) {x : Option α} (h : x.isSome = true) : x = some (x.getD d) := by
  cases x
  · cases h
  · rfl

/-! ### The manual's worked examples -/

/-- The example of Table 4-11: L0 to L5 as FP32 bits. -/
def leaves411 : List Nat := [0x3F800000, 0x33800000, 0x33800000, 0x33800000, 0x3E800000, 0x3E800000]

/-- Table 4-11, undivided. -/
theorem test_treeSum_undivided : (treeSum false 25 leaves411).v = 0x3FC00000 := by decide +kernel
/-- Table 4-11, three parts of two leaves. -/
theorem test_treeSum_threeParts :
    (treeSum false 25 [(treeSum false 25 [0x3F800000, 0x33800000]).v, (treeSum false 25 [0x33800000, 0x33800000]).v,
      (treeSum false 25 [0x3E800000, 0x3E800000]).v]).v = 0x3FC00001 := by decide +kernel
/-- Table 4-11, class X. -/
theorem test_longSum_exact : (fround fp32 false (exactSum (leaves411.map (fun x => LongEl.ofFV (f32 x)))).1.fv).1 = 0x3FC00002 := by decide +kernel

/-- A half-empty weight tile (chapter "Matrix arrays"): MASK 0x0F0F, COUNT 8, TAG 0, FMT 2, OFFSET 0x0000765400003210. -/
theorem test_encode_header :
    (encodeTile { fmt := 2, uns := false, dense := false, mask := 0x0F0F, offs := 0x0000765400003210, bytes := List.replicate 4096 1 }).1.take 32
      = leBytes 2 0x0F0F ++ [0x08, 0x02] ++ leBytes 8 0x0000765400003210 ++ leBytes 20 0 := by decide +kernel

/-- The Dunmere hub: 2,900,000 neighbours have 45 segments under the default threshold. -/
theorem test_segCount_dunmere : runMc (segCount 2900000 16) State.reset = (.ok 45, State.reset) := by decide +kernel
/-- A partial of 64 elements in class S takes 448 B. -/
theorem test_partSize_dunmere : partSize 0 64 = 448 := by decide +kernel
/-- 64 slots of 4,480 B: the aggregation area takes 280 KiB. -/
theorem test_aggArea_harrowgate : aggArea 1 2 16 64 64 false = 280 * 1024 := by decide +kernel

/-- The address-token table: 64 elements with OPT 2 take 288, 160, 96 and 64 B by tier. -/
theorem test_recSize_addressTokens :
    ([0, 1, 2, 3].map (recSize (tdesc (leBytes 8 0 ++ leBytes 4 (64 + 2 * 2 ^ 10))))) = [288, 160, 96, 64] := by decide +kernel
/-- A staging area of 44 regions holds 9,011 rows. -/
theorem test_stagingRows_addressTokens : stagingRows 64 44 = 9011 := by decide +kernel
/-- A pooling slot of 64 elements in class S takes 6,272 B. -/
theorem test_poolSlot_addressTokens : poolSlot 1 64 = 6272 := by decide +kernel
/-- Table 7-17: classes F and S apply c, b, a; class X applies c, a, b. -/
theorem test_conBefore_order :
    let con := fun (chip pos : Nat) => ({ bay := 0, chip, tag := none, lpane := 0, cls := 1, table := 0, gfmt := 0, step := 301, row := 1733902,
                                          pos, weight := 0, data := [] } : Contrib)
    conBefore 1 (con 0 5) (con 0 40961) = true ∧ conBefore 1 (con 0 40961) (con 2 17) = true ∧
      conBefore 2 (con 0 5) (con 2 17) = true ∧ conBefore 2 (con 2 17) (con 0 40961) = true := by decide +kernel

/-- The census table: codes (7, 1, 305, 4) fall in cell 84,325; a district code of 412 is out of range. -/
theorem test_tabulate_cell :
    let m := fun (code : Nat) => ({ tbase := 0, nrec := 1, mode := 0, tloc := false, ndim := 4, waddr := 0, wfmt := 0, maddr := 0, men := false,
                                    dims := [(0, 0, 21), (1, 0, 3), (2, 1, 412), (4, 0, 9)] } : TabCmd)
    let s := fun (code : Nat) => (engine0 2 0).modPane 0 (fun p => { p with sp := [(0, 7), (1, 1), (2, BitVec.ofNat 8 code),
                                                                                   (3, BitVec.ofNat 8 (code / 256)), (4, 4)] })
    (runMc (readRecordCell 0 (m 305) 0) (s 305)).1 = .ok (some (some 84325, 1)) ∧
      (runMc (readRecordCell 0 (m 412) 0) (s 412)).1 = .ok (some (none, 1)) := by decide +kernel

/-- A fault in block 53: a descriptor of 80 blocks of 32 KiB, each of which moves the run-dry time by 512 ns. -/
theorem test_stream_blocks :
    let d := sdesc (leBytes 16 0 ++ leBytes 4 (128 + 2 * 2 ^ 24 + 2 ^ 27 + 2 ^ 31) ++ leBytes 2 512 ++ leBytes 2 40 ++ leBytes 4 0
      ++ leBytes 2 256 ++ leBytes 2 1000 ++ leBytes 4 128 ++ leBytes 12 65536 ++ leBytes 4 128 ++ leBytes 12 0)
    d.total = 80 ∧ d.full = 32768 ∧ rateTime d.full d.rate = 512 := by decide +kernel

/-- R195: LOG(+0) is −∞, SQRT(−0) is −0, RECIP(−0) is −∞, EXP(−∞) is +0. -/
theorem test_stageF_special :
    stageF 0x12 0 0 0 0 = 0xFF800000 ∧ stageF 0x0E 0 0x80000000 0 0 = 0x80000000 ∧ stageF 0x10 0 0x80000000 0 0 = 0xFF800000 ∧
      stageF 0x11 0 0xFF800000 0 0 = 0 := by decide +kernel

/-- Table 11-4, run B: the first signal releases the take of pane 10 alone, and the value is 0 again. -/
theorem test_signal_releases_one_take :
    let w := fun (task : Nat) => ({ obj := 0x1204, kind := 1, task, ctx := 0, thr := 1, expiry := none, parked := false } : Waiter)
    let s := { (State.reset.setObj 0x1204 { st := 1, val := 0 }).modBay 1 (fun x => { x with waiters := [w 10, w 9, w 11] }) with
      pwr := { st := 0 }, boot := { phase := 6, ready := true }
      tasks := [10, 9, 11].map (fun k => { task1 with id := k, st := .ready, ranOn := none })
      sigs := [{ obj := 0x1204, amount := 1, pane := 8, chip := 0, ctx := 0, task := none, completes := false, guards := [] }] }
    let t := match exec (.signalApply 1) s with | .next t => t | _ => s
    (t.obj 0x1204).val = 0 ∧ (t.bay 1).waiters = [w 9, w 11] := by decide +kernel

/-- New bay shares for B6: read 48 and write 24 make 72, check 1 rejects the commit at offset 0x20. -/
theorem test_commit_shares :
    let s := { up with staged := [(Reg.BAY_BSHARE 6, 0x00101830)] }
    let t := match exec (.ctlCommit 0x0601) s with | .next t => t | _ => s
    t.regN Reg.CTL_COMMITERR = 0x00010020 ∧ t.mgmt.commits = [] := by decide +kernel
/-- Read 40, write 16 and remote 8 make 64, and the commit is pending. -/
theorem test_commit_shares_pending :
    let s := { up with staged := [(Reg.BAY_BSHARE 6, 0x00081028)] }
    (match exec (.ctlCommit 0x0601) s with | .next t => t | _ => s).mgmt.commits = [0x0601] := by decide +kernel

/-- Reading a fault after a substitution: the alias of pane 52's NGE_FAULT, and the same once the spare bears the number. -/
theorem test_alias_substitution :
    resolve up 0x04342028 = 0x01652028 ∧
      resolve ((up.modPane 58 (fun p => { p with number := none })).modPane 62 (fun p => { p with number := some 52 })) 0x04342028
        = 0x01692028 := by decide +kernel

/-! ### Small steps -/

/-- R31: the array clock moves by one. -/
theorem test_step_arrayClock :
    let t := match step { up with pending := [.arrayClockStep 3] } with | .next t => t | _ => up
    (t.bay 3).clk = (up.bay 3).clk + 1 ∨ clkTarget (up.bay 3) = (up.bay 3).clk := by decide +kernel
/-- No word spells a command. -/
theorem test_decodeTableWord (nbits w : Nat) : decodeTableWord nbits w = none := rfl
/-- No word changes the queue. -/
theorem test_withFetchWord (s : State) (nbits w : Nat) : s.withFetchWord nbits w = s := rfl
/-- An instance that the package does not have. -/
theorem test_noSuchInstance : exec (.taskFetch 16) up = .fault .noSuchInstance := by rfl

/-! ### Operands that no command can carry -/

/-- One ill-formed operand for each check of each command. -/
theorem test_illFormed_0 : (
    [.arrayClockStep 16, .bayDoorbell 16 0, .bayDoorbell 0 (2 ^ 32), .taskFetch 16, .nop 144 0, .nop 0 (2 ^ 2048),
      .fence 144 0, .fence 0 (2 ^ 2048), .signal 144 0, .signal 0 (2 ^ 2048), .wait 144 0, .wait 0 (2 ^ 2048), .take 144 0,
      .take 0 (2 ^ 2048), .endList 144 0, .endList 0 (2 ^ 2048), .commandTimeLimit 144 0, .commandTimeLimit 0 8,
      .memoryChannelSlot 16 0 [], .memoryChannelSlot 0 32 [], .memoryChannelSlot 0 0 [(2 ^ 52, 1)],
      .memoryChannelSlot 0 0 [(0, 2 ^ 39)], .lintelPortSlot 16 0 false false, .lintelPortSlot 0 4 false false,
      .scratchpadBankSlot 144 0 ⟨0, 0, false, 0, []⟩, .scratchpadBankSlot 0 32 ⟨0, 0, false, 0, []⟩,
      .accumulatorPortSlot 144 0 ⟨0, 0, false, 0, []⟩, .accumulatorPortSlot 0 2 ⟨0, 0, false, 0, []⟩,
      .bayEngineCommandSlot 16 5, .bayEngineCommandSlot 0 4, .bayEngineCommandSlot 0 8, .switchDrained 144,
      .switchSaveDone 144, .switchRestoreDone 144, .baySlotdataWrite 16 0, .baySlotdataWrite 0 (2 ^ 32), .baySlotdataRead 16,
      .paneSlotdataRead 144, .bayQerrClear 16 0, .bayQerrClear 0 (2 ^ 32), .matmul 144 0, .matmul 0 (2 ^ 2048),
      .matmulResultWrite 144, .drain 144 0, .drain 0 (2 ^ 2048), .encode 144 0, .encode 0 (2 ^ 2048), .chstep 144 0,
      .chstep 0 (2 ^ 2048), .chainRecordLand 16, .gather 144 0, .gather 0 (2 ^ 2048), .seggather 144 0,
      .seggather 0 (2 ^ 2048), .degscan 144 0, .degscan 0 (2 ^ 2048), .seqstage 144 0, .seqstage 0 (2 ^ 2048),
      .seqsoft 144 0, .seqsoft 0 (2 ^ 2048)] : List Instr).all (fun c => !c.wellFormed) = true := by decide +kernel
/-- One ill-formed operand for each check of each command. -/
theorem test_illFormed_1 : (
    [.narrowReadReturn 144 0, .sash 144 0, .sash 0 (2 ^ 2048), .reduce 144 0, .reduce 0 (2 ^ 2048), .tabulate 144 0,
      .tabulate 0 (2 ^ 2048), .lineUpdate 16, .tlookup 144 0, .tlookup 0 (2 ^ 2048), .tprefetch 144 0,
      .tprefetch 0 (2 ^ 2048), .tgrad 144 0, .tgrad 0 (2 ^ 2048), .tstepApply 144 0, .tstepApply 0 (2 ^ 2048),
      .tstepRefresh 144 0, .tstepRefresh 0 (2 ^ 2048), .trepl 144 0, .trepl 0 (2 ^ 2048), .tmigrate 144 0,
      .tmigrate 0 (2 ^ 2048), .trowwrite 144 0, .trowwrite 0 (2 ^ 2048), .rowRequest 16, .rowResponse 16, .contribution 16,
      .migrationCopyDone 16, .teCtrclr 16 0, .teCtrclr 0 (2 ^ 32), .sopen 144 0, .sopen 0 (2 ^ 2048), .srelease 144 0,
      .srelease 0 (2 ^ 2048), .spost 144 0, .spost 0 (2 ^ 2048), .scancel 144 0, .scancel 0 (2 ^ 2048),
      .blockDelivered 144 0, .blockDelivered 0 16, .streamSlip 144 0, .streamSlip 0 16, .seStrdataRead 144,
      .marginMonitorLow 16 0, .marginMonitorLow 0 32, .shutterStart 16, .shutterEnd 16, .retrainingFailure 16,
      .memRqtailWrite 16 0, .memRqtailWrite 0 (2 ^ 32), .memRack 16 0, .memRack 0 (2 ^ 32), .memSvcRetrain 16 0,
      .memSvcRetrain 0 32, .memSvcSelfTest 16 0, .memSvcSelfTest 0 32, .memSvcDeclareFailed 16 0, .memSvcDeclareFailed 0 32,
      .evacuationCopyDone 16, .stackTemperatureRead 16 []] : List Instr).all (fun c => !c.wellFormed) = true := by decide +kernel
/-- One ill-formed operand for each check of each command. -/
theorem test_illFormed_2 : (
    [.pageWalkLine 16 0, .walkrsp 16, .companionWalkTimeout 16 0, .inval 16, .invack 16, .xltFresolve (2 ^ 32),
      .xltFntailWrite (2 ^ 32), .xltMptailWrite (2 ^ 32), .xltFlushTlb 16, .xltFlushOwner 16, .taskComplete 144,
      .dspTftailWrite 16 0, .dspTftailWrite 0 (2 ^ 32), .sliceExpiry 144, .blockedSwitch 144, .contextReset 16 0,
      .contextReset 0 (2 ^ 32), .signalApply 16, .waitTimeout 16 0, .synCreate 16 0, .synCreate 0 (2 ^ 32), .synDestroy 16 0,
      .synDestroy 0 (2 ^ 32), .synSetValue 16 0, .synSetValue 0 (2 ^ 32), .winPctrlRetrain 34, .winPctrlReplaceLane 34 0,
      .winPctrlDisable 34, .winPctrlEnable 34, .lightDetected 34 0, .lightDetected 0 (2 ^ 18), .darkRetry 34, .ringsTuned 34,
      .clockLock 34 0, .clockLock 0 (2 ^ 18), .lockTimeout 34, .trainingWord 34 0 0, .trainingWord 0 0 (2 ^ 128),
      .codeword 34 [], .codeword 0 [(544, 1)], .codeword 0 [(0, 1024)], .flitReceive 34 0, .flitReceive 0 (2 ^ 2048),
      .flitSend 34, .replayTimeout 34, .laneFault 34 0 false, .lightLost 34 0, .lightLost 0 (2 ^ 18), .drainDone 34,
      .drainTimeout 34, .flowRelease 16, .rdreq 16, .wrreq 16, .atomic 16, .rdresp 16, .wrack 16, .atack 16, .lkreq 16,
      .lkresp 16, .grad 16] : List Instr).all (fun c => !c.wellFormed) = true := by decide +kernel
/-- One ill-formed operand for each check of each command. -/
theorem test_illFormed_3 : (
    [.grack 16, .chrec 16, .signalMessage 16, .tesvc 16, .failover 34, .remoteTimeout 16 0, .xeRtflush 16 0,
      .xeRtflush 0 (2 ^ 32), .crds 2, .crdo 2, .crdu 2, .cwr 2, .cwb 2, .cevict 2, .snprsp 2, .snoopTimeout 16 0,
      .doorbell 2, .mgrd 2, .mgwr 2, .companionTimeout 16 0, .flxMsictlWrite 51 0, .flxMsictlWrite 0 (2 ^ 32),
      .ctlIrqtest (2 ^ 32), .check 144 0, .check 0 (2 ^ 2048), .powerUp 4096 0 0, .powerUp 0 4 0, .powerUp 0 0 2,
      .pinReset 4096 0 0, .pinReset 0 4 0, .pinReset 0 0 2, .restart 0, .restart 4, .recovery 0, .recovery 4,
      .ctlCommit (2 ^ 32), .secLoadToken 0, .secLoadToken 4, .secTokdata (2 ^ 32), .secFpdataWrite (2 ^ 32), .dbgReq 0 0,
      .dbgReq 4 0, .dbgReq 1 (2 ^ 32), .halt 0 0, .halt 4 0, .halt 1 (2 ^ 32), .resume 0 0, .resume 4 0, .resume 1 (2 ^ 32),
      .step 0 0, .step 4 0, .step 1 (2 ^ 32), .dbgMdataRead 0, .dbgMdataRead 4, .dbgMdataWrite 0 0, .dbgMdataWrite 4 0,
      .dbgMdataWrite 1 (2 ^ 32), .dbgFdata 0 0, .dbgFdata 4 0, .dbgFdata 1 (2 ^ 32)] : List Instr).all (fun c => !c.wellFormed) = true := by decide +kernel
/-- One ill-formed operand for each check of each command. -/
theorem test_illFormed_4 : (
    [.dbgTrcdataRead 0, .dbgTrcdataRead 4, .pwrReq (2 ^ 32), .junctionSensorRead 16 0, .targetedSelfTest (256 + 144),
      .selfTestVerdict (256 + 144) false false, .domainResetDone 1 144, .panesvcSelfTest 128, .panesvcReplace 128,
      .smbusRead (2 ^ 32), .smbusWrite (2 ^ 32) 0, .smbusWrite 0 (2 ^ 32), .smbusTimeout (2 ^ 32) false,
      .dbgacc (2 ^ 32) 0 false, .dbgacc 0 (2 ^ 32) false, .ctlTimeLoRead 0, .ctlTimeLoRead 4, .registerWrite 0 0 0,
      .registerWrite 4 0 0, .registerWrite 1 (2 ^ 32) 0, .registerWrite 1 0 (2 ^ 32), .supEventsClear (2 ^ 32)] : List Instr).all (fun c => !c.wellFormed) = true := by decide +kernel

/-- The same commands with sound operands. -/
theorem test_wellFormed_0 : (
    [.arrayClockStep 0, .bayDoorbell 0 0, .taskFetch 0, .nop 0 0, .fence 0 0, .signal 0 0, .wait 0 0, .take 0 0,
      .endList 0 0, .commandTimeLimit 0 0, .memoryChannelSlot 0 0 [], .lintelPortSlot 0 0 false false,
      .scratchpadBankSlot 0 0 ⟨0, 0, false, 0, []⟩, .accumulatorPortSlot 0 0 ⟨0, 0, false, 0, []⟩, .bayEngineCommandSlot 0 5,
      .switchDrained 0, .switchSaveDone 0, .switchRestoreDone 0, .baySlotdataWrite 0 0, .baySlotdataRead 0,
      .paneSlotdataRead 0, .bayQerrClear 0 0, .matmul 0 0, .matmulResultWrite 0, .drain 0 0, .encode 0 0, .chstep 0 0,
      .chainRecordLand 0, .gather 0 0, .seggather 0 0, .degscan 0 0, .seqstage 0 0, .seqsoft 0 0, .narrowReadReturn 0 0,
      .sash 0 0, .reduce 0 0, .tabulate 0 0, .lineUpdate 0, .tlookup 0 0, .tprefetch 0 0, .tgrad 0 0, .tstepApply 0 0,
      .tstepRefresh 0 0, .trepl 0 0, .tmigrate 0 0, .trowwrite 0 0, .rowRequest 0, .rowResponse 0, .contribution 0,
      .migrationCopyDone 0, .teCtrclr 0 0, .sopen 0 0, .srelease 0 0, .spost 0 0, .scancel 0 0, .blockDelivered 0 0,
      .streamSlip 0 0, .seStrdataRead 0, .marginMonitorLow 0 0, .shutterStart 0] : List Instr).all (fun c => c.wellFormed) = true := by decide +kernel
/-- The same commands with sound operands. -/
theorem test_wellFormed_1 : (
    [.shutterEnd 0, .retrainingFailure 0, .memRqtailWrite 0 0, .memRack 0 0, .memSvcRetrain 0 0, .memSvcSelfTest 0 0,
      .memSvcDeclareFailed 0 0, .evacuationCopyDone 0, .stackTemperatureRead 0 [], .pageWalkLine 0 0, .walkrsp 0,
      .companionWalkTimeout 0 0, .inval 0, .invack 0, .xltFresolve 0, .xltFntailWrite 0, .xltMptailWrite 0, .xltFlushTlb 0,
      .xltFlushOwner 0, .taskComplete 0, .dspTftailWrite 0 0, .sliceExpiry 0, .blockedSwitch 0, .contextReset 0 0,
      .signalApply 0, .waitTimeout 0 0, .synCreate 0 0, .synDestroy 0 0, .synSetValue 0 0, .winPctrlRetrain 0,
      .winPctrlReplaceLane 0 0, .winPctrlDisable 0, .winPctrlEnable 0, .lightDetected 0 0, .darkRetry 0, .ringsTuned 0,
      .clockLock 0 0, .lockTimeout 0, .trainingWord 0 0 0, .codeword 0 [], .flitReceive 0 0, .flitSend 0, .replayTimeout 0,
      .laneFault 0 0 false, .lightLost 0 0, .drainDone 0, .drainTimeout 0, .flowRelease 0, .rdreq 0, .wrreq 0, .atomic 0,
      .rdresp 0, .wrack 0, .atack 0, .lkreq 0, .lkresp 0, .grad 0, .grack 0, .chrec 0, .signalMessage 0] : List Instr).all (fun c => c.wellFormed) = true := by decide +kernel
/-- The same commands with sound operands. -/
theorem test_wellFormed_2 : (
    [.tesvc 0, .failover 0, .remoteTimeout 0 0, .xeRtflush 0 0, .crds 0, .crdo 0, .crdu 0, .cwr 0, .cwb 0, .cevict 0,
      .snprsp 0, .snoopTimeout 0 0, .doorbell 0, .mgrd 0, .mgwr 0, .companionTimeout 0 0, .flxMsictlWrite 0 0, .ctlIrqtest 0,
      .check 0 0, .powerUp 0 0 0, .pinReset 0 0 0, .restart 1, .recovery 1, .ctlCommit 0, .secLoadToken 1, .secTokdata 0,
      .secFpdataWrite 0, .dbgReq 1 0, .halt 1 0, .resume 1 0, .step 1 0, .dbgMdataRead 1, .dbgMdataWrite 1 0, .dbgFdata 1 0,
      .dbgTrcdataRead 1, .pwrReq 0, .junctionSensorRead 0 0, .targetedSelfTest 256, .selfTestVerdict 256 false false,
      .domainResetDone 1 0, .panesvcSelfTest 0, .panesvcReplace 0, .smbusRead 0, .smbusWrite 0 0, .smbusTimeout 0 false,
      .dbgacc 0 0 false, .ctlTimeLoRead 1, .registerWrite 1 0 0, .supEventsClear 0] : List Instr).all (fun c => c.wellFormed) = true := by decide +kernel

/-! ### Hypotheses that hold together -/

theorem witness_StepRunsFrontCommand_2 :
    ∃ (s : State),
      s.pwr.st ≠ 5 :=
  ⟨up, by decide +kernel⟩

def StepRunsFrontCommand3_s : State := { up with pwr := { st := 5 } }
theorem witness_StepRunsFrontCommand_3 :
    ∃ (s : State),
      s.pwr.st = 5 :=
  ⟨StepRunsFrontCommand3_s, by decide +kernel⟩

theorem witness_QueueIsFirstInFirstOut : ∃ (c : Instr) (s t : State), exec c s = .next t ∧ step { s with pending := [c] } = .next t :=
  ⟨.xltFlushTlb 0, up, _, rfl, rfl⟩

theorem witness_StrapsStayLegal : ∃ s t : State, StrapsLegal s ∧ step s = .next t := ⟨up, _, by unfold StrapsLegal; decide +kernel, rfl⟩

theorem witness_P5AnswersOnlyTheSupplyDie : ∃ (c : Instr) (s t : State),
    s.pwr.st = 5 ∧ samplesStraps c = false ∧ supplyEvent c = false ∧ exec c s = .next t :=
  ⟨.xltFlushTlb 0, { up with pwr := { st := 5 } }, _, rfl, rfl, rfl, rfl⟩

theorem witness_QueueRegistersAndDoorbells_1 :
    ∃ (b : Nat) (s : State),
      b < 16 ∧
      s.pwr.st ≠ 5 :=
  ⟨0, up, by decide +kernel⟩

def QueueRegistersAndDoorbells2_s : State := withBytes (withBytes up 0xC0 (leBytes 8 0x1000 ++ leBytes 4 0x140001 ++ leBytes 4 0)) 0x1000 (leBytes 8 1 ++ leBytes 8 0 ++ leBytes 4 16 ++ leBytes 4 0xFFFFFFFF)
theorem witness_QueueRegistersAndDoorbells_2 :
    ∃ (b : Nat) (v : Nat) (s : State),
      b < 16 ∧
      regOpen s (Reg.BAY_DOORBELL b) = true ∧
      freeEntries s b ≠ 0 :=
  ⟨0, 0x30005, QueueRegistersAndDoorbells2_s, by decide +kernel⟩

def QueueRegistersAndDoorbells3_s : State := fetched (withBytes (withBytes up 0xC0 (leBytes 8 0x1000 ++ leBytes 4 0x140001 ++ leBytes 4 0)) 0x1000 (leBytes 8 1 ++ leBytes 8 0 ++ leBytes 4 16 ++ leBytes 4 0xFFFFFFFF)) (.bay 0 .doorbell) true 0xC0 64
def QueueRegistersAndDoorbells3_s1 : State := (runMc (sysRead (.bay (0) .doorbell) (qdescAddr (QueueRegistersAndDoorbells3_s) (0) (bits (0x30005) 23 16)) 64) (QueueRegistersAndDoorbells3_s)).2
def QueueRegistersAndDoorbells3_d : List Byte := okv ([]) (runMc (sysRead (.bay (0) .doorbell) (qdescAddr (QueueRegistersAndDoorbells3_s) (0) (bits (0x30005) 23 16)) 64) (QueueRegistersAndDoorbells3_s)).1
theorem witness_QueueRegistersAndDoorbells_3 :
    ∃ (b : Nat) (v : Nat) (s : State) (s1 : State) (d : List Byte),
      runMc (sysRead (.bay b .doorbell) (qdescAddr s b (bits v 23 16)) 64) s = (.ok d, s1) ∧
      bit (field d 8 4) 20 = true :=
  ⟨0, 0x30005, QueueRegistersAndDoorbells3_s, QueueRegistersAndDoorbells3_s1, QueueRegistersAndDoorbells3_d, okPair _ (by decide +kernel), by decide +kernel⟩

def QueueRegistersAndDoorbells4_s : State := { up with tasks := List.replicate 1024 task1 }
theorem witness_QueueRegistersAndDoorbells_4 :
    ∃ (b : Nat) (v : Nat) (s : State),
      b < 16 ∧
      regOpen s (Reg.BAY_DOORBELL b) = true ∧
      freeEntries s b = 0 :=
  ⟨0, 0x30005, QueueRegistersAndDoorbells4_s, by decide +kernel⟩

theorem witness_QueueRegistersAndDoorbells_5 :
    ∃ (b : Nat) (v : Nat) (s : State),
      b < 16 ∧
      regOpen s (Reg.BAY_QERR b) = true ∧
      bit v 31 = true :=
  ⟨0, 2 ^ 31, up, by decide +kernel⟩

def TaskFetchTakesOneEntry1_s : State := fetched (fetched ((withBytes (withBytes up 0xC0 (leBytes 8 0x1000 ++ leBytes 4 0x140001 ++ leBytes 4 0)) 0x1000 (leBytes 8 1 ++ leBytes 8 0 ++ leBytes 4 16 ++ leBytes 4 0xFFFFFFFF)).modBay 0 (fun x => { x with tails := [(3, some 5)] })) (.bay 0 .fetch) true 0xC0 64) (.bay 0 .fetch) true 0x1000 64
def TaskFetchTakesOneEntry1_s1 : State := (TaskFetchTakesOneEntry1_s)
def TaskFetchTakesOneEntry1_d : List Byte := okv [] (runMc (sysRead (.bay 0 .fetch) 0xC0 64) (TaskFetchTakesOneEntry1_s)).1
def TaskFetchTakesOneEntry1_e : List Byte := okv ([]) (runMc (sysRead (.bay (0) .fetch) (field (TaskFetchTakesOneEntry1_d) 0 8 + 64 * (field (TaskFetchTakesOneEntry1_d) 12 2 % 2 ^ bits (field (TaskFetchTakesOneEntry1_d) 8 4) 19 16)) 64) (TaskFetchTakesOneEntry1_s1)).1
def TaskFetchTakesOneEntry1_s2 : State := (runMc (sysRead (.bay (0) .fetch) (field (TaskFetchTakesOneEntry1_d) 0 8 + 64 * (field (TaskFetchTakesOneEntry1_d) 12 2 % 2 ^ bits (field (TaskFetchTakesOneEntry1_d) 8 4) 19 16)) 64) (TaskFetchTakesOneEntry1_s1)).2
theorem witness_TaskFetchTakesOneEntry_1 :
    ∃ (b : Nat) (q : Nat) (qs : List Nat) (d : List Byte) (e : List Byte) (s : State) (s1 : State) (s2 : State),
      (b < 16 ∧
      s.pwr.st ≠ 5 ∧
      freeEntries s b ≠ 0 ∧
      visitOrder (s.bay b) = q :: qs) ∧
      runMc (fetchable b q) s = (.ok (some d), s1) ∧
      runMc (sysRead (.bay b .fetch) (field d 0 8 + 64 * (field d 12 2 % 2 ^ bits (field d 8 4) 19 16)) 64) s1 = (.ok e, s2) ∧
      (entryFault e (field d 8 2) = none ∧
      field e 20 4 = 0xFFFFFFFF) ∧
      let t := entryTask s2 b q (field d 12 2 % 2 ^ bits (field d 8 4) 19 16) e
      let s3 := (sysPost s2 (.bay b .fetch) (qdescAddr s2 b q + 12) (leBytes 2 ((field d 12 2 + 1) % 65536))).modBay b
        (fun x => { x with lastQ := q })
      (t.anypane = true ∨ numberOut s2 (b * 8 + t.lpane) = false) :=
  ⟨0, 3, [], TaskFetchTakesOneEntry1_d, TaskFetchTakesOneEntry1_e, TaskFetchTakesOneEntry1_s, TaskFetchTakesOneEntry1_s1, TaskFetchTakesOneEntry1_s2, by decide +kernel, okPairV (by decide +kernel), okPair _ (by decide +kernel), by decide +kernel, by decide +kernel⟩

def SequencerCommandsComplete1_c : Nat := cmdOf 0 0 16 0x100000001
def SequencerCommandsComplete1_s : State := waiting0 0 (cmdOf 0 0 16 0x100000001)
def SequencerCommandsComplete1_s1 : State := (startState (SequencerCommandsComplete1_s) (0) (SequencerCommandsComplete1_c) (seqRow 0) (fun _ => false)).getD (State.reset)
theorem witness_SequencerCommandsComplete_1 :
    ∃ (i : Nat) (c : Nat) (s : State) (s1 : State),
      (i < 144 ∧
      s.pwr.st ≠ 5 ∧
      plainForm c 16 = true) ∧
      startState s i c (seqRow 0) (fun _ => false) = some s1 :=
  ⟨0, SequencerCommandsComplete1_c, SequencerCommandsComplete1_s, SequencerCommandsComplete1_s1, by decide +kernel, somePair _ (by decide +kernel)⟩

def SequencerCommandsComplete2_c : Nat := cmdOf 0 1 16 0x100000001
def SequencerCommandsComplete2_s : State := waiting0 0 (cmdOf 0 1 16 0x100000001)
def SequencerCommandsComplete2_s1 : State := (startState (SequencerCommandsComplete2_s) (0) (SequencerCommandsComplete2_c) (seqRow 1) (fun _ => false)).getD (State.reset)
theorem witness_SequencerCommandsComplete_2 :
    ∃ (i : Nat) (c : Nat) (s : State) (s1 : State),
      (i < 144 ∧
      s.pwr.st ≠ 5 ∧
      plainForm c 16 = true) ∧
      startState s i c (seqRow 1) (fun _ => false) = some s1 ∧
      (s1.pane i).seq.inflight.length ≤ 1 :=
  ⟨0, SequencerCommandsComplete2_c, SequencerCommandsComplete2_s, SequencerCommandsComplete2_s1, by decide +kernel, somePair _ (by decide +kernel), by decide +kernel⟩

def SequencerCommandsComplete3_c : Nat := cmdOf 0 2 16 0x100000001
def SequencerCommandsComplete3_s : State := waiting0 0 (cmdOf 0 2 16 0x100000001)
def SequencerCommandsComplete3_s1 : State := (startState (SequencerCommandsComplete3_s) (0) (SequencerCommandsComplete3_c) (seqRow 2) (fun _ => false)).getD (State.reset)
theorem witness_SequencerCommandsComplete_3 :
    ∃ (i : Nat) (c : Nat) (s : State) (s1 : State),
      (i < 144 ∧
      s.pwr.st ≠ 5 ∧
      plainForm c 16 = true) ∧
      startState s i c (seqRow 2) (fun _ => false) = some s1 ∧
      cbytes c 10 2 = 0 :=
  ⟨0, SequencerCommandsComplete3_c, SequencerCommandsComplete3_s, SequencerCommandsComplete3_s1, by decide +kernel, somePair _ (by decide +kernel), by decide +kernel⟩

def SequencerCommandsComplete4_c : Nat := cmdOf 0 5 16 0x100000001
def SequencerCommandsComplete4_s : State := waiting0 0 (cmdOf 0 5 16 0x100000001)
def SequencerCommandsComplete4_s1 : State := (startState (SequencerCommandsComplete4_s) (0) (SequencerCommandsComplete4_c) (seqRow 5) (fun _ => false)).getD (State.reset)
theorem witness_SequencerCommandsComplete_4 :
    ∃ (i : Nat) (c : Nat) (s : State) (s1 : State),
      (i < 144 ∧
      s.pwr.st ≠ 5 ∧
      plainForm c 16 = true) ∧
      startState s i c (seqRow 5) (fun _ => false) = some s1 :=
  ⟨0, SequencerCommandsComplete4_c, SequencerCommandsComplete4_s, SequencerCommandsComplete4_s1, by decide +kernel, somePair _ (by decide +kernel)⟩

def SequencerCommandsComplete5_c : Nat := cmdOf 0 4 16 0x100000001
def SequencerCommandsComplete5_s : State := waiting0 0 (cmdOf 0 4 16 0x100000001)
def SequencerCommandsComplete5_s1 : State := (startState (SequencerCommandsComplete5_s) (0) (SequencerCommandsComplete5_c) (seqRow (3 + (1))) (fun _ => false)).getD (State.reset)
def SequencerCommandsComplete5_t : Task := (((SequencerCommandsComplete5_s1).pane (0)).task.bind (SequencerCommandsComplete5_s1).taskOf).getD (task1)
theorem witness_SequencerCommandsComplete_5 :
    ∃ (i : Nat) (c : Nat) (kind : Nat) (s : State) (s1 : State) (t : Task),
      (i < 144 ∧
      s.pwr.st ≠ 5 ∧
      plainForm c 16 = true ∧
      kind < 2) ∧
      startState s i c (seqRow (3 + kind)) (fun _ => false) = some s1 ∧
      (s1.pane i).task.bind s1.taskOf = some t :=
  ⟨0, SequencerCommandsComplete5_c, 1, SequencerCommandsComplete5_s, SequencerCommandsComplete5_s1, SequencerCommandsComplete5_t, by decide +kernel, somePair _ (by decide +kernel), somePair _ (by decide +kernel)⟩

def CommandStartConditions1_s : State := fetched (withBytes busy0 0 (leBytes 16 (cmdOf 0 0 16 0))) (.cmd 0 0) false 0 16
def CommandStartConditions1_sp : State := (runMc (readCmd (0) (cmdOf 0 0 16 0)) (CommandStartConditions1_s)).2
theorem witness_CommandStartConditions_1 :
    ∃ (i : Nat) (c : Nat) (r : CmdRow) (busy : State → Bool) (s : State) (s' : State),
      (waitsToStart s i c r = false ∧
      mayIssue s i = true) ∧
      runMc (readCmd i c) s = (.ok true, s') ∧
      engKnown (hEng c) = true ∧
      hRsv c = 0 ∧
      (s'.pane i).seq.pc + hLen c ≤ (s'.pane i).seq.listEnd ∧
      hEng c = r.eng ∧
      hOp c = r.op ∧
      opKnown r.eng r.op = true ∧
      (∀ e ∈ (s'.pane i).seq.inflight, bit (hWait c) e = false) ∧
      (∀ u ∈ (s'.pane i).seq.unstarted, u.1 ≠ r.eng) ∧
      busy s' = false ∧
      (5 ≤ r.eng → bayAccepts s' i r.eng = true) :=
  ⟨0, cmdOf 0 0 16 0, seqRow 0, fun _ => false, CommandStartConditions1_s, CommandStartConditions1_sp, by decide +kernel, okPairV (by decide +kernel), by decide +kernel⟩

def CommandStartConditions2_s : State := waiting0 0 (cmdOf 0 0 16 0)
theorem witness_CommandStartConditions_2 :
    ∃ (i : Nat) (c : Nat) (r : CmdRow) (busy : State → Bool) (s : State),
      waitsToStart s i c r = true ∧
      busy s = false ∧
      (5 ≤ r.eng → reading s i r.eng = true ∨ bayAccepts s i r.eng = true) :=
  ⟨0, cmdOf 0 0 16 0, seqRow 0, fun _ => false, CommandStartConditions2_s, by decide +kernel⟩

def CommandStartConditions3_s : State := busy0.modPane 0 (fun p => { p with seq := { p.seq with inflight := [2] } })
theorem witness_CommandStartConditions_3 :
    ∃ (i : Nat) (eng : Nat) (s : State),
      i < 144 ∧
      s.pwr.st ≠ 5 ∧
      (eng = 1 ∨ eng = 2 ∨ eng = 3 ∨ eng = 5) ∧
      0 < runningOf (s.pane i).seq eng ∧
      (eng = 5 → ∀ j ∈ (s.bay (bayOf i)).te.jobs, j.pane = i → j.op ≠ 4 ∧ j.op ≠ 6) :=
  ⟨0, 2, CommandStartConditions3_s, by decide +kernel⟩

def TasksCompleteAndGiveWay1_s : State := busy0.modPane 0 (fun p => { p with seq := { p.seq with ended := true } })
def TasksCompleteAndGiveWay1_t : Task := (((TasksCompleteAndGiveWay1_s).pane (0)).task.bind (TasksCompleteAndGiveWay1_s).taskOf).getD (task1)
theorem witness_TasksCompleteAndGiveWay_1 :
    ∃ (i : Nat) (s : State) (t : Task),
      (i < 144 ∧
      s.pwr.st ≠ 5 ∧
      taskDone (s.pane i) = true) ∧
      (s.pane i).task.bind s.taskOf = some t :=
  ⟨0, TasksCompleteAndGiveWay1_s, TasksCompleteAndGiveWay1_t, by decide +kernel, somePair _ (by decide +kernel)⟩

def TasksCompleteAndGiveWay2_s : State := { busy0 with tasks := [task1, { task1 with id := 2, st := .ready, ranOn := none }] }
def TasksCompleteAndGiveWay2_x : Task := (((TasksCompleteAndGiveWay2_s).pane (0)).task.bind (TasksCompleteAndGiveWay2_s).taskOf).getD (task1)
def TasksCompleteAndGiveWay2_c : Task := (candidate (TasksCompleteAndGiveWay2_s) (0)).getD (task1)
theorem witness_TasksCompleteAndGiveWay_2 :
    ∃ (i : Nat) (s : State) (x : Task) (c : Task),
      (i < 144 ∧
      s.pwr.st ≠ 5 ∧
      (s.pane i).blockedAt = none) ∧
      (s.pane i).task.bind s.taskOf = some x ∧
      candidate s i = some c ∧
      (s.pane i).sw = none ∧
      (s.pane i).halted = false ∧
      x.prio = c.prio :=
  ⟨0, TasksCompleteAndGiveWay2_s, TasksCompleteAndGiveWay2_x, TasksCompleteAndGiveWay2_c, by decide +kernel, somePair _ (by decide +kernel), somePair _ (by decide +kernel), by decide +kernel⟩

def TasksCompleteAndGiveWay3_s : State := ({ busy0 with tasks := [task1, { task1 with id := 2, st := .ready, ranOn := none }] }).modPane 0 (fun p => { p with blockedAt := some 0 })
def TasksCompleteAndGiveWay3_c : Task := (candidate (TasksCompleteAndGiveWay3_s) (0)).getD (task1)
theorem witness_TasksCompleteAndGiveWay_3 :
    ∃ (i : Nat) (s : State) (c : Task),
      (i < 144 ∧
      s.pwr.st ≠ 5 ∧
      (s.pane i).blockedAt.isSome = true ∧
      (s.pane i).sw = none ∧
      (s.pane i).halted = false) ∧
      candidate s i = some c :=
  ⟨0, TasksCompleteAndGiveWay3_s, TasksCompleteAndGiveWay3_c, by decide +kernel, somePair _ (by decide +kernel)⟩

theorem witness_TasksCompleteAndGiveWay_4 :
    ∃ (b : Nat) (v : Nat) (s : State),
      b < 16 ∧
      regOpen s (Reg.DSP_TFTAIL b) = true :=
  ⟨0, 3, up, by decide +kernel⟩

def TasksCompleteAndGiveWay5_s : State := up.modBay 0 (fun x => { x with tfHeld := [{ ctx := 0, code := 1, engine := 0, queue := 0, pane := 0, ran := true, index := 0, tag := 0, addr := 0, time := 0, task := none }] }) |>.setReg (Reg.DSP_TFTAIL 0) 9
def TasksCompleteAndGiveWay5_r : TfRec := { ctx := 0, code := 1, engine := 0, queue := 0, pane := 0, ran := true, index := 0, tag := 0, addr := 0, time := 0, task := none }
theorem witness_TasksCompleteAndGiveWay_5 :
    ∃ (b : Nat) (s : State) (r : TfRec) (rs : List TfRec),
      ((s.bay b).tfHeld = r :: rs ∧
      (s.bay b).tfStuck = false ∧
      (s.regN (Reg.DSP_TFHEAD b) + 1) % 256 ≠ s.regN (Reg.DSP_TFTAIL b) ∧
      ringBusy s 0 b = false) ∧
      let a := s.reg64 (Reg.DSP_TFBASE_LO b) (Reg.DSP_TFBASE_HI b) + 32 * s.regN (Reg.DSP_TFHEAD b)
      (linesIn (localPa a) 32).any (outOfMap s) = false :=
  ⟨0, TasksCompleteAndGiveWay5_s, TasksCompleteAndGiveWay5_r, [], by decide +kernel, by decide +kernel⟩

def SyncObjectsFollowTheirRules1_s : State := { (up.setReg (Reg.SYN_SEL 0) 5).setObj 5 { st := 1, val := 2 } with sigs := [{ obj := 5, amount := 1, pane := 0, chip := 0, ctx := 0, task := none, completes := false, guards := [] }] }
def SyncObjectsFollowTheirRules1_g : Sig := (nextSignal (SyncObjectsFollowTheirRules1_s) (0)).getD ({ obj := 0, amount := 0, pane := 0, chip := 0, ctx := 0, task := none, completes := false, guards := [] })
theorem witness_SyncObjectsFollowTheirRules_1 :
    ∃ (b : Nat) (s : State) (g : Sig),
      (b < 16 ∧
      s.pwr.st ≠ 5) ∧
      nextSignal s b = some g ∧
      refusal (s.obj g.obj) g.ctx = none :=
  ⟨0, SyncObjectsFollowTheirRules1_s, SyncObjectsFollowTheirRules1_g, by decide +kernel, somePair _ (by decide +kernel), by decide +kernel⟩

theorem witness_SyncObjectsFollowTheirRules_2 :
    ∃ (b : Nat) (v : Nat) (s : State),
      b < 16 ∧
      regOpen s (Reg.SYN_CTRL b) = true ∧
      (s.obj (selObj s b)).st = 0 :=
  ⟨0, 1, up, by decide +kernel⟩

def SyncObjectsFollowTheirRules3_s : State := (up.setReg (Reg.SYN_SEL 0) 5).setObj 5 { st := 1, val := 2 }
theorem witness_SyncObjectsFollowTheirRules_3 :
    ∃ (b : Nat) (v : Nat) (s : State),
      b < 16 ∧
      regOpen s (Reg.SYN_CTRL b) = true ∧
      (s.obj (selObj s b)).st ≠ 0 :=
  ⟨0, 1, SyncObjectsFollowTheirRules3_s, by decide +kernel⟩

theorem witness_SyncObjectsFollowTheirRules_4 :
    ∃ (b : Nat) (v : Nat) (s : State),
      b < 16 ∧
      regOpen s (Reg.SYN_CTRL b) = true :=
  ⟨0, 2, up, by decide +kernel⟩

def SyncObjectsFollowTheirRules5_s : State := (up.setReg (Reg.SYN_SEL 0) 5).setObj 5 { st := 1, val := 2 }
theorem witness_SyncObjectsFollowTheirRules_5 :
    ∃ (b : Nat) (v : Nat) (s : State),
      b < 16 ∧
      regOpen s (Reg.SYN_CTRL b) = true ∧
      (s.obj (selObj s b)).st = 1 :=
  ⟨0, 4, SyncObjectsFollowTheirRules5_s, by decide +kernel⟩

def SyncObjectsFollowTheirRules6_s : State := up.modBay 0 (fun x => { x with waiters := [wt1] })
theorem witness_SyncObjectsFollowTheirRules_6 :
    ∃ (b : Nat) (k : Nat) (s : State) (w : Waiter),
      b < 16 ∧
      s.pwr.st ≠ 5 ∧
      ((s.bay b).waiters ++ (s.bay b).stalledWaits)[k]? = some w ∧
      w.expiry.isSome = true :=
  ⟨0, 0, SyncObjectsFollowTheirRules6_s, wt1, by decide +kernel⟩

def ContextSwitchSteps1_s : State := busy0.modPane 0 (fun p => { p with sw := some { step := 2, outTask := some 1, outState := .ready, inTask := some 2, interrupt := false } })
def ContextSwitchSteps1_w : Switch := { step := 2, outTask := some 1, outState := .ready, inTask := some 2, interrupt := false }
theorem witness_ContextSwitchSteps_1 :
    ∃ (i : Nat) (s : State) (w : Switch),
      (i < 144 ∧
      s.pwr.st ≠ 5 ∧
      drained s i = true) ∧
      let s1 := (List.range 8).foldl (fun s e => dropFetched s i e) (stopStreams s i)
      (s1.pane i).sw = some w :=
  ⟨0, ContextSwitchSteps1_s, ContextSwitchSteps1_w, by decide +kernel, by decide +kernel⟩

def ContextSwitchSteps2_s : State := ({ busy0 with tasks := [{ task1 with spcount := 0, accmask := 0 }, { task1 with id := 2, spcount := 0, accmask := 0 }] }).modPane 0 (fun p => { p with sw := some { step := 4, outTask := some 1, outState := .ready, inTask := some 2, interrupt := false, laid := true } })
def ContextSwitchSteps2_w : Switch := { step := 4, outTask := some 1, outState := .ready, inTask := some 2, interrupt := false, laid := true }
def ContextSwitchSteps2_t : Task := ((ContextSwitchSteps2_w).outTask.bind (ContextSwitchSteps2_s).taskOf).getD (task1)
def ContextSwitchSteps2_u : Task := ((ContextSwitchSteps2_w).inTask.bind (ContextSwitchSteps2_s).taskOf).getD (task1)
theorem witness_ContextSwitchSteps_2 :
    ∃ (i : Nat) (s : State) (w : Switch) (t : Task) (u : Task),
      (i < 144 ∧
      s.pwr.st ≠ 5 ∧
      swReady (s.pane i) 4 = true ∧
      (s.pane i).sw = some w) ∧
      w.outTask.bind s.taskOf = some t ∧
      w.inTask.bind s.taskOf = some u :=
  ⟨0, ContextSwitchSteps2_s, ContextSwitchSteps2_w, ContextSwitchSteps2_t, ContextSwitchSteps2_u, by decide +kernel, somePair _ (by decide +kernel), somePair _ (by decide +kernel)⟩

def ContextSwitchSteps3_s : State := fetched ((withBytes ({ busy0 with tasks := [{ task1 with spcount := 0, accmask := 0 }, { task1 with id := 2, spcount := 0, accmask := 0 }] }) 0 (leBytes 4 0x10000))) (.start 0 2) true 0 128 |>.modPane 0 (fun p => { p with sw := some { step := 5, outTask := none, outState := .ready, inTask := some 2, interrupt := true, laid := true } })
def ContextSwitchSteps3_w : Switch := { step := 5, outTask := none, outState := .ready, inTask := some 2, interrupt := true, laid := true }
def ContextSwitchSteps3_t : Task := ((ContextSwitchSteps3_w).inTask.bind (ContextSwitchSteps3_s).taskOf).getD (task1)
def ContextSwitchSteps3_s1 : State := (runMc (startRecord (0) (ContextSwitchSteps3_t).id (ContextSwitchSteps3_t).ctx) (ContextSwitchSteps3_s)).2
def ContextSwitchSteps3_r : List Byte := okv ([]) (runMc (startRecord (0) (ContextSwitchSteps3_t).id (ContextSwitchSteps3_t).ctx) (ContextSwitchSteps3_s)).1
theorem witness_ContextSwitchSteps_3 :
    ∃ (i : Nat) (s : State) (s1 : State) (r : List Byte) (w : Switch) (t : Task),
      (i < 144 ∧
      s.pwr.st ≠ 5 ∧
      swReady (s.pane i) 5 = true ∧
      (s.pane i).sw = some w) ∧
      w.inTask.bind s.taskOf = some t ∧
      runMc (startRecord i t.id t.ctx) s = (.ok r, s1) :=
  ⟨0, ContextSwitchSteps3_s, ContextSwitchSteps3_s1, ContextSwitchSteps3_r, ContextSwitchSteps3_w, ContextSwitchSteps3_t, by decide +kernel, somePair _ (by decide +kernel), okPair _ (by decide +kernel)⟩

def ContextSwitchSteps4_s : State := fetched ((withBytes ({ busy0 with tasks := [{ task1 with spcount := 0, accmask := 0 }, { task1 with id := 2, spcount := 0, accmask := 0 }] }) 0 (leBytes 4 0x10000))) (.start 0 2) true 0 128 |>.modPane 0 (fun p => { p with sw := some { step := 6, outTask := none, outState := .ready, inTask := some 2, interrupt := false, laid := true, got := leBytes 64 0x10 } })
def ContextSwitchSteps4_w : Switch := { step := 6, outTask := none, outState := .ready, inTask := some 2, interrupt := false, laid := true, got := leBytes 64 0x10 }
def ContextSwitchSteps4_t : Task := ((ContextSwitchSteps4_w).inTask.bind (ContextSwitchSteps4_s).taskOf).getD (task1)
def ContextSwitchSteps4_s1 : State := (runMc (startRecord (0) (ContextSwitchSteps4_t).id (ContextSwitchSteps4_t).ctx) (ContextSwitchSteps4_s)).2
def ContextSwitchSteps4_r : List Byte := okv ([]) (runMc (startRecord (0) (ContextSwitchSteps4_t).id (ContextSwitchSteps4_t).ctx) (ContextSwitchSteps4_s)).1
theorem witness_ContextSwitchSteps_4 :
    ∃ (i : Nat) (s : State) (s1 : State) (r : List Byte) (w : Switch) (t : Task),
      ((s.pane i).stalled = false ∧
      (s.pane i).sw = some w ∧
      w.step = 6 ∧
      w.laid = true ∧
      w.todo = [] ∧
      w.page = none) ∧
      w.inTask.bind s.taskOf = some t ∧
      runMc (startRecord i t.id t.ctx) s = (.ok r, s1) :=
  ⟨0, ContextSwitchSteps4_s, ContextSwitchSteps4_s1, ContextSwitchSteps4_r, ContextSwitchSteps4_w, ContextSwitchSteps4_t, by decide +kernel, somePair _ (by decide +kernel), okPair _ (by decide +kernel)⟩

def SlotTablesAndLocalSlots1_s : State := up.setReg (Reg.BAY_SLOTSEL 0) 0x10013
theorem witness_SlotTablesAndLocalSlots_1 :
    ∃ (b : Nat) (v : Nat) (k : Nat) (n : Nat) (j : Nat) (s : State),
      b < 16 ∧
      regOpen s (Reg.BAY_SLOTDATA b) = true ∧
      s.mgmt.commits.contains (1 + b * 2 ^ 8) = false ∧
      slotSel s b = some (k, n, j) :=
  ⟨0, 0x10, 3, 1, 1, SlotTablesAndLocalSlots1_s, by decide +kernel⟩

def SlotTablesAndLocalSlots2_s : State := { up with mgmt := { commits := [1] } }
theorem witness_SlotTablesAndLocalSlots_2 :
    ∃ (b : Nat) (v : Nat) (s : State),
      b < 16 ∧
      regOpen s (Reg.BAY_SLOTDATA b) = true ∧
      s.mgmt.commits.contains (1 + b * 2 ^ 8) = true :=
  ⟨0, 0x10, SlotTablesAndLocalSlots2_s, by decide +kernel⟩

def SlotTablesAndLocalSlots3_s : State := up.setReg (Reg.BAY_SLOTSEL 0) 0x10013
theorem witness_SlotTablesAndLocalSlots_3 :
    ∃ (b : Nat) (k : Nat) (n : Nat) (j : Nat) (s : State),
      b < 16 ∧
      regOpen s (Reg.BAY_SLOTDATA b) = true ∧
      slotSel s b = some (k, n, j) :=
  ⟨0, 3, 1, 1, SlotTablesAndLocalSlots3_s, by decide +kernel⟩

def SlotTablesAndLocalSlots4_r : SramReq := { eng := 2, addr := 0x800, wr := true, data := 7, upsets := [(0x800, 1)] }
def SlotTablesAndLocalSlots4_s : State := busy0.modPane 0 (fun p => { p with slotSet := some (0, 0), slots := [(0, 0x12), (32 * 256, 0x11)] })
def SlotTablesAndLocalSlots4_s1 : State := (localSlot ((SlotTablesAndLocalSlots4_s).modPane (0) (fun p => { p with spErr := eccUpset p.spErr ((SlotTablesAndLocalSlots4_r).upsets.filter (fun u => u.1 / 64 % 32 == (0))) })) (0) (0)).2.2
def SlotTablesAndLocalSlots4_s2 : State := (runMc (if (SlotTablesAndLocalSlots4_r).wr then spWrite (0) (SlotTablesAndLocalSlots4_r).eng ((SlotTablesAndLocalSlots4_r).addr / 64 * 64) (leBytes 64 (SlotTablesAndLocalSlots4_r).data)
      else (do let _ ← spRead (0) (SlotTablesAndLocalSlots4_r).eng ((SlotTablesAndLocalSlots4_r).addr / 64 * 64) 64; pure ())) (SlotTablesAndLocalSlots4_s1)).2
theorem witness_SlotTablesAndLocalSlots_4 :
    ∃ (i : Nat) (bank : Nat) (r : SramReq) (s : State) (s1 : State) (s2 : State) (e : Nat) (j : Nat),
      (i < 144 ∧
      bank < 32 ∧
      s.pwr.st ≠ 5 ∧
      r.eng ≤ 7 ∧
      r.addr / 64 % 32 = bank) ∧
      let s0 := s.modPane i (fun p => { p with spErr := eccUpset p.spErr (r.upsets.filter (fun u => u.1 / 64 % 32 == bank)) })
      (bankTested s0 i bank = false ∧
      localSlot s0 i bank = (e, j, s1) ∧
      (s1.pane i).task.isSome = true ∧
      holdsLocal (s1.pane i) bank r.eng = true ∧
      bit e 4 = true ∧
      bits e 3 0 = r.eng) ∧
      runMc (if r.wr then spWrite i r.eng (r.addr / 64 * 64) (leBytes 64 r.data)
      else (do let _ ← spRead i r.eng (r.addr / 64 * 64) 64; pure ())) s1 = (.ok (), s2) :=
  ⟨0, 0, SlotTablesAndLocalSlots4_r, SlotTablesAndLocalSlots4_s, SlotTablesAndLocalSlots4_s1, SlotTablesAndLocalSlots4_s2, 0x12, 0, by decide +kernel, by decide +kernel, okPairV (by decide +kernel)⟩

def SlotTablesAndLocalSlots5_r : SramReq := { eng := 1, addr := 0x100, wr := true, data := 7, upsets := [] }
def SlotTablesAndLocalSlots5_s : State := busy0.modPane 0 (fun p => { p with slotSet := some (0, 0), slots := [(0, 0x12), (32 * 256, 0x11)] })
def SlotTablesAndLocalSlots5_s1 : State := (localSlot ((SlotTablesAndLocalSlots5_s).modPane (0) (fun p => { p with accErr := eccUpset p.accErr ((SlotTablesAndLocalSlots5_r).upsets.filter (fun u => u.1 < 0x200000)) })) (0) (32 + (0))).2.2
def SlotTablesAndLocalSlots5_t : Task := (((SlotTablesAndLocalSlots5_s1).pane (0)).task.bind (SlotTablesAndLocalSlots5_s1).taskOf).getD (task1)
theorem witness_SlotTablesAndLocalSlots_5 :
    ∃ (i : Nat) (port : Nat) (r : SramReq) (s : State) (s1 : State) (e : Nat) (j : Nat) (t : Task),
      (i < 144 ∧
      port < 2 ∧
      s.pwr.st ≠ 5 ∧
      r.eng ≤ 7) ∧
      let s0 := s.modPane i (fun p => { p with accErr := eccUpset p.accErr (r.upsets.filter (fun u => u.1 < 0x200000)) })
      localSlot s0 i (32 + port) = (e, j, s1) ∧
      (s1.pane i).task.bind s1.taskOf = some t ∧
      holdsLocal (s1.pane i) (32 + port) r.eng = true ∧
      bit e 4 = true ∧
      bits e 3 0 = r.eng ∧
      r.addr / 256 * 256 < 0x200000 ∧
      bit t.accmask (r.addr / 256 * 256 / 0x4000) = true ∧
      r.wr = true :=
  ⟨0, 0, SlotTablesAndLocalSlots5_r, SlotTablesAndLocalSlots5_s, SlotTablesAndLocalSlots5_s1, 0x11, 0, SlotTablesAndLocalSlots5_t, by decide +kernel, by decide +kernel, somePair _ (by decide +kernel), by decide +kernel⟩

theorem witness_SlotTablesAndLocalSlots_6 :
    ∃ (b : Nat) (eng : Nat) (s : State),
      b < 16 ∧
      5 ≤ eng ∧
      eng ≤ 7 ∧
      s.pwr.st ≠ 5 :=
  ⟨0, 5, up, by decide +kernel⟩

def PaneSlotWindowMovesOn1_s : State := up.setReg (Reg.PANE_SLOTSEL 0) 33
theorem witness_PaneSlotWindowMovesOn_1 :
    ∃ (i : Nat) (s : State),
      i < 144 ∧
      regOpen s (Reg.BAY_SLOTDATA (bayOf i)) = true ∧
      bits (s.regN (Reg.PANE_SLOTSEL i)) 5 0 ≤ 33 :=
  ⟨0, PaneSlotWindowMovesOn1_s, by decide +kernel⟩

def PaneSlotWindowMovesOn2_s : State := up.setReg (Reg.PANE_SLOTSEL 0) 34
theorem witness_PaneSlotWindowMovesOn_2 :
    ∃ (i : Nat) (s : State),
      i < 144 ∧
      regOpen s (Reg.BAY_SLOTDATA (bayOf i)) = true ∧
      33 < bits (s.regN (Reg.PANE_SLOTSEL i)) 5 0 :=
  ⟨0, PaneSlotWindowMovesOn2_s, by decide +kernel⟩

def PaneSlotWindowMovesOn3_s : State := up.setReg (Reg.PANE_SLOTSEL 143) 63
theorem witness_PaneSlotWindowMovesOn_3 :
    ∃ (i : Nat) (s : State),
      i < 144 ∧
      s.pwr.st ≠ 5 ∧
      s.rel.upd ≠ 3 ∧
      pathBusy s 1 = false ∧
      inReset s (Reg.PANE_SLOTDATA i) = false ∧
      accessReason s 1 (Reg.PANE_SLOTDATA i) false = 0 ∧
      33 < bits (s.regN (Reg.PANE_SLOTSEL i)) 5 0 :=
  ⟨143, PaneSlotWindowMovesOn3_s, by decide +kernel⟩

theorem witness_PaneSlotWindowMovesOn_4 :
    ∃ (i : Nat) (path : Nat) (v : Nat) (s : State),
      i < 144 ∧
      1 ≤ path ∧
      path ≤ 3 ∧
      v < 2 ^ 32 ∧
      s.pwr.st ≠ 5 ∧
      s.rel.upd ≠ 3 ∧
      pathBusy s path = false ∧
      accessReason s path (Reg.PANE_SLOTDATA i) true = 0 :=
  ⟨143, 3, 5, up, by decide +kernel⟩

def MemoryChannelSlotServes1a_s : State := up.modBay 0 (fun x => { x with framePos := [(0, 5)], slotIn := [(5, some 0)] })
theorem witness_MemoryChannelSlotServes_1a :
    ∃ (b : Nat) (ch : Nat) (ups : List (Nat × Nat)) (s : State),
      (b < 16 ∧
      ch < 32 ∧
      s.pwr.st ≠ 5) ∧
      let s1 := disturb s b ch ups
      let n := nextSlot s1 b 0 ch (chanSkips (s1.bay b).mem ch)
      let s2 := mergeUpdates (violations n.2.2.2.2 0 n.1 ((atChan n.2.2.2.2 b ch).filter (fun a =>
        checked a && !holdsSlot n.2.2.2.2 b 0 ch (chanOwner n.2.2.2.2 a).1 (chanOwner n.2.2.2.2 a).2.1 (chanOwner n.2.2.2.2 a).2.2))) b ch
      let can := fun (s : State) =>
        ((atChan s b ch).filter (fun a => chanNames s n.2.1 a && classFits n.2.2.1 a && accReady s a))
        ++ (updWrites s b ch).filter (fun a => chanNames s n.2.1 a && classFits n.2.2.1 a)
      n.2.2.2.1 = true :=
  ⟨0, 0, [(0, 1)], MemoryChannelSlotServes1a_s, by decide +kernel, by decide +kernel⟩

def MemoryChannelSlotServes1b_s : State := { up.modBay 0 (fun x => { x with mem := { x.mem with ready := true }, slotIn := [(0 * 2 ^ 18 + 0 * 2 ^ 13, some (0x1000 + 0x800 + 5 * 2 ^ 7))] }) with accs := [acc1] }
theorem witness_MemoryChannelSlotServes_1b :
    ∃ (b : Nat) (ch : Nat) (ups : List (Nat × Nat)) (s : State) (a : Access),
      (b < 16 ∧
      ch < 32 ∧
      s.pwr.st ≠ 5) ∧
      let s1 := disturb s b ch ups
      let n := nextSlot s1 b 0 ch (chanSkips (s1.bay b).mem ch)
      let s2 := mergeUpdates (violations n.2.2.2.2 0 n.1 ((atChan n.2.2.2.2 b ch).filter (fun a =>
        checked a && !holdsSlot n.2.2.2.2 b 0 ch (chanOwner n.2.2.2.2 a).1 (chanOwner n.2.2.2.2 a).2.1 (chanOwner n.2.2.2.2 a).2.2))) b ch
      let can := fun (s : State) =>
        ((atChan s b ch).filter (fun a => chanNames s n.2.1 a && classFits n.2.2.1 a && accReady s a))
        ++ (updWrites s b ch).filter (fun a => chanNames s n.2.1 a && classFits n.2.2.1 a)
      n.2.2.2.1 = false ∧
      firstOf s2 (can s2) = some a :=
  ⟨0, 0, [], MemoryChannelSlotServes1b_s, acc1, by decide +kernel, by decide +kernel⟩

def MemoryChannelSlotServes1c_s : State := up.modBay 0 (fun x => { x with mem := { x.mem with ready := true }, slotIn := [(0 * 2 ^ 18 + 0 * 2 ^ 13, some (0x1000 + 0x800 + 5 * 2 ^ 7))] })
theorem witness_MemoryChannelSlotServes_1c :
    ∃ (b : Nat) (ch : Nat) (ups : List (Nat × Nat)) (s : State),
      (b < 16 ∧
      ch < 32 ∧
      s.pwr.st ≠ 5) ∧
      let s1 := disturb s b ch ups
      let n := nextSlot s1 b 0 ch (chanSkips (s1.bay b).mem ch)
      let s2 := mergeUpdates (violations n.2.2.2.2 0 n.1 ((atChan n.2.2.2.2 b ch).filter (fun a =>
        checked a && !holdsSlot n.2.2.2.2 b 0 ch (chanOwner n.2.2.2.2 a).1 (chanOwner n.2.2.2.2 a).2.1 (chanOwner n.2.2.2.2 a).2.2))) b ch
      let can := fun (s : State) =>
        ((atChan s b ch).filter (fun a => chanNames s n.2.1 a && classFits n.2.2.1 a && accReady s a))
        ++ (updWrites s b ch).filter (fun a => chanNames s n.2.1 a && classFits n.2.2.1 a)
      n.2.2.2.1 = false ∧
      firstOf s2 (can s2) = none ∧
      (atChan s2 b ch).any (chanNames s2 n.2.1) = false :=
  ⟨0, 0, [], MemoryChannelSlotServes1c_s, by decide +kernel, by decide +kernel⟩


def LintelSlotsAndLineUpdates1_s : State := { up.modBay 0 (fun x => { x with mem := { x.mem with ready := true }, slotIn := [(1 * 2 ^ 18 + 0 * 2 ^ 13, some (0x1000 + 0x800 + 5 * 2 ^ 7))] }) with accs := [{ acc1 with stage := .reqOut }] }
def LintelSlotsAndLineUpdates1_a : Access := { acc1 with stage := .reqOut }
theorem witness_LintelSlotsAndLineUpdates_1 :
    ∃ (b : Nat) (l : Nat) (inward : Bool) (bad : Bool) (s : State) (a : Access),
      (b < 16 ∧
      l < 4 ∧
      s.pwr.st ≠ 5) ∧
      let kind := if inward then 2 else 1
      let n := nextSlot s b kind l (fun _ => linkSkipped s l (b * 2 + b2n inward))
      let s2 := violations n.2.2.2.2 kind n.1 (portViolators n.2.2.2.2 b l inward)
      let can := fun (s : State) => (atPort s b l inward).filter (fun a =>
        portNames n.2.1 a && (ofSwitch a || a.cls == n.2.2.1) && mayCross s b l inward a)
      n.2.2.2.1 = false ∧
      firstOf s2 (can s2) = some a :=
  ⟨0, 0, false, false, LintelSlotsAndLineUpdates1_s, LintelSlotsAndLineUpdates1_a, by decide +kernel, by decide +kernel⟩

def LintelSlotsAndLineUpdates2_s : State := { up with accs := [{ acc1 with op := .add 4, data := leBytes 32 7, purpose := .line 0 }] }
def LintelSlotsAndLineUpdates2_a : Access := { acc1 with op := .add 4, data := leBytes 32 7, purpose := .line 0 }
def LintelSlotsAndLineUpdates2_d : List Byte := okv ([]) (runMc (ctxRead (LintelSlotsAndLineUpdates2_a).ctx (localPa (LintelSlotsAndLineUpdates2_a).pa) (LintelSlotsAndLineUpdates2_a).len (chipOf (LintelSlotsAndLineUpdates2_s) (LintelSlotsAndLineUpdates2_a)) (LintelSlotsAndLineUpdates2_a).oldOwner) (LintelSlotsAndLineUpdates2_s)).1
def LintelSlotsAndLineUpdates2_s1 : State := (runMc (ctxRead (LintelSlotsAndLineUpdates2_a).ctx (localPa (LintelSlotsAndLineUpdates2_a).pa) (LintelSlotsAndLineUpdates2_a).len (chipOf (LintelSlotsAndLineUpdates2_s) (LintelSlotsAndLineUpdates2_a)) (LintelSlotsAndLineUpdates2_a).oldOwner) (LintelSlotsAndLineUpdates2_s)).2
theorem witness_LintelSlotsAndLineUpdates_2 :
    ∃ (b : Nat) (s : State) (s1 : State) (a : Access) (d : List Byte),
      isUpdate a = true ∧
      (∀ f m, a.purpose ≠ .host f m) ∧
      (ofAttest s a = false ∧
      a.len ≤ 64 * (a.sent + 1)) ∧
      runMc (ctxRead a.ctx (localPa a.pa) a.len (chipOf s a) a.oldOwner) s = (.ok d, s1) :=
  ⟨0, LintelSlotsAndLineUpdates2_s, LintelSlotsAndLineUpdates2_s1, LintelSlotsAndLineUpdates2_a, LintelSlotsAndLineUpdates2_d, by decide +kernel, (by intro _ _ h; cases h), by decide +kernel, okPair _ (by decide +kernel)⟩

def LintelSlotsAndLineUpdates3_s : State := { up.modMem 0 (fun m => { m with upd := [{ acc := { acc1 with op := .add 4, data := leBytes 32 7, purpose := .line 0 }, old := leBytes 32 1, new := none }] }) with accs := [{ acc1 with op := .add 4, data := leBytes 32 7, purpose := .line 0 }] }
def LintelSlotsAndLineUpdates3_u : Upd := { acc := { acc1 with op := .add 4, data := leBytes 32 7, purpose := .line 0 }, old := leBytes 32 1, new := none }
theorem witness_LintelSlotsAndLineUpdates_3 :
    ∃ (b : Nat) (s : State) (u : Upd),
      b < 16 ∧
      s.pwr.st ≠ 5 ∧
      (s.bay b).mem.upd.find? (canUpdate s b) = some u :=
  ⟨0, LintelSlotsAndLineUpdates3_s, LintelSlotsAndLineUpdates3_u, by decide +kernel⟩

def LintelSlotsAndLineUpdates4_s : State := { up.modMem 0 (fun m => { m with upd := [{ acc := { acc1 with op := .add 4, data := leBytes 32 7, purpose := .line 0 }, old := leBytes 32 1, new := some (leBytes 32 8) }] }) with accs := [{ acc1 with op := .add 4, data := leBytes 32 7, purpose := .line 0 }] }
def LintelSlotsAndLineUpdates4_u : Upd := { acc := { acc1 with op := .add 4, data := leBytes 32 7, purpose := .line 0 }, old := leBytes 32 1, new := some (leBytes 32 8) }
theorem witness_LintelSlotsAndLineUpdates_4 :
    ∃ (b : Nat) (s : State) (u : Upd) (d : List Byte),
      u.new = some d ∧
      u.acc.len ≤ 64 * (u.acc.sent + 1) ∧
      (linesIn (localPa u.acc.pa) u.acc.len).all (fun l => (dirLine s b l).isNone) = true :=
  ⟨0, LintelSlotsAndLineUpdates4_s, LintelSlotsAndLineUpdates4_u, leBytes 32 8, by decide +kernel⟩

theorem witness_RetirementAndRemoval_1 :
    ∃ (b : Nat) (v : Nat) (s : State),
      b < 16 ∧
      regOpen s (Reg.MEM_RQTAIL b) = true :=
  ⟨0, 3, up, by decide +kernel⟩

def RetirementAndRemoval2_s : State := up.modMem 0 (fun m => { m with ring := [(2, some { typ := 1, ch := 0, page := 0, time := 0 })], evac := some (1, false, false) })
def RetirementAndRemoval2_r : RetRec := { typ := 1, ch := 0, page := 0, time := 0 }
theorem witness_RetirementAndRemoval_2 :
    ∃ (b : Nat) (v : Nat) (s : State) (r : RetRec),
      b < 16 ∧
      regOpen s (Reg.MEM_RACK b) = true ∧
      tget none (s.bay b).mem.ring (v % 256) = some r ∧
      r.typ = 1 :=
  ⟨0, 2, RetirementAndRemoval2_s, RetirementAndRemoval2_r, by decide +kernel⟩

def RetirementAndRemoval3_s : State := up.modMem 0 (fun m => { m with ring := [(2, some { typ := 3, ch := 0, page := 0, time := 0 })], evac := some (1, false, false) })
def RetirementAndRemoval3_r : RetRec := { typ := 3, ch := 0, page := 0, time := 0 }
theorem witness_RetirementAndRemoval_3 :
    ∃ (b : Nat) (v : Nat) (ch : Nat) (l : Bool) (c : Bool) (s : State) (r : RetRec),
      b < 16 ∧
      regOpen s (Reg.MEM_RACK b) = true ∧
      tget none (s.bay b).mem.ring (v % 256) = some r ∧
      r.typ = 3 ∧
      (s.bay b).mem.evac = some (ch, l, c) :=
  ⟨0, 2, 1, false, false, RetirementAndRemoval3_s, RetirementAndRemoval3_r, by decide +kernel⟩

theorem witness_RetirementAndRemoval_4 :
    ∃ (b : Nat) (ch : Nat) (s : State),
      b < 16 ∧
      ch < 32 ∧
      regOpen s (Reg.MEM_SVC b) = true ∧
      (s.bay b).mem.evac = none ∧
      (s.bay b).mem.removed = none ∧
      (s.bay b).mem.lost = [] :=
  ⟨0, 31, up, by decide +kernel⟩

def RetirementAndRemoval5_s : State := up.modMem 0 (fun m => { m with evac := some (31, false, true) })
theorem witness_RetirementAndRemoval_5 :
    ∃ (b : Nat) (ch : Nat) (s : State),
      b < 16 ∧
      s.pwr.st ≠ 5 ∧
      (s.bay b).mem.evac = some (ch, false, true) ∧
      (s.bay b).mem.shut = none :=
  ⟨0, 31, RetirementAndRemoval5_s, by decide +kernel⟩

theorem witness_ShuttersAndTemperature_1 :
    ∃ (b : Nat) (ch : Nat) (s : State),
      b < 16 ∧
      ch < 32 ∧
      s.pwr.st ≠ 5 ∧
      (s.bay b).mem.removed ≠ some ch ∧
      (s.bay b).mem.lost.contains ch = false ∧
      (s.bay b).mem.shutQ.contains (ch, 0) = false :=
  ⟨0, 31, up, by decide +kernel⟩

theorem witness_ShuttersAndTemperature_2 :
    ∃ (b : Nat) (ch : Nat) (s : State),
      b < 16 ∧
      ch < 32 ∧
      regOpen s (Reg.MEM_SVC b) = true ∧
      (s.bay b).mem.removed ≠ some ch ∧
      (s.bay b).mem.lost.contains ch = false ∧
      (s.bay b).mem.shutQ.contains (ch, 0) = false :=
  ⟨0, 31, up, by decide +kernel⟩

theorem witness_ShuttersAndTemperature_3 :
    ∃ (b : Nat) (ch : Nat) (s : State),
      b < 16 ∧
      ch < 32 ∧
      regOpen s (Reg.MEM_SVC b) = true :=
  ⟨0, 31, up, by decide +kernel⟩

def ShuttersAndTemperature4_s : State := up.modMem 0 (fun m => { m with shutQ := [(31, 0)] })
theorem witness_ShuttersAndTemperature_4 :
    ∃ (b : Nat) (ch : Nat) (cause : Nat) (q : List (Nat × Nat)) (s : State),
      b < 16 ∧
      s.pwr.st ≠ 5 ∧
      (s.bay b).mem.shut = none ∧
      (s.bay b).mem.shutQ = (ch, cause) :: q ∧
      cause ≠ 3 :=
  ⟨0, 31, 0, [], ShuttersAndTemperature4_s, by decide +kernel⟩

def ShuttersAndTemperature5_sh : Shutter := { ch := 31, cause := 0, start := 100 }
def ShuttersAndTemperature5_s : State := up.modMem 0 (fun m => { m with shut := some { ch := 31, cause := 0, start := 100 } })
theorem witness_ShuttersAndTemperature_5 :
    ∃ (b : Nat) (sh : Shutter) (s : State),
      b < 16 ∧
      s.pwr.st ≠ 5 ∧
      (s.bay b).mem.shut = some sh ∧
      sh.cause = 0 :=
  ⟨0, ShuttersAndTemperature5_sh, ShuttersAndTemperature5_s, by decide +kernel⟩

def ShuttersAndTemperature6_sh : Shutter := { ch := 31, cause := 0, start := 100 }
def ShuttersAndTemperature6_s : State := up.modMem 0 (fun m => { m with shut := some { ch := 31, cause := 0, start := 100 } })
theorem witness_ShuttersAndTemperature_6 :
    ∃ (b : Nat) (sh : Shutter) (s : State),
      b < 16 ∧
      s.pwr.st ≠ 5 ∧
      (s.bay b).mem.shut = some sh ∧
      sh.cause = 0 :=
  ⟨0, ShuttersAndTemperature6_sh, ShuttersAndTemperature6_s, by decide +kernel⟩

theorem witness_ShuttersAndTemperature_7 :
    ∃ (b : Nat) (ts : List Nat) (s : State),
      b < 16 ∧
      s.pwr.st ≠ 5 ∧
      s.baysOn = true ∧
      (hottest (ts.take 12)).1 < 110 :=
  ⟨0, [109, 95], up, by decide +kernel⟩

theorem witness_ShuttersAndTemperature_8 :
    ∃ (b : Nat) (ts : List Nat) (s : State),
      b < 16 ∧
      s.pwr.st ≠ 5 ∧
      s.baysOn = true ∧
      110 ≤ (hottest (ts.take 12)).1 :=
  ⟨0, [109, 110], up, by decide +kernel⟩

def WalksAdvanceAndEnd1_s : State := fetched (withBytes (up.modXlt 0 (fun x => { x with walks := [{ ctx := 0, va := 0x1000, wr := false, lvl := 0, tbl := 0x4000, stale := false, host := none }] })) 0x4000 (leBytes 8 0x5001)) (.bay 0 (.walk 0 0x1000)) true 0x4000 64
def WalksAdvanceAndEnd1_w : Walk := { ctx := 0, va := 0x1000, wr := false, lvl := 0, tbl := 0x4000, stale := false, host := none }
def WalksAdvanceAndEnd1_a : Access := ((WalksAdvanceAndEnd1_s).came (walkNeed (WalksAdvanceAndEnd1_s) (0) (WalksAdvanceAndEnd1_w))).getD (acc1)
theorem witness_WalksAdvanceAndEnd_1 :
    ∃ (b : Nat) (k : Nat) (t : Nat) (s : State) (w : Walk) (a : Access),
      (b < 16 ∧
      s.pwr.st ≠ 5 ∧
      (localWalks s b)[k]? = some w ∧
      w.root = false) ∧
      s.came (walkNeed s b w) = some a ∧
      a.flt = none ∧
      let e := field a.data (walkAddr s b w % 64) 8
      walkEntry w.lvl e = .table t :=
  ⟨0, 0, 0x5000, WalksAdvanceAndEnd1_s, WalksAdvanceAndEnd1_w, WalksAdvanceAndEnd1_a, by decide +kernel, somePair _ (by decide +kernel), by decide +kernel, by decide +kernel⟩

def WalksAdvanceAndEnd2_s : State := fetched (withBytes (up.modXlt 0 (fun x => { x with walks := [{ ctx := 0, va := 0x1000, wr := false, lvl := 3, tbl := 0x4000, stale := false, host := none }] })) 0x4008 (leBytes 8 0x500F)) (.bay 0 (.walk 0 0x1000)) true 0x4000 64
def WalksAdvanceAndEnd2_w : Walk := { ctx := 0, va := 0x1000, wr := false, lvl := 3, tbl := 0x4000, stale := false, host := none }
def WalksAdvanceAndEnd2_a : Access := ((WalksAdvanceAndEnd2_s).came (walkNeed (WalksAdvanceAndEnd2_s) (0) (WalksAdvanceAndEnd2_w))).getD (acc1)
theorem witness_WalksAdvanceAndEnd_2 :
    ∃ (b : Nat) (k : Nat) (leaf : Nat) (s : State) (w : Walk) (a : Access),
      (b < 16 ∧
      s.pwr.st ≠ 5 ∧
      (localWalks s b)[k]? = some w ∧
      w.root = false) ∧
      s.came (walkNeed s b w) = some a ∧
      a.flt = none ∧
      walkEntry w.lvl (field a.data (walkAddr s b w % 64) 8) = .leaf leaf :=
  ⟨0, 0, 0x500F, WalksAdvanceAndEnd2_s, WalksAdvanceAndEnd2_w, WalksAdvanceAndEnd2_a, by decide +kernel, somePair _ (by decide +kernel), by decide +kernel⟩

def WalksAdvanceAndEnd3_s : State := fetched (withBytes (up.modXlt 0 (fun x => { x with walks := [{ ctx := 0, va := 0x1000, wr := false, lvl := 3, tbl := 0x4000, stale := false, host := none }] })) 0x4008 (leBytes 8 0)) (.bay 0 (.walk 0 0x1000)) true 0x4000 64
def WalksAdvanceAndEnd3_w : Walk := { ctx := 0, va := 0x1000, wr := false, lvl := 3, tbl := 0x4000, stale := false, host := none }
def WalksAdvanceAndEnd3_a : Access := ((WalksAdvanceAndEnd3_s).came (walkNeed (WalksAdvanceAndEnd3_s) (0) (WalksAdvanceAndEnd3_w))).getD (acc1)
theorem witness_WalksAdvanceAndEnd_3 :
    ∃ (b : Nat) (k : Nat) (cause : Nat) (hpa : Nat) (s : State) (w : Walk) (a : Access),
      (b < 16 ∧
      s.pwr.st ≠ 5 ∧
      (localWalks s b)[k]? = some w ∧
      w.root = false) ∧
      s.came (walkNeed s b w) = some a ∧
      a.flt = none ∧
      walkEntry w.lvl (field a.data (walkAddr s b w % 64) 8) = .page cause hpa :=
  ⟨0, 0, 1, 0, WalksAdvanceAndEnd3_s, WalksAdvanceAndEnd3_w, WalksAdvanceAndEnd3_a, by decide +kernel, somePair _ (by decide +kernel), by decide +kernel⟩

def WalksAdvanceAndEnd4_s : State := { up.modXlt 0 (fun x => { x with walks := [{ ctx := 0, va := 0x1000, wr := false, lvl := 3, tbl := 0x4000, stale := false, host := some (3, 0) }] }) with fin := [(0, (mkMsg 0x2E 3 0 0 0 0 0 3 0x7F 8 0 (leBytes 8 0x500F ++ leBytes 1 3 ++ leBytes 3 0)))] }
def WalksAdvanceAndEnd4_s1 : State := ((takeFin (WalksAdvanceAndEnd4_s) (0) 0x2E).getD ((0, []), State.reset)).2
def WalksAdvanceAndEnd4_e : Nat × List Byte := ((takeFin (WalksAdvanceAndEnd4_s) (0) 0x2E).getD ((0, []), State.reset)).1
def WalksAdvanceAndEnd4_w : Walk := (walkOfTag (WalksAdvanceAndEnd4_s1) (0) (mTag (WalksAdvanceAndEnd4_e).2)).getD ({ ctx := 0, va := 0, wr := false, lvl := 0, tbl := 0, stale := false, host := none })
theorem witness_WalksAdvanceAndEnd_4 :
    ∃ (b : Nat) (e : Nat × List Byte) (s : State) (s1 : State) (w : Walk),
      (b < 16 ∧
      s.pwr.st ≠ 5) ∧
      takeFin s b 0x2E = some (e, s1) ∧
      walkOfTag s1 b (mTag e.2) = some w ∧
      mStatus e.2 = 0 ∧
      replyOk (mBody e.2) = true ∧
      field (mBody e.2) 9 1 = 0 ∧
      malformed (field (mBody e.2) 8 1) (field (mBody e.2) 0 8) = false ∧
      w.stale = false :=
  ⟨0, WalksAdvanceAndEnd4_e, WalksAdvanceAndEnd4_s, WalksAdvanceAndEnd4_s1, WalksAdvanceAndEnd4_w, by decide +kernel, somePair ((0, []), State.reset) (by decide +kernel), somePair _ (by decide +kernel), by decide +kernel⟩

def WalksAdvanceAndEnd5_s : State := up.modXlt 0 (fun x => { x with walks := [{ ctx := 0, va := 0x1000, wr := false, lvl := 0, tbl := 0x4000, stale := false, host := some (3, 0) }] })
def WalksAdvanceAndEnd5_w : Walk := { ctx := 0, va := 0x1000, wr := false, lvl := 0, tbl := 0x4000, stale := false, host := some (3, 0) }
theorem witness_WalksAdvanceAndEnd_5 :
    ∃ (b : Nat) (k : Nat) (s : State) (w : Walk),
      b < 16 ∧
      s.pwr.st ≠ 5 ∧
      ((s.bay b).xlt.walks.filter (fun w => w.host.isSome))[k]? = some w :=
  ⟨0, 0, WalksAdvanceAndEnd5_s, WalksAdvanceAndEnd5_w, by decide +kernel⟩

theorem witness_WalksAdvanceAndEnd_6 :
    ∃ (w : Who) (b : Nat) (ctx : Nat) (va : Nat) (wr : Bool) (s : State),
      2 ^ 48 ≤ va :=
  ⟨.cmd 0 1, 0, 0, 2 ^ 48, false, up, by decide +kernel⟩

def InvalidationsAreServed1_s : State := { up with fin := [(0, (mkMsg 0x2F 3 0 0 0 0 0 3 0x7F 8 0 (leBytes 4 1 ++ leBytes 8 0x1000 ++ leBytes 8 1)))] }
def InvalidationsAreServed1_s1 : State := ((takeFin (InvalidationsAreServed1_s) (0) 0x2F).getD ((0, []), State.reset)).2
def InvalidationsAreServed1_e : Nat × List Byte := ((takeFin (InvalidationsAreServed1_s) (0) 0x2F).getD ((0, []), State.reset)).1
theorem witness_InvalidationsAreServed_1 :
    ∃ (b : Nat) (e : Nat × List Byte) (s : State) (s1 : State),
      (b < 16 ∧
      s.pwr.st ≠ 5) ∧
      takeFin s b 0x2F = some (e, s1) ∧
      field (mBody e.2) 0 1 ≤ 3 :=
  ⟨0, InvalidationsAreServed1_e, InvalidationsAreServed1_s, InvalidationsAreServed1_s1, by decide +kernel, somePair ((0, []), State.reset) (by decide +kernel), by decide +kernel⟩

def InvalidationsAreServed2_s : State := { up with fin := [(0, (mkMsg 0x2F 3 0 0 0 0 0 3 0x7F 8 0 (leBytes 4 9 ++ leBytes 8 0x1000 ++ leBytes 8 1)))] }
def InvalidationsAreServed2_s1 : State := ((takeFin (InvalidationsAreServed2_s) (0) 0x2F).getD ((0, []), State.reset)).2
def InvalidationsAreServed2_e : Nat × List Byte := ((takeFin (InvalidationsAreServed2_s) (0) 0x2F).getD ((0, []), State.reset)).1
theorem witness_InvalidationsAreServed_2 :
    ∃ (b : Nat) (e : Nat × List Byte) (s : State) (s1 : State),
      (b < 16 ∧
      s.pwr.st ≠ 5) ∧
      takeFin s b 0x2F = some (e, s1) ∧
      3 < field (mBody e.2) 0 1 :=
  ⟨0, InvalidationsAreServed2_e, InvalidationsAreServed2_s, InvalidationsAreServed2_s1, by decide +kernel, somePair ((0, []), State.reset) (by decide +kernel), by decide +kernel⟩

theorem witness_InvalidationsAreServed_3 :
    ∃ (b : Nat) (port : Nat) (tag : Nat) (kind : Nat) (ctx : Nat) (base : Nat) (n : Nat) (s : State),
      b < 16 ∧
      3 ≤ kind :=
  ⟨0, 32, 3, 3, 0, 0x1000, 0x1000, up, by decide +kernel⟩

def InvalidationsAreServed4_v : Inv := { tag := 3, port := 32, waits := [7], own := some (0, 0x1000) }
def InvalidationsAreServed4_s : State := up.modXlt 0 (fun x => { x with invs := [{ tag := 3, port := 32, waits := [7], own := some (0, 0x1000) }] })
theorem witness_InvalidationsAreServed_4 :
    ∃ (b : Nat) (v : Inv) (vs : List Inv) (s : State),
      b < 16 ∧
      s.pwr.st ≠ 5 ∧
      (s.bay b).xlt.invs = v :: vs ∧
      (∀ k ∈ v.waits, ∀ a ∈ s.accs, a.id ≠ k) :=
  ⟨0, InvalidationsAreServed4_v, [], InvalidationsAreServed4_s, by decide +kernel⟩

theorem witness_InvalidationsAreServed_5 :
    ∃ (b : Nat) (s : State),
      b < 16 ∧
      regOpen s (Reg.XLT_FLUSH b) = true :=
  ⟨0, up, by decide +kernel⟩

theorem witness_InvalidationsAreServed_6 :
    ∃ (b : Nat) (s : State),
      b < 16 ∧
      regOpen s (Reg.XLT_FLUSH b) = true :=
  ⟨0, up, by decide +kernel⟩

def FaultQueueAndMigration1_s : State := { up with gx := { fq := [(0, some { st := 1, cause := 5, level := 3, write := false, ctx := 0, seq := 7, va := 0x1000, hpa := 0x2000, panes := [], bays := [], nfault := 1, time := 0, newpa := 0, tasks := [] })] } }
def FaultQueueAndMigration1_e : FqEnt := { st := 1, cause := 5, level := 3, write := false, ctx := 0, seq := 7, va := 0x1000, hpa := 0x2000, panes := [], bays := [], nfault := 1, time := 0, newpa := 0, tasks := [] }
theorem witness_FaultQueueAndMigration_1 :
    ∃ (v : Nat) (s : State) (e : FqEnt),
      regOpen s Reg.XLT_FRESOLVE = true ∧
      tget none s.gx.fq (bits v 7 0) = some e ∧
      e.st = 1 ∧
      e.seq % 65536 = bits v 31 16 ∧
      s.gx.noticeHeld.any (noticeOf (bits v 7 0) e) = false :=
  ⟨0x70000, FaultQueueAndMigration1_s, FaultQueueAndMigration1_e, by decide +kernel⟩

def FaultQueueAndMigration2_s : State := { up with gx := { fq := [(0, some { st := 1, cause := 5, level := 3, write := false, ctx := 0, seq := 7, va := 0x1000, hpa := 0x2000, panes := [], bays := [], nfault := 1, time := 0, newpa := 0, tasks := [] })], noticeHeld := [{ bytes := leBytes 1 0 ++ leBytes 3 1 ++ leBytes 4 7 }] } }
def FaultQueueAndMigration2_e : FqEnt := { st := 1, cause := 5, level := 3, write := false, ctx := 0, seq := 7, va := 0x1000, hpa := 0x2000, panes := [], bays := [], nfault := 1, time := 0, newpa := 0, tasks := [] }
theorem witness_FaultQueueAndMigration_2 :
    ∃ (v : Nat) (s : State) (e : FqEnt),
      regOpen s Reg.XLT_FRESOLVE = true ∧
      tget none s.gx.fq (bits v 7 0) = some e ∧
      e.st = 1 ∧
      e.seq % 65536 = bits v 31 16 ∧
      s.gx.noticeHeld.any (noticeOf (bits v 7 0) e) = true :=
  ⟨0x70000, FaultQueueAndMigration2_s, FaultQueueAndMigration2_e, by decide +kernel⟩

theorem witness_FaultQueueAndMigration_3 :
    ∃ (v : Nat) (s : State),
      regOpen s Reg.XLT_FRESOLVE = true ∧
      (∀ e, tget none s.gx.fq (bits v 7 0) = some e → e.st = 1 → e.seq % 65536 ≠ bits v 31 16) :=
  ⟨0x70000, up, by decide +kernel, by intro _ h; cases h⟩

theorem witness_FaultQueueAndMigration_4 :
    ∃ (v : Nat) (s : State),
      regOpen s Reg.XLT_FNTAIL = true :=
  ⟨3, up, by decide +kernel⟩

theorem witness_FaultQueueAndMigration_5 :
    ∃ (v : Nat) (s : State),
      regOpen s Reg.XLT_MPTAIL = true :=
  ⟨3, up, by decide +kernel⟩

def FaultQueueAndMigration6_e : FqEnt := { st := 1, cause := 5, level := 3, write := false, ctx := 0, seq := 7, va := 0x1000, hpa := 0x2000, panes := [], bays := [], nfault := 1, time := 0, newpa := 0, tasks := [] }
def FaultQueueAndMigration6_s : State := fetched ((withBytes ({ up with gx := { fq := [(0, some { st := 1, cause := 5, level := 3, write := false, ctx := 0, seq := 7, va := 0x1000, hpa := 0x2000, panes := [], bays := [], nfault := 1, time := 0, newpa := 0, tasks := [] })] } }) 0 (leBytes 8 0x3000)).setReg Reg.XLT_MPTAIL 1 |>.setReg (Reg.XLT_OTLIMIT 0) 100) (.ctl .pool) true 0 64
def FaultQueueAndMigration6_s1 : State := (runMc (sysRead (.ctl .pool) (poolAddr (FaultQueueAndMigration6_s)) 8) (FaultQueueAndMigration6_s)).2
def FaultQueueAndMigration6_bs : List Byte := okv ([]) (runMc (sysRead (.ctl .pool) (poolAddr (FaultQueueAndMigration6_s)) 8) (FaultQueueAndMigration6_s)).1
theorem witness_FaultQueueAndMigration_6 :
    ∃ (k : Nat) (e : FqEnt) (bs : List Byte) (s : State) (s1 : State),
      (s.pwr.st ≠ 5 ∧
      s.gx.mig = none ∧
      oldestMigrate s = some (k, e) ∧
      poolEmpty s = false) ∧
      runMc (sysRead (.ctl .pool) (poolAddr s) 8) s = (.ok bs, s1) ∧
      let pa := localPa (leNat bs) / 4096 * 4096
      poolPageOk s1 pa = true :=
  ⟨0, FaultQueueAndMigration6_e, FaultQueueAndMigration6_bs, FaultQueueAndMigration6_s, FaultQueueAndMigration6_s1, by decide +kernel, okPair _ (by decide +kernel), by decide +kernel⟩

def FaultQueueAndMigration7_m : Mig := { entry := 0, step := 2, newpa := 0x3000 }
def FaultQueueAndMigration7_e : FqEnt := { st := 2, cause := 5, level := 3, write := false, ctx := 0, seq := 7, va := 0x1000, hpa := 0x2000, panes := [], bays := [], nfault := 1, time := 0, newpa := 0, tasks := [] }
def FaultQueueAndMigration7_s : State := fetched ({ up with gx := { fq := [(0, some { st := 2, cause := 5, level := 3, write := false, ctx := 0, seq := 7, va := 0x1000, hpa := 0x2000, panes := [], bays := [], nfault := 1, time := 0, newpa := 0, tasks := [] })], mig := some { entry := 0, step := 2, newpa := 0x3000 } } }) (.ctl .pool) true 0 64
def FaultQueueAndMigration7_s1 : State := (runMc (ownerWrite .pool ((FaultQueueAndMigration7_m).newpa / 4096) (FaultQueueAndMigration7_e).ctx) (FaultQueueAndMigration7_s)).2
theorem witness_FaultQueueAndMigration_7 :
    ∃ (m : Mig) (e : FqEnt) (s : State) (s1 : State),
      (s.pwr.st ≠ 5 ∧
      s.gx.mig = some m ∧
      m.step = 2 ∧
      tget none s.gx.fq m.entry = some e) ∧
      runMc (ownerWrite .pool (m.newpa / 4096) e.ctx) s = (.ok (), s1) :=
  ⟨FaultQueueAndMigration7_m, FaultQueueAndMigration7_e, FaultQueueAndMigration7_s, FaultQueueAndMigration7_s1, by decide +kernel, okPairV (by decide +kernel)⟩

def FaultQueueAndMigration8_m : Mig := { entry := 0, step := 3, newpa := 0x3000 }
def FaultQueueAndMigration8_e : FqEnt := { st := 2, cause := 5, level := 3, write := false, ctx := 0, seq := 7, va := 0x1000, hpa := 0x2000, panes := [], bays := [], nfault := 1, time := 0, newpa := 0, tasks := [] }
def FaultQueueAndMigration8_s : State := { up with gx := { fq := [(0, some { st := 2, cause := 5, level := 3, write := false, ctx := 0, seq := 7, va := 0x1000, hpa := 0x2000, panes := [], bays := [], nfault := 1, time := 0, newpa := 0, tasks := [] })], mig := some { entry := 0, step := 3, newpa := 0x3000 } }, accs := [{ acc1 with stage := .got, purpose := .mig 0 }] }
theorem witness_FaultQueueAndMigration_8 :
    ∃ (m : Mig) (e : FqEnt) (s : State),
      s.pwr.st ≠ 5 ∧
      s.gx.mig = some m ∧
      m.step = 3 ∧
      tget none s.gx.fq m.entry = some e ∧
      (∀ a ∈ s.accs, ofMig a = true → a.stage = .got ∧ a.flt = none) :=
  ⟨FaultQueueAndMigration8_m, FaultQueueAndMigration8_e, FaultQueueAndMigration8_s, by decide +kernel⟩

def FaultQueueAndMigration9_m : Mig := { entry := 0, step := 6, newpa := 0x3000 }
def FaultQueueAndMigration9_e : FqEnt := { st := 2, cause := 5, level := 3, write := false, ctx := 0, seq := 7, va := 0x1000, hpa := 0x2000, panes := [], bays := [], nfault := 1, time := 0, newpa := 0, tasks := [] }
def FaultQueueAndMigration9_s : State := { up with gx := { fq := [(0, some { st := 2, cause := 5, level := 3, write := false, ctx := 0, seq := 7, va := 0x1000, hpa := 0x2000, panes := [], bays := [], nfault := 1, time := 0, newpa := 0, tasks := [] })], mig := some { entry := 0, step := 6, newpa := 0x3000 } }, accs := [{ acc1 with stage := .got, purpose := .mig 0 }] }
theorem witness_FaultQueueAndMigration_9 :
    ∃ (m : Mig) (e : FqEnt) (s : State),
      s.pwr.st ≠ 5 ∧
      s.gx.mig = some m ∧
      m.step = 6 ∧
      tget none s.gx.fq m.entry = some e ∧
      (∀ a ∈ s.accs, ofMig a = true → a.stage = .got ∧ a.flt = none) :=
  ⟨FaultQueueAndMigration9_m, FaultQueueAndMigration9_e, FaultQueueAndMigration9_s, by decide +kernel⟩

def FaultQueueAndMigration10_n : Notice := { bytes := leBytes 1 0 ++ leBytes 7 2, frees := some (0, none) }
def FaultQueueAndMigration10_s : State := { up with gx := { noticeHeld := [{ bytes := leBytes 1 0 ++ leBytes 7 2, frees := some (0, none) }] } }
theorem witness_FaultQueueAndMigration_10 :
    ∃ (n : Notice) (ns : List Notice) (k : Nat) (s : State),
      s.gx.noticeHeld = n :: ns ∧
      field n.bytes 1 1 = 2 ∧
      n.frees = some (k, none) :=
  ⟨FaultQueueAndMigration10_n, [], 0, FaultQueueAndMigration10_s, by decide +kernel⟩

theorem witness_ContextResetRuns_1 :
    ∃ (b : Nat) (v : Nat) (s : State),
      b < 16 ∧
      regOpen s (Reg.DSP_CTXRESET b) = true ∧
      v % 65536 ≠ 0 ∧
      v % 65536 ≠ 0xFFFF ∧
      s.ctxReset = none :=
  ⟨0, 7, up, by decide +kernel⟩

def ContextResetRuns2_s : State := { up with ctxReset := some 4 }
theorem witness_ContextResetRuns_2 :
    ∃ (b : Nat) (v : Nat) (c : Nat) (s : State),
      b < 16 ∧
      regOpen s (Reg.DSP_CTXRESET b) = true ∧
      v % 65536 ≠ 0 ∧
      v % 65536 ≠ 0xFFFF ∧
      s.ctxReset = some c :=
  ⟨0, 7, 4, ContextResetRuns2_s, by decide +kernel⟩

theorem witness_ContextResetRuns_3 :
    ∃ (b : Nat) (v : Nat) (s : State),
      b < 16 ∧
      regOpen s (Reg.DSP_CTXRESET b) = true ∧
      (v % 65536 = 0 ∨ v % 65536 = 0xFFFF) :=
  ⟨0, 0xFFFF, up, by decide +kernel⟩

def ContextResetRuns4_s : State := { up with ctxReset := some 4 }
theorem witness_ContextResetRuns_4 :
    ∃ (c : Nat) (s : State),
      s.pwr.st ≠ 5 ∧
      s.ctxReset = some c ∧
      s.ctxResetQ = [] :=
  ⟨4, ContextResetRuns4_s, by decide +kernel⟩

def ContextResetRuns5_s : State := { up with ctxReset := some 4, ctxResetQ := [7] }
theorem witness_ContextResetRuns_5 :
    ∃ (c : Nat) (d : Nat) (q : List Nat) (s : State),
      s.pwr.st ≠ 5 ∧
      s.ctxReset = some c ∧
      s.ctxResetQ = d :: q :=
  ⟨4, 7, [], ContextResetRuns5_s, by decide +kernel⟩

def RemoteRequestsAndResponses1_s : State := ((up).modXe 0 (fun x => { x with xin := [mkMsg 1 1 0 0 1 0 5 3 0 0 0 (leBytes 8 0x1000 ++ leBytes 4 1024 ++ leBytes 4 0)] }))
def RemoteRequestsAndResponses1_s1 : State := ((takeX (RemoteRequestsAndResponses1_s) (0) 1).getD ([], State.reset)).2
def RemoteRequestsAndResponses1_m : List Byte := ((takeX (RemoteRequestsAndResponses1_s) (0) 1).getD ([], State.reset)).1
theorem witness_RemoteRequestsAndResponses_1 :
    ∃ (b : Nat) (m : List Byte) (s : State) (s1 : State),
      (b < 16 ∧
      s.pwr.st ≠ 5) ∧
      takeX s b 1 = some (m, s1) ∧
      mType m = 1 ∧
      (mBody m).length = 16 ∧
      field (mBody m) 8 4 % 32 = 0 ∧
      field (mBody m) 8 4 ≠ 0 ∧
      field (mBody m) 8 4 ≤ 1024 ∧
      badCtx m = false :=
  ⟨0, RemoteRequestsAndResponses1_m, RemoteRequestsAndResponses1_s, RemoteRequestsAndResponses1_s1, by decide +kernel, somePair ([], State.reset) (by decide +kernel), by decide +kernel⟩

def RemoteRequestsAndResponses2_s : State := ((up).modXe 0 (fun x => { x with xin := [mkMsg 2 1 0 0 1 0 5 3 0 0 0 (leBytes 8 0x1000 ++ leBytes 4 7)] }))
def RemoteRequestsAndResponses2_s1 : State := ((takeX (RemoteRequestsAndResponses2_s) (0) 2).getD ([], State.reset)).2
def RemoteRequestsAndResponses2_m : List Byte := ((takeX (RemoteRequestsAndResponses2_s) (0) 2).getD ([], State.reset)).1
theorem witness_RemoteRequestsAndResponses_2 :
    ∃ (b : Nat) (m : List Byte) (s : State) (s1 : State),
      (b < 16 ∧
      s.pwr.st ≠ 5) ∧
      takeX s b 2 = some (m, s1) ∧
      mType m = 2 ∧
      4 ≤ ((mBody m).drop 8).length ∧
      ((mBody m).drop 8).length ≤ 1024 ∧
      badCtx m = false :=
  ⟨0, RemoteRequestsAndResponses2_m, RemoteRequestsAndResponses2_s, RemoteRequestsAndResponses2_s1, by decide +kernel, somePair ([], State.reset) (by decide +kernel), by decide +kernel⟩

def RemoteRequestsAndResponses3_s : State := ((up).modXe 0 (fun x => { x with xin := [mkMsg 3 1 0 0 1 0 5 3 0 0 0 (leBytes 8 0x1040 ++ leBytes 4 0 ++ leBytes 4 0xFF ++ leBytes 64 5)] }))
def RemoteRequestsAndResponses3_s1 : State := ((takeX (RemoteRequestsAndResponses3_s) (0) 3).getD ([], State.reset)).2
def RemoteRequestsAndResponses3_m : List Byte := ((takeX (RemoteRequestsAndResponses3_s) (0) 3).getD ([], State.reset)).1
theorem witness_RemoteRequestsAndResponses_3 :
    ∃ (b : Nat) (m : List Byte) (s : State) (s1 : State),
      (b < 16 ∧
      s.pwr.st ≠ 5) ∧
      takeX s b 3 = some (m, s1) ∧
      mType m = 3 ∧
      field (mBody m) 8 4 = 0 ∧
      localPa (field (mBody m) 0 8) % 64 = 0 ∧
      (mBody m).length = 80 ∧
      badCtx m = false :=
  ⟨0, RemoteRequestsAndResponses3_m, RemoteRequestsAndResponses3_s, RemoteRequestsAndResponses3_s1, by decide +kernel, somePair ([], State.reset) (by decide +kernel), by decide +kernel⟩

def RemoteRequestsAndResponses4_s : State := ((up).modXe 0 (fun x => { x with xin := [mkMsg 3 1 0 0 1 0 5 3 0 0 0 (leBytes 8 0x1080 ++ leBytes 4 1 ++ leBytes 4 0 ++ leBytes 80 5)] }))
def RemoteRequestsAndResponses4_s1 : State := ((takeX (RemoteRequestsAndResponses4_s) (0) 3).getD ([], State.reset)).2
def RemoteRequestsAndResponses4_m : List Byte := ((takeX (RemoteRequestsAndResponses4_s) (0) 3).getD ([], State.reset)).1
theorem witness_RemoteRequestsAndResponses_4 :
    ∃ (b : Nat) (m : List Byte) (s : State) (s1 : State),
      (b < 16 ∧
      s.pwr.st ≠ 5) ∧
      takeX s b 3 = some (m, s1) ∧
      mType m = 3 ∧
      field (mBody m) 8 4 = 1 ∧
      localPa (field (mBody m) 0 8) % 128 = 0 ∧
      (mBody m).length = 96 ∧
      badCtx m = false :=
  ⟨0, RemoteRequestsAndResponses4_m, RemoteRequestsAndResponses4_s, RemoteRequestsAndResponses4_s1, by decide +kernel, somePair ([], State.reset) (by decide +kernel), by decide +kernel⟩

def RemoteRequestsAndResponses5_s : State := ((up).modXe 0 (fun x => { x with xin := [mkMsg 1 1 0 0 1 0 5 3 0 0 0 (leBytes 8 0x1000 ++ leBytes 4 33 ++ leBytes 4 0)] }))
def RemoteRequestsAndResponses5_s1 : State := ((takeX (RemoteRequestsAndResponses5_s) (0) 1).getD ([], State.reset)).2
def RemoteRequestsAndResponses5_m : List Byte := ((takeX (RemoteRequestsAndResponses5_s) (0) 1).getD ([], State.reset)).1
theorem witness_RemoteRequestsAndResponses_5 :
    ∃ (b : Nat) (m : List Byte) (s : State) (s1 : State),
      (b < 16 ∧
      s.pwr.st ≠ 5) ∧
      takeX s b 1 = some (m, s1) ∧
      mType m = 1 ∧
      badCtx m = false ∧
      ((mBody m).length ≠ 16 ∨ field (mBody m) 8 4 % 32 ≠ 0 ∨ field (mBody m) 8 4 = 0 ∨ 1024 < field (mBody m) 8 4) :=
  ⟨0, RemoteRequestsAndResponses5_m, RemoteRequestsAndResponses5_s, RemoteRequestsAndResponses5_s1, by decide +kernel, somePair ([], State.reset) (by decide +kernel), by decide +kernel⟩

def RemoteRequestsAndResponses6_s : State := ((up).modXe 0 (fun x => { x with xin := [mkMsg 2 1 0 0 1 0 5 3 0 0 0 (leBytes 8 0x1000 ++ leBytes 3 7)] }))
def RemoteRequestsAndResponses6_s1 : State := ((takeX (RemoteRequestsAndResponses6_s) (0) 2).getD ([], State.reset)).2
def RemoteRequestsAndResponses6_m : List Byte := ((takeX (RemoteRequestsAndResponses6_s) (0) 2).getD ([], State.reset)).1
theorem witness_RemoteRequestsAndResponses_6 :
    ∃ (b : Nat) (m : List Byte) (s : State) (s1 : State),
      (b < 16 ∧
      s.pwr.st ≠ 5) ∧
      takeX s b 2 = some (m, s1) ∧
      mType m = 2 ∧
      badCtx m = false ∧
      (((mBody m).drop 8).length < 4 ∨ 1024 < ((mBody m).drop 8).length) :=
  ⟨0, RemoteRequestsAndResponses6_m, RemoteRequestsAndResponses6_s, RemoteRequestsAndResponses6_s1, by decide +kernel, somePair ([], State.reset) (by decide +kernel), by decide +kernel⟩

def RemoteRequestsAndResponses7_s : State := ((up).modXe 0 (fun x => { x with xin := [mkMsg 3 1 0 0 1 0 5 3 0 0 0 (leBytes 8 0x1040 ++ leBytes 4 1 ++ leBytes 4 0 ++ leBytes 80 5)] }))
def RemoteRequestsAndResponses7_s1 : State := ((takeX (RemoteRequestsAndResponses7_s) (0) 3).getD ([], State.reset)).2
def RemoteRequestsAndResponses7_m : List Byte := ((takeX (RemoteRequestsAndResponses7_s) (0) 3).getD ([], State.reset)).1
theorem witness_RemoteRequestsAndResponses_7 :
    ∃ (b : Nat) (m : List Byte) (s : State) (s1 : State),
      (b < 16 ∧
      s.pwr.st ≠ 5) ∧
      takeX s b 3 = some (m, s1) ∧
      mType m = 3 ∧
      badCtx m = false ∧
      (1 < field (mBody m) 8 4 ∨
    (field (mBody m) 8 4 = 0 ∧ (localPa (field (mBody m) 0 8) % 64 ≠ 0 ∨ (mBody m).length ≠ 80)) ∨
    (field (mBody m) 8 4 = 1 ∧ (localPa (field (mBody m) 0 8) % 128 ≠ 0 ∨ (mBody m).length ≠ 96))) :=
  ⟨0, RemoteRequestsAndResponses7_m, RemoteRequestsAndResponses7_s, RemoteRequestsAndResponses7_s1, by decide +kernel, somePair ([], State.reset) (by decide +kernel), by decide +kernel⟩

def RemoteRequestsAndResponses8_s : State := ((up).modXe 0 (fun x => { x with xin := [mkMsg 2 1 0 0 1 0 65535 3 0 0 0 (leBytes 8 0x1000 ++ leBytes 4 7)] }))
def RemoteRequestsAndResponses8_s1 : State := ((takeX (RemoteRequestsAndResponses8_s) (0) (2)).getD ([], State.reset)).2
def RemoteRequestsAndResponses8_m : List Byte := ((takeX (RemoteRequestsAndResponses8_s) (0) (2)).getD ([], State.reset)).1
theorem witness_RemoteRequestsAndResponses_8 :
    ∃ (b : Nat) (t : Nat) (c : Instr) (m : List Byte) (s : State) (s1 : State),
      (b < 16 ∧
      s.pwr.st ≠ 5 ∧
      (t = 1 ∧ c = .rdreq b ∨ t = 2 ∧ c = .wrreq b ∨ t = 3 ∧ c = .atomic b)) ∧
      takeX s b t = some (m, s1) ∧
      badCtx m = true :=
  ⟨0, 2, .wrreq 0, RemoteRequestsAndResponses8_m, RemoteRequestsAndResponses8_s, RemoteRequestsAndResponses8_s1, by decide +kernel, somePair ([], State.reset) (by decide +kernel), by decide +kernel⟩

def RemoteRequestsAndResponses9_s : State := ((up).modXe 0 (fun x => { x with xin := [mkMsg 5 1 0 0 1 0 5 3 0 0 0 ([])] }))
def RemoteRequestsAndResponses9_s1 : State := ((takeX (RemoteRequestsAndResponses9_s) (0) (5)).getD ([], State.reset)).2
def RemoteRequestsAndResponses9_m : List Byte := ((takeX (RemoteRequestsAndResponses9_s) (0) (5)).getD ([], State.reset)).1
theorem witness_RemoteRequestsAndResponses_9 :
    ∃ (b : Nat) (t : Nat) (c : Instr) (m : List Byte) (s : State) (s1 : State),
      (b < 16 ∧
      s.pwr.st ≠ 5 ∧
      (t = 4 ∧ c = .rdresp b ∨ t = 5 ∧ c = .wrack b ∨ t = 6 ∧ c = .atack b)) ∧
      takeX s b t = some (m, s1) :=
  ⟨0, 5, .wrack 0, RemoteRequestsAndResponses9_m, RemoteRequestsAndResponses9_s, RemoteRequestsAndResponses9_s1, by decide +kernel, somePair ([], State.reset) (by decide +kernel)⟩

def RemoteRequestsAndResponses10_r : XReq := { tag := 3, host := false, chip := 1, mtype := 1, sent := 0, access := 9, port := 0 }
def RemoteRequestsAndResponses10_a : Access := { acc1 with stage := .away }
def RemoteRequestsAndResponses10_s : State := { up.modXe 0 (fun x => { x with reqs := [{ tag := 3, host := false, chip := 1, mtype := 1, sent := 0, access := 9, port := 0 }] }) with accs := [{ acc1 with stage := .away }] }
theorem witness_RemoteRequestsAndResponses_10 :
    ∃ (b : Nat) (k : Nat) (r : XReq) (a : Access) (s : State),
      b < 16 ∧
      s.pwr.st ≠ 5 ∧
      ((s.bay b).xe.reqs.filter (fun r => r.host == false))[k]? = some r ∧
      s.accs.find? (fun a => a.id == r.access) = some a :=
  ⟨0, 0, RemoteRequestsAndResponses10_r, RemoteRequestsAndResponses10_a, RemoteRequestsAndResponses10_s, by decide +kernel⟩

def RemoteRequestsAndResponses11_r : XReq := { tag := 3, host := true, chip := 1, mtype := 1, sent := 0, access := 9, port := 0 }
def RemoteRequestsAndResponses11_a : Access := { acc1 with stage := .away }
def RemoteRequestsAndResponses11_s : State := { up.modXe 0 (fun x => { x with reqs := [{ tag := 3, host := true, chip := 1, mtype := 1, sent := 0, access := 9, port := 0 }] }) with accs := [{ acc1 with stage := .away }] }
theorem witness_RemoteRequestsAndResponses_11 :
    ∃ (b : Nat) (k : Nat) (r : XReq) (a : Access) (s : State),
      b < 16 ∧
      s.pwr.st ≠ 5 ∧
      ((s.bay b).xe.reqs.filter (fun r => r.host == true))[k]? = some r ∧
      s.accs.find? (fun a => a.id == r.access) = some a :=
  ⟨0, 0, RemoteRequestsAndResponses11_r, RemoteRequestsAndResponses11_a, RemoteRequestsAndResponses11_s, by decide +kernel⟩

def RemoteRequestsAndResponses12_s : State := ((up).modXe 0 (fun x => { x with xin := [mkMsg 0x0C 1 0 0 1 0 5 3 0 0 0 (leBytes 2 5 ++ leBytes 2 0 ++ leBytes 4 1)] }))
def RemoteRequestsAndResponses12_s1 : State := ((takeX (RemoteRequestsAndResponses12_s) (0) 0x0C).getD ([], State.reset)).2
def RemoteRequestsAndResponses12_m : List Byte := ((takeX (RemoteRequestsAndResponses12_s) (0) 0x0C).getD ([], State.reset)).1
theorem witness_RemoteRequestsAndResponses_12 :
    ∃ (b : Nat) (m : List Byte) (s : State) (s1 : State),
      (b < 16 ∧
      s.pwr.st ≠ 5) ∧
      takeX s b 0x0C = some (m, s1) ∧
      flowWrites s m = false ∧
      badCtx m = false :=
  ⟨0, RemoteRequestsAndResponses12_m, RemoteRequestsAndResponses12_s, RemoteRequestsAndResponses12_s1, by decide +kernel, somePair ([], State.reset) (by decide +kernel), by decide +kernel⟩

theorem witness_RemoteRequestsAndResponses_13 :
    ∃ (b : Nat) (v : Nat) (s : State),
      b < 16 ∧
      regOpen s (Reg.XE_RTFLUSH b) = true ∧
      bit v 0 = true :=
  ⟨0, 1, up, by decide +kernel⟩

def RemoteRequestsAndResponses14_m : List Byte := mkMsg 4 1 0 0 1 0 0 3 0 0 0 []
theorem witness_RemoteRequestsAndResponses_14 :
    ∃ (b : Nat) (host : Bool) (m : List Byte) (s : State),
      (s.bay b).xe.reqs.find? (fun r => r.tag == mTag m && r.host == host && r.mtype + 3 == mType m && (host || r.chip == mSchip m)) = none :=
  ⟨0, false, RemoteRequestsAndResponses14_m, up, by decide +kernel⟩

def RemoteRequestsAndResponses15_m : List Byte := mkMsg 4 1 0 0 1 0 0 3 0 0 0 (leBytes 32 5)
def RemoteRequestsAndResponses15_s : State := { up.modXe 0 (fun x => { x with reqs := [{ tag := 3, host := false, chip := 1, mtype := 1, sent := 0, access := 9, port := 0 }] }) with accs := [{ acc1 with stage := .away }] }
def RemoteRequestsAndResponses15_r : XReq := { tag := 3, host := false, chip := 1, mtype := 1, sent := 0, access := 9, port := 0 }
def RemoteRequestsAndResponses15_a : Access := { acc1 with stage := .away }
theorem witness_RemoteRequestsAndResponses_15 :
    ∃ (b : Nat) (host : Bool) (m : List Byte) (s : State) (r : XReq) (a : Access),
      (s.bay b).xe.reqs.find? (fun r => r.tag == mTag m && r.host == host && r.mtype + 3 == mType m && (host || r.chip == mSchip m)) = some r ∧
      s.accs.find? (fun a => a.id == r.access) = some a ∧
      mStatus m = 0 :=
  ⟨0, false, RemoteRequestsAndResponses15_m, RemoteRequestsAndResponses15_s, RemoteRequestsAndResponses15_r, RemoteRequestsAndResponses15_a, by decide +kernel⟩

def RemoteRequestsAndResponses16_m : List Byte := mkMsg 4 1 0 0 1 0 0 3 0 0 4 (leBytes 8 0x1000)
def RemoteRequestsAndResponses16_s : State := { up.modXe 0 (fun x => { x with reqs := [{ tag := 3, host := false, chip := 1, mtype := 1, sent := 0, access := 9, port := 0 }] }) with accs := [{ acc1 with stage := .away }] }
def RemoteRequestsAndResponses16_r : XReq := { tag := 3, host := false, chip := 1, mtype := 1, sent := 0, access := 9, port := 0 }
def RemoteRequestsAndResponses16_a : Access := { acc1 with stage := .away }
theorem witness_RemoteRequestsAndResponses_16 :
    ∃ (b : Nat) (host : Bool) (m : List Byte) (s : State) (r : XReq) (a : Access),
      (s.bay b).xe.reqs.find? (fun r => r.tag == mTag m && r.host == host && r.mtype + 3 == mType m && (host || r.chip == mSchip m)) = some r ∧
      s.accs.find? (fun a => a.id == r.access) = some a ∧
      mStatus m ≠ 0 ∧
      mStatus m < 0xC :=
  ⟨0, false, RemoteRequestsAndResponses16_m, RemoteRequestsAndResponses16_s, RemoteRequestsAndResponses16_r, RemoteRequestsAndResponses16_a, by decide +kernel⟩

def CompanionMessages1_s : State := { up with fin := [(1, (mkMsg 0x21 3 0 0 0 0 0 3 0x7F 8 0 (leBytes 8 0x1000)))] }
def CompanionMessages1_s1 : State := ((takeHost (CompanionMessages1_s) 1 0x21).getD ([], State.reset)).2
def CompanionMessages1_m : List Byte := ((takeHost (CompanionMessages1_s) 1 0x21).getD ([], State.reset)).1
theorem witness_CompanionMessages_1 :
    ∃ (f : Nat) (t : Nat) (c : Instr) (m : List Byte) (s : State) (s1 : State),
      f < 2 ∧
      s.pwr.st ≠ 5 ∧
      s.boot.ready = true ∧
      s1.boot.ready = true ∧
      (t = 0x20 ∧ c = .crds f ∨ t = 0x21 ∧ c = .crdo f) ∧
      takeHost s f t = some (m, s1) :=
  ⟨1, 0x21, .crdo 1, CompanionMessages1_m, CompanionMessages1_s, CompanionMessages1_s1, by decide +kernel⟩

def CompanionMessages2_s : State := { up with fin := [(0, (mkMsg 0x22 3 0 0 0 0 0 3 0x7F 8 0 (leBytes 8 0x1000 ++ leBytes 4 1024)))] }
def CompanionMessages2_s1 : State := ((takeHost (CompanionMessages2_s) 0 0x22).getD ([], State.reset)).2
def CompanionMessages2_m : List Byte := ((takeHost (CompanionMessages2_s) 0 0x22).getD ([], State.reset)).1
theorem witness_CompanionMessages_2 :
    ∃ (f : Nat) (m : List Byte) (s : State) (s1 : State),
      f < 2 ∧
      s.pwr.st ≠ 5 ∧
      s1.boot.ready = true ∧
      takeHost s f 0x22 = some (m, s1) ∧
      field (mBody m) 8 4 % 64 = 0 ∧
      field (mBody m) 8 4 ≠ 0 ∧
      field (mBody m) 8 4 ≤ 1024 :=
  ⟨0, CompanionMessages2_m, CompanionMessages2_s, CompanionMessages2_s1, by decide +kernel⟩

def CompanionMessages3_s : State := { up with fin := [(0, (mkMsg 0x23 3 0 0 0 0 0 3 0x7F 8 0 (leBytes 8 0x1000 ++ leBytes 4 7)))] }
def CompanionMessages3_s1 : State := ((takeHost (CompanionMessages3_s) 0 0x23).getD ([], State.reset)).2
def CompanionMessages3_m : List Byte := ((takeHost (CompanionMessages3_s) 0 0x23).getD ([], State.reset)).1
theorem witness_CompanionMessages_3 :
    ∃ (f : Nat) (m : List Byte) (s : State) (s1 : State),
      f < 2 ∧
      s.pwr.st ≠ 5 ∧
      s1.boot.ready = true ∧
      takeHost s f 0x23 = some (m, s1) ∧
      4 ≤ ((mBody m).drop 8).length ∧
      ((mBody m).drop 8).length ≤ 1024 :=
  ⟨0, CompanionMessages3_m, CompanionMessages3_s, CompanionMessages3_s1, by decide +kernel⟩

def CompanionMessages4_s : State := { up with fin := [(0, (mkMsg 0x24 3 0 0 0 0 0 3 0x7F 8 0 (leBytes 8 0x1000 ++ leBytes 64 7)))] }
def CompanionMessages4_s1 : State := ((takeHost (CompanionMessages4_s) 0 0x24).getD ([], State.reset)).2
def CompanionMessages4_m : List Byte := ((takeHost (CompanionMessages4_s) 0 0x24).getD ([], State.reset)).1
theorem witness_CompanionMessages_4 :
    ∃ (f : Nat) (m : List Byte) (s : State) (s1 : State),
      f < 2 ∧
      s.pwr.st ≠ 5 ∧
      s1.boot.ready = true ∧
      takeHost s f 0x24 = some (m, s1) ∧
      ((mBody m).drop 8).length = 64 :=
  ⟨0, CompanionMessages4_m, CompanionMessages4_s, CompanionMessages4_s1, by decide +kernel⟩

def CompanionMessages5_s : State := { up with fin := [(0, (mkMsg 0x25 3 0 0 0 0 0 3 0x7F 8 0 (leBytes 8 0x1000)))] }
def CompanionMessages5_s1 : State := ((takeHost (CompanionMessages5_s) 0 0x25).getD ([], State.reset)).2
def CompanionMessages5_m : List Byte := ((takeHost (CompanionMessages5_s) 0 0x25).getD ([], State.reset)).1
theorem witness_CompanionMessages_5 :
    ∃ (f : Nat) (m : List Byte) (s : State) (s1 : State),
      (f < 2 ∧
      s.pwr.st ≠ 5 ∧
      s.boot.ready = true ∧
      takeHost s f 0x25 = some (m, s1)) ∧
      let line := localPa (field (mBody m) 0 8) / 64 * 64
      hostBusy s f line = false :=
  ⟨0, CompanionMessages5_m, CompanionMessages5_s, CompanionMessages5_s1, by decide +kernel, by decide +kernel⟩

def CompanionMessages6_s : State := { up with fin := [(0, (mkMsg 0x29 3 0 0 0 0 0 3 0x7F 8 0 (leBytes 4 0x30005)))] }
def CompanionMessages6_s1 : State := ((takeHost (CompanionMessages6_s) 0 0x29).getD ([], State.reset)).2
def CompanionMessages6_m : List Byte := ((takeHost (CompanionMessages6_s) 0 0x29).getD ([], State.reset)).1
theorem witness_CompanionMessages_6 :
    ∃ (f : Nat) (m : List Byte) (s : State) (s1 : State),
      f < 2 ∧
      s.pwr.st ≠ 5 ∧
      s.boot.ready = true ∧
      takeHost s f 0x29 = some (m, s1) ∧
      hostWritesDone s f = true :=
  ⟨0, CompanionMessages6_m, CompanionMessages6_s, CompanionMessages6_s1, by decide +kernel⟩

def CompanionMessages7_s : State := { up.modBay 0 (fun x => { x with snoops := [{ line := 0x1000, sent := 0, tag := 0 }] }) with fin := [(0, (mkMsg 0x28 3 0 0 0 0 0 3 0x7F 8 0 (leBytes 8 0x1000 ++ leBytes 8 1 ++ leBytes 64 7)))] }
def CompanionMessages7_e : Nat × List Byte := ((CompanionMessages7_s).fin.find? (isSnprsp (0))).getD ((0, []))
theorem witness_CompanionMessages_7 :
    ∃ (f : Nat) (e : Nat × List Byte) (s : State),
      (f < 2 ∧
      s.pwr.st ≠ 5) ∧
      s.fin.find? (isSnprsp f) = some e ∧
      let line := localPa (field (mBody e.2) 0 8) / 64 * 64
      let s1 := { s with fin := eraseFirst (isSnprsp f) s.fin }
      writebackCrossed s f line = false ∧
      answerWrites s line = false ∧
      (s.bay (bayOfPa s line)).snoops.any (fun n => n.line == line) = true :=
  ⟨0, CompanionMessages7_e, CompanionMessages7_s, by decide +kernel, somePair _ (by decide +kernel), by decide +kernel⟩

def CompanionMessages8_n : Snoop := { line := 0x1000, sent := 0, tag := 0 }
def CompanionMessages8_s : State := up.modBay 0 (fun x => { x with snoops := [{ line := 0x1000, sent := 0, tag := 0 }] })
theorem witness_CompanionMessages_8 :
    ∃ (b : Nat) (k : Nat) (n : Snoop) (s : State),
      b < 16 ∧
      s.pwr.st ≠ 5 ∧
      (s.bay b).snoops[k]? = some n ∧
      answerWrites s n.line = false :=
  ⟨0, 0, CompanionMessages8_n, CompanionMessages8_s, by decide +kernel⟩

def CompanionMessages9_s : State := { ({ up with boot := { up.boot with ready := false } }) with fin := [(1, (mkMsg 0x22 3 0 0 0 0 0 3 0x7F 8 0 (leBytes 8 0x1000 ++ leBytes 4 1024)))] }
def CompanionMessages9_s1 : State := ((takeHost (CompanionMessages9_s) 1 0x22).getD ([], State.reset)).2
def CompanionMessages9_m : List Byte := ((takeHost (CompanionMessages9_s) 1 0x22).getD ([], State.reset)).1
theorem witness_CompanionMessages_9 :
    ∃ (f : Nat) (t : Nat) (c : Instr) (m : List Byte) (s : State) (s1 : State),
      f < 2 ∧
      s.pwr.st ≠ 5 ∧
      s.boot.ready = false ∧
      s1.boot.ready = false ∧
      (t = 0x20 ∧ c = .crds f ∨ t = 0x21 ∧ c = .crdo f ∨ t = 0x22 ∧ c = .crdu f) ∧
      takeHost s f t = some (m, s1) :=
  ⟨1, 0x22, .crdu 1, CompanionMessages9_m, CompanionMessages9_s, CompanionMessages9_s1, by decide +kernel⟩

def CompanionMessages10_s : State := { ({ up with boot := { up.boot with ready := false } }) with fin := [(1, (mkMsg 0x29 3 0 0 0 0 0 3 0x7F 8 0 (leBytes 4 0x30005)))] }
def CompanionMessages10_s1 : State := ((takeHost (CompanionMessages10_s) 1 0x29).getD ([], State.reset)).2
def CompanionMessages10_m : List Byte := ((takeHost (CompanionMessages10_s) 1 0x29).getD ([], State.reset)).1
theorem witness_CompanionMessages_10 :
    ∃ (f : Nat) (t : Nat) (c : Instr) (m : List Byte) (s : State) (s1 : State),
      f < 2 ∧
      s.pwr.st ≠ 5 ∧
      s.boot.ready = false ∧
      s1.boot.ready = false ∧
      (t = 0x23 ∧ c = .cwr f ∨ t = 0x24 ∧ c = .cwb f ∨ t = 0x25 ∧ c = .cevict f ∨ t = 0x29 ∧ c = .doorbell f) ∧
      takeHost s f t = some (m, s1) :=
  ⟨1, 0x29, .doorbell 1, CompanionMessages10_m, CompanionMessages10_s, CompanionMessages10_s1, by decide +kernel⟩

def EngineCommandsRunTheirBodies1_matmul_c : Nat := 0x400000000000000000110000000100000000000000000002101
def EngineCommandsRunTheirBodies1_matmul_j : TeJob := { pane := 0, cmd := 0, op := 0, task := 0, ctx := 0, cls := 0 }
def EngineCommandsRunTheirBodies1_matmul_s : State := engine0 1 0x400000000000000000110000000100000000000000000002101
def EngineCommandsRunTheirBodies1_matmul_s1 : State := (startState (EngineCommandsRunTheirBodies1_matmul_s) (0) (EngineCommandsRunTheirBodies1_matmul_c) (arrRow 1 48) (cellBusy (0))).getD (State.reset)
def EngineCommandsRunTheirBodies1_matmul_s2 : State := (runMc (matmulBody (0) (EngineCommandsRunTheirBodies1_matmul_c)) (EngineCommandsRunTheirBodies1_matmul_s1)).2
def EngineCommandsRunTheirBodies1_matmul_fin : Bool := okv (false) (runMc (matmulBody (0) (EngineCommandsRunTheirBodies1_matmul_c)) (EngineCommandsRunTheirBodies1_matmul_s1)).1
theorem witness_EngineCommandsRunTheirBodies_1_matmul :
    ∃ (i : Nat) (c : Nat) (fin : Bool) (j : TeJob) (s : State) (s1 : State) (s2 : State),
      (i < 144 ∧
      s.pwr.st ≠ 5) ∧
      let after := fun (r : CmdRow) (fin : Bool) => if fin then completed s2 i c r else underWay s2 i r.eng
      let runs := fun (j : TeJob) => underWay (s2.modTe (bayOf i) (fun x => { x with jobs := [j] })) i 5
      startState s i c (arrRow 1 48) (cellBusy i) = some s1 ∧
      plainForm c 48 = true ∧
      runMc (matmulBody i c) s1 = (.ok fin, s2) :=
  ⟨0, EngineCommandsRunTheirBodies1_matmul_c, EngineCommandsRunTheirBodies1_matmul_fin, EngineCommandsRunTheirBodies1_matmul_j, EngineCommandsRunTheirBodies1_matmul_s, EngineCommandsRunTheirBodies1_matmul_s1, EngineCommandsRunTheirBodies1_matmul_s2, by decide +kernel, somePair _ (by decide +kernel), by decide +kernel, okPair _ (by decide +kernel)⟩

def EngineCommandsRunTheirBodies1_drain_c : Nat := 0x50000000000000000001102
def EngineCommandsRunTheirBodies1_drain_j : TeJob := { pane := 0, cmd := 0, op := 0, task := 0, ctx := 0, cls := 0 }
def EngineCommandsRunTheirBodies1_drain_s : State := engine0 1 0x50000000000000000001102
def EngineCommandsRunTheirBodies1_drain_s1 : State := (startState (EngineCommandsRunTheirBodies1_drain_s) (0) (EngineCommandsRunTheirBodies1_drain_c) (arrRow 2 32) (drainBusy (0) (EngineCommandsRunTheirBodies1_drain_c))).getD (State.reset)
def EngineCommandsRunTheirBodies1_drain_s2 : State := (runMc (drainBody (0) (EngineCommandsRunTheirBodies1_drain_c)) (EngineCommandsRunTheirBodies1_drain_s1)).2
def EngineCommandsRunTheirBodies1_drain_fin : Bool := okv (false) (runMc (drainBody (0) (EngineCommandsRunTheirBodies1_drain_c)) (EngineCommandsRunTheirBodies1_drain_s1)).1
theorem witness_EngineCommandsRunTheirBodies_1_drain :
    ∃ (i : Nat) (c : Nat) (fin : Bool) (j : TeJob) (s : State) (s1 : State) (s2 : State),
      (i < 144 ∧
      s.pwr.st ≠ 5) ∧
      let after := fun (r : CmdRow) (fin : Bool) => if fin then completed s2 i c r else underWay s2 i r.eng
      let runs := fun (j : TeJob) => underWay (s2.modTe (bayOf i) (fun x => { x with jobs := [j] })) i 5
      startState s i c (arrRow 2 32) (drainBusy i c) = some s1 ∧
      plainForm c 32 = true ∧
      runMc (drainBody i c) s1 = (.ok fin, s2) :=
  ⟨0, EngineCommandsRunTheirBodies1_drain_c, EngineCommandsRunTheirBodies1_drain_fin, EngineCommandsRunTheirBodies1_drain_j, EngineCommandsRunTheirBodies1_drain_s, EngineCommandsRunTheirBodies1_drain_s1, EngineCommandsRunTheirBodies1_drain_s2, by decide +kernel, somePair _ (by decide +kernel), by decide +kernel, okPair _ (by decide +kernel)⟩

def EngineCommandsRunTheirBodies1_encode_c : Nat := 0x100000000000100008000030000000000000000001103
def EngineCommandsRunTheirBodies1_encode_j : TeJob := { pane := 0, cmd := 0, op := 0, task := 0, ctx := 0, cls := 0 }
def EngineCommandsRunTheirBodies1_encode_s : State := (engine0 1 0x100000000000100008000030000000000000000001103).modPane 0 (fun p => { p with sp := tsetAll 0 [] ((List.range 16).map (fun b => (denseOff 3 64 (16 * (b % 4)) (16 * (b / 4)) / 8, 1))) })
def EngineCommandsRunTheirBodies1_encode_s1 : State := (startState (EngineCommandsRunTheirBodies1_encode_s) (0) (EngineCommandsRunTheirBodies1_encode_c) (arrRow 3 32) (cellBusy (0))).getD (State.reset)
def EngineCommandsRunTheirBodies1_encode_s2 : State := (runMc (encodeBody (0) (EngineCommandsRunTheirBodies1_encode_c)) (EngineCommandsRunTheirBodies1_encode_s1)).2
def EngineCommandsRunTheirBodies1_encode_fin : Bool := okv (false) (runMc (encodeBody (0) (EngineCommandsRunTheirBodies1_encode_c)) (EngineCommandsRunTheirBodies1_encode_s1)).1
theorem witness_EngineCommandsRunTheirBodies_1_encode :
    ∃ (i : Nat) (c : Nat) (fin : Bool) (j : TeJob) (s : State) (s1 : State) (s2 : State),
      (i < 144 ∧
      s.pwr.st ≠ 5) ∧
      let after := fun (r : CmdRow) (fin : Bool) => if fin then completed s2 i c r else underWay s2 i r.eng
      let runs := fun (j : TeJob) => underWay (s2.modTe (bayOf i) (fun x => { x with jobs := [j] })) i 5
      startState s i c (arrRow 3 32) (cellBusy i) = some s1 ∧
      plainForm c 32 = true ∧
      runMc (encodeBody i c) s1 = (.ok fin, s2) :=
  ⟨0, EngineCommandsRunTheirBodies1_encode_c, EngineCommandsRunTheirBodies1_encode_fin, EngineCommandsRunTheirBodies1_encode_j, EngineCommandsRunTheirBodies1_encode_s, EngineCommandsRunTheirBodies1_encode_s1, EngineCommandsRunTheirBodies1_encode_s2, by decide +kernel, somePair _ (by decide +kernel), by decide +kernel, okPair _ (by decide +kernel)⟩

def EngineCommandsRunTheirBodies1_chstep_c : Nat := 0x400004000100000000060000000000000000002620
def EngineCommandsRunTheirBodies1_chstep_j : TeJob := { pane := 0, cmd := 0, op := 0, task := 0, ctx := 0, cls := 0 }
def EngineCommandsRunTheirBodies1_chstep_s : State := engine0 6 0x400004000100000000060000000000000000002620
def EngineCommandsRunTheirBodies1_chstep_s1 : State := (startState (EngineCommandsRunTheirBodies1_chstep_s) (0) (EngineCommandsRunTheirBodies1_chstep_c) (chstepRow) (fun _ => false)).getD (State.reset)
def EngineCommandsRunTheirBodies1_chstep_s2 : State := (runMc (chstepBody (0) (EngineCommandsRunTheirBodies1_chstep_c)) (EngineCommandsRunTheirBodies1_chstep_s1)).2
def EngineCommandsRunTheirBodies1_chstep_fin : Bool := okv (false) (runMc (chstepBody (0) (EngineCommandsRunTheirBodies1_chstep_c)) (EngineCommandsRunTheirBodies1_chstep_s1)).1
theorem witness_EngineCommandsRunTheirBodies_1_chstep :
    ∃ (i : Nat) (c : Nat) (fin : Bool) (j : TeJob) (s : State) (s1 : State) (s2 : State),
      (i < 144 ∧
      s.pwr.st ≠ 5) ∧
      let after := fun (r : CmdRow) (fin : Bool) => if fin then completed s2 i c r else underWay s2 i r.eng
      let runs := fun (j : TeJob) => underWay (s2.modTe (bayOf i) (fun x => { x with jobs := [j] })) i 5
      startState s i c (chstepRow) (fun _ => false) = some s1 ∧
      plainForm c 48 = true ∧
      runMc (chstepBody i c) s1 = (.ok fin, s2) :=
  ⟨0, EngineCommandsRunTheirBodies1_chstep_c, EngineCommandsRunTheirBodies1_chstep_fin, EngineCommandsRunTheirBodies1_chstep_j, EngineCommandsRunTheirBodies1_chstep_s, EngineCommandsRunTheirBodies1_chstep_s1, EngineCommandsRunTheirBodies1_chstep_s2, by decide +kernel, somePair _ (by decide +kernel), by decide +kernel, okPair _ (by decide +kernel)⟩

def EngineCommandsRunTheirBodies1_sash_c : Nat := 0x100000000000000000000000000000000000000000000000000000000000000000000000000000000000000000000000000000000000000000000000000000000000000000000000000000000000000000000010001000100010000000000007201
def EngineCommandsRunTheirBodies1_sash_j : TeJob := { pane := 0, cmd := 0, op := 0, task := 0, ctx := 0, cls := 0 }
def EngineCommandsRunTheirBodies1_sash_s : State := engine0 2 0x100000000000000000000000000000000000000000000000000000000000000000000000000000000000000000000000000000000000000000000000000000000000000000000000000000000000000000000010001000100010000000000007201
def EngineCommandsRunTheirBodies1_sash_s1 : State := (startState (EngineCommandsRunTheirBodies1_sash_s) (0) (EngineCommandsRunTheirBodies1_sash_c) (vecRow 1 128 none) (engBusy (0) 2)).getD (State.reset)
def EngineCommandsRunTheirBodies1_sash_s2 : State := (runMc (sashBody (0) (EngineCommandsRunTheirBodies1_sash_c)) (EngineCommandsRunTheirBodies1_sash_s1)).2
def EngineCommandsRunTheirBodies1_sash_fin : Bool := okv (false) (runMc (sashBody (0) (EngineCommandsRunTheirBodies1_sash_c)) (EngineCommandsRunTheirBodies1_sash_s1)).1
theorem witness_EngineCommandsRunTheirBodies_1_sash :
    ∃ (i : Nat) (c : Nat) (fin : Bool) (j : TeJob) (s : State) (s1 : State) (s2 : State),
      (i < 144 ∧
      s.pwr.st ≠ 5) ∧
      let after := fun (r : CmdRow) (fin : Bool) => if fin then completed s2 i c r else underWay s2 i r.eng
      let runs := fun (j : TeJob) => underWay (s2.modTe (bayOf i) (fun x => { x with jobs := [j] })) i 5
      startState s i c (vecRow 1 128 none) (engBusy i 2) = some s1 ∧
      plainForm c 128 = true ∧
      runMc (sashBody i c) s1 = (.ok fin, s2) :=
  ⟨0, EngineCommandsRunTheirBodies1_sash_c, EngineCommandsRunTheirBodies1_sash_fin, EngineCommandsRunTheirBodies1_sash_j, EngineCommandsRunTheirBodies1_sash_s, EngineCommandsRunTheirBodies1_sash_s1, EngineCommandsRunTheirBodies1_sash_s2, by decide +kernel, somePair _ (by decide +kernel), by decide +kernel, okPair _ (by decide +kernel)⟩

def EngineCommandsRunTheirBodies1_sashImm_c : Nat := 0x70000000000000000000000000000000000000000000000000000000000000200000000000000000000000000000000000000000000000000000000000000000000000000000000000000000000000000000000000000000000000000000000000000000000000000000000000000000000010001000100010000000001008201
def EngineCommandsRunTheirBodies1_sashImm_j : TeJob := { pane := 0, cmd := 0, op := 0, task := 0, ctx := 0, cls := 0 }
def EngineCommandsRunTheirBodies1_sashImm_s : State := (engine0 2 0x70000000000000000000000000000000000000000000000000000000000000200000000000000000000000000000000000000000000000000000000000000000000000000000000000000000000000000000000000000000000000000000000000000000000000000000000000000000000010001000100010000000001008201).modPane 0 (fun p => { p with mode := 1 })
def EngineCommandsRunTheirBodies1_sashImm_s1 : State := (startState (EngineCommandsRunTheirBodies1_sashImm_s) (0) (EngineCommandsRunTheirBodies1_sashImm_c) (vecRow 1 128 none) (engBusy (0) 2)).getD (State.reset)
def EngineCommandsRunTheirBodies1_sashImm_s2 : State := (runMc (sashBody (0) (EngineCommandsRunTheirBodies1_sashImm_c)) (EngineCommandsRunTheirBodies1_sashImm_s1)).2
def EngineCommandsRunTheirBodies1_sashImm_fin : Bool := okv (false) (runMc (sashBody (0) (EngineCommandsRunTheirBodies1_sashImm_c)) (EngineCommandsRunTheirBodies1_sashImm_s1)).1
theorem witness_EngineCommandsRunTheirBodies_1_sashImm :
    ∃ (i : Nat) (c : Nat) (fin : Bool) (j : TeJob) (s : State) (s1 : State) (s2 : State),
      (i < 144 ∧
      s.pwr.st ≠ 5) ∧
      let after := fun (r : CmdRow) (fin : Bool) => if fin then completed s2 i c r else underWay s2 i r.eng
      let runs := fun (j : TeJob) => underWay (s2.modTe (bayOf i) (fun x => { x with jobs := [j] })) i 5
      startState s i c (vecRow 1 128 none) (engBusy i 2) = some s1 ∧
      (hLen c = 144 ∧
      hImm c = true ∧
      (s1.pane i).mode ≠ 0) ∧
      runMc (sashBody i c) s1 = (.ok fin, s2) :=
  ⟨0, EngineCommandsRunTheirBodies1_sashImm_c, EngineCommandsRunTheirBodies1_sashImm_fin, EngineCommandsRunTheirBodies1_sashImm_j, EngineCommandsRunTheirBodies1_sashImm_s, EngineCommandsRunTheirBodies1_sashImm_s1, EngineCommandsRunTheirBodies1_sashImm_s2, by decide +kernel, somePair _ (by decide +kernel), by decide +kernel, okPair _ (by decide +kernel)⟩

def EngineCommandsRunTheirBodies1_reduce_c : Nat := 0x40000000000000000000000000000000000000000000000000000000000000000100010001000100010000000000003202
def EngineCommandsRunTheirBodies1_reduce_j : TeJob := { pane := 0, cmd := 0, op := 0, task := 0, ctx := 0, cls := 0 }
def EngineCommandsRunTheirBodies1_reduce_s : State := engine0 2 0x40000000000000000000000000000000000000000000000000000000000000000100010001000100010000000000003202
def EngineCommandsRunTheirBodies1_reduce_s1 : State := (startState (EngineCommandsRunTheirBodies1_reduce_s) (0) (EngineCommandsRunTheirBodies1_reduce_c) (vecRow 2 64 (some 0x50)) (engBusy (0) 2)).getD (State.reset)
def EngineCommandsRunTheirBodies1_reduce_s2 : State := (runMc (reduceBody (0) (EngineCommandsRunTheirBodies1_reduce_c)) (EngineCommandsRunTheirBodies1_reduce_s1)).2
def EngineCommandsRunTheirBodies1_reduce_fin : Bool := okv (false) (runMc (reduceBody (0) (EngineCommandsRunTheirBodies1_reduce_c)) (EngineCommandsRunTheirBodies1_reduce_s1)).1
theorem witness_EngineCommandsRunTheirBodies_1_reduce :
    ∃ (i : Nat) (c : Nat) (fin : Bool) (j : TeJob) (s : State) (s1 : State) (s2 : State),
      (i < 144 ∧
      s.pwr.st ≠ 5) ∧
      let after := fun (r : CmdRow) (fin : Bool) => if fin then completed s2 i c r else underWay s2 i r.eng
      let runs := fun (j : TeJob) => underWay (s2.modTe (bayOf i) (fun x => { x with jobs := [j] })) i 5
      startState s i c (vecRow 2 64 (some 0x50)) (engBusy i 2) = some s1 ∧
      plainForm c 64 = true ∧
      runMc (reduceBody i c) s1 = (.ok fin, s2) :=
  ⟨0, EngineCommandsRunTheirBodies1_reduce_c, EngineCommandsRunTheirBodies1_reduce_fin, EngineCommandsRunTheirBodies1_reduce_j, EngineCommandsRunTheirBodies1_reduce_s, EngineCommandsRunTheirBodies1_reduce_s1, EngineCommandsRunTheirBodies1_reduce_s2, by decide +kernel, somePair _ (by decide +kernel), by decide +kernel, okPair _ (by decide +kernel)⟩

def EngineCommandsRunTheirBodies1_tabulate_c : Nat := 0x1000000000000000000000000000000000800000100000000000000400000000000004203
def EngineCommandsRunTheirBodies1_tabulate_j : TeJob := { pane := 0, cmd := 0, op := 0, task := 0, ctx := 0, cls := 0 }
def EngineCommandsRunTheirBodies1_tabulate_s : State := engine0 2 0x1000000000000000000000000000000000800000100000000000000400000000000004203
def EngineCommandsRunTheirBodies1_tabulate_s1 : State := (startState (EngineCommandsRunTheirBodies1_tabulate_s) (0) (EngineCommandsRunTheirBodies1_tabulate_c) (vecRow 3 80 (some 0x50)) (engBusy (0) 2)).getD (State.reset)
def EngineCommandsRunTheirBodies1_tabulate_s2 : State := (runMc (tabulateBody (0) (EngineCommandsRunTheirBodies1_tabulate_c)) (EngineCommandsRunTheirBodies1_tabulate_s1)).2
def EngineCommandsRunTheirBodies1_tabulate_fin : Bool := okv (false) (runMc (tabulateBody (0) (EngineCommandsRunTheirBodies1_tabulate_c)) (EngineCommandsRunTheirBodies1_tabulate_s1)).1
theorem witness_EngineCommandsRunTheirBodies_1_tabulate :
    ∃ (i : Nat) (c : Nat) (fin : Bool) (j : TeJob) (s : State) (s1 : State) (s2 : State),
      (i < 144 ∧
      s.pwr.st ≠ 5) ∧
      let after := fun (r : CmdRow) (fin : Bool) => if fin then completed s2 i c r else underWay s2 i r.eng
      let runs := fun (j : TeJob) => underWay (s2.modTe (bayOf i) (fun x => { x with jobs := [j] })) i 5
      startState s i c (vecRow 3 80 (some 0x50)) (engBusy i 2) = some s1 ∧
      plainForm c 80 = true ∧
      runMc (tabulateBody i c) s1 = (.ok fin, s2) :=
  ⟨0, EngineCommandsRunTheirBodies1_tabulate_c, EngineCommandsRunTheirBodies1_tabulate_fin, EngineCommandsRunTheirBodies1_tabulate_j, EngineCommandsRunTheirBodies1_tabulate_s, EngineCommandsRunTheirBodies1_tabulate_s1, EngineCommandsRunTheirBodies1_tabulate_s2, by decide +kernel, somePair _ (by decide +kernel), by decide +kernel, okPair _ (by decide +kernel)⟩

def EngineCommandsRunTheirBodies1_gather_c : Nat := 0x800500000001000000000000000000000000000010000000000000004301
def EngineCommandsRunTheirBodies1_gather_j : TeJob := { pane := 0, cmd := 0, op := 0, task := 0, ctx := 0, cls := 0 }
def EngineCommandsRunTheirBodies1_gather_s : State := fetched (withGraph (engine0 3 0x800500000001000000000000000000000000000010000000000000004301)) (.cmd 0 3) false 0x1000 0x1000
def EngineCommandsRunTheirBodies1_gather_s1 : State := (startState (EngineCommandsRunTheirBodies1_gather_s) (0) (EngineCommandsRunTheirBodies1_gather_c) (ngeRow 1 80) (engBusy (0) 3)).getD (State.reset)
def EngineCommandsRunTheirBodies1_gather_s2 : State := (runMc (gatherBody (0) (EngineCommandsRunTheirBodies1_gather_c)) (EngineCommandsRunTheirBodies1_gather_s1)).2
def EngineCommandsRunTheirBodies1_gather_fin : Bool := okv (false) (runMc (gatherBody (0) (EngineCommandsRunTheirBodies1_gather_c)) (EngineCommandsRunTheirBodies1_gather_s1)).1
theorem witness_EngineCommandsRunTheirBodies_1_gather :
    ∃ (i : Nat) (c : Nat) (fin : Bool) (j : TeJob) (s : State) (s1 : State) (s2 : State),
      (i < 144 ∧
      s.pwr.st ≠ 5) ∧
      let after := fun (r : CmdRow) (fin : Bool) => if fin then completed s2 i c r else underWay s2 i r.eng
      let runs := fun (j : TeJob) => underWay (s2.modTe (bayOf i) (fun x => { x with jobs := [j] })) i 5
      startState s i c (ngeRow 1 80) (engBusy i 3) = some s1 ∧
      plainForm c 80 = true ∧
      runMc (gatherBody i c) s1 = (.ok fin, s2) :=
  ⟨0, EngineCommandsRunTheirBodies1_gather_c, EngineCommandsRunTheirBodies1_gather_fin, EngineCommandsRunTheirBodies1_gather_j, EngineCommandsRunTheirBodies1_gather_s, EngineCommandsRunTheirBodies1_gather_s1, EngineCommandsRunTheirBodies1_gather_s2, by decide +kernel, somePair _ (by decide +kernel), by decide +kernel, okPair _ (by decide +kernel)⟩

def EngineCommandsRunTheirBodies1_seggather_c : Nat := 0x1000000030000000000001900000000000000180000000000000010000000000000003302
def EngineCommandsRunTheirBodies1_seggather_j : TeJob := { pane := 0, cmd := 0, op := 0, task := 0, ctx := 0, cls := 0 }
def EngineCommandsRunTheirBodies1_seggather_s : State := fetched (withGraph (engine0 3 0x1000000030000000000001900000000000000180000000000000010000000000000003302)) (.cmd 0 3) false 0x1000 0x1000
def EngineCommandsRunTheirBodies1_seggather_s1 : State := (startState (EngineCommandsRunTheirBodies1_seggather_s) (0) (EngineCommandsRunTheirBodies1_seggather_c) (ngeRow 2 64) (engBusy (0) 3)).getD (State.reset)
def EngineCommandsRunTheirBodies1_seggather_s2 : State := (runMc (seggatherBody (0) (EngineCommandsRunTheirBodies1_seggather_c)) (EngineCommandsRunTheirBodies1_seggather_s1)).2
def EngineCommandsRunTheirBodies1_seggather_fin : Bool := okv (false) (runMc (seggatherBody (0) (EngineCommandsRunTheirBodies1_seggather_c)) (EngineCommandsRunTheirBodies1_seggather_s1)).1
theorem witness_EngineCommandsRunTheirBodies_1_seggather :
    ∃ (i : Nat) (c : Nat) (fin : Bool) (j : TeJob) (s : State) (s1 : State) (s2 : State),
      (i < 144 ∧
      s.pwr.st ≠ 5) ∧
      let after := fun (r : CmdRow) (fin : Bool) => if fin then completed s2 i c r else underWay s2 i r.eng
      let runs := fun (j : TeJob) => underWay (s2.modTe (bayOf i) (fun x => { x with jobs := [j] })) i 5
      startState s i c (ngeRow 2 64) (engBusy i 3) = some s1 ∧
      plainForm c 64 = true ∧
      runMc (seggatherBody i c) s1 = (.ok fin, s2) :=
  ⟨0, EngineCommandsRunTheirBodies1_seggather_c, EngineCommandsRunTheirBodies1_seggather_fin, EngineCommandsRunTheirBodies1_seggather_j, EngineCommandsRunTheirBodies1_seggather_s, EngineCommandsRunTheirBodies1_seggather_s1, EngineCommandsRunTheirBodies1_seggather_s2, by decide +kernel, somePair _ (by decide +kernel), by decide +kernel, okPair _ (by decide +kernel)⟩

def EngineCommandsRunTheirBodies1_degscan_c : Nat := 0x18000000000410000001000000000000000000000000000010000000000000002303
def EngineCommandsRunTheirBodies1_degscan_j : TeJob := { pane := 0, cmd := 0, op := 0, task := 0, ctx := 0, cls := 0 }
def EngineCommandsRunTheirBodies1_degscan_s : State := fetched (withGraph (engine0 3 0x18000000000410000001000000000000000000000000000010000000000000002303)) (.cmd 0 3) false 0x1000 0x1000
def EngineCommandsRunTheirBodies1_degscan_s1 : State := (startState (EngineCommandsRunTheirBodies1_degscan_s) (0) (EngineCommandsRunTheirBodies1_degscan_c) (ngeRow 3 48) (engBusy (0) 3)).getD (State.reset)
def EngineCommandsRunTheirBodies1_degscan_s2 : State := (runMc (degscanBody (0) (EngineCommandsRunTheirBodies1_degscan_c)) (EngineCommandsRunTheirBodies1_degscan_s1)).2
def EngineCommandsRunTheirBodies1_degscan_fin : Bool := okv (false) (runMc (degscanBody (0) (EngineCommandsRunTheirBodies1_degscan_c)) (EngineCommandsRunTheirBodies1_degscan_s1)).1
theorem witness_EngineCommandsRunTheirBodies_1_degscan :
    ∃ (i : Nat) (c : Nat) (fin : Bool) (j : TeJob) (s : State) (s1 : State) (s2 : State),
      (i < 144 ∧
      s.pwr.st ≠ 5) ∧
      let after := fun (r : CmdRow) (fin : Bool) => if fin then completed s2 i c r else underWay s2 i r.eng
      let runs := fun (j : TeJob) => underWay (s2.modTe (bayOf i) (fun x => { x with jobs := [j] })) i 5
      startState s i c (ngeRow 3 48) (engBusy i 3) = some s1 ∧
      plainForm c 48 = true ∧
      runMc (degscanBody i c) s1 = (.ok fin, s2) :=
  ⟨0, EngineCommandsRunTheirBodies1_degscan_c, EngineCommandsRunTheirBodies1_degscan_fin, EngineCommandsRunTheirBodies1_degscan_j, EngineCommandsRunTheirBodies1_degscan_s, EngineCommandsRunTheirBodies1_degscan_s1, EngineCommandsRunTheirBodies1_degscan_s2, by decide +kernel, somePair _ (by decide +kernel), by decide +kernel, okPair _ (by decide +kernel)⟩

def EngineCommandsRunTheirBodies1_seqstage_c : Nat := 0x8000000000000000000100000000000000000000000000000000000010000000000000002304
def EngineCommandsRunTheirBodies1_seqstage_j : TeJob := { pane := 0, cmd := 0, op := 0, task := 0, ctx := 0, cls := 0 }
def EngineCommandsRunTheirBodies1_seqstage_s : State := fetched (withGraph (engine0 3 0x8000000000000000000100000000000000000000000000000000000010000000000000002304)) (.cmd 0 3) false 0x1000 0x1000
def EngineCommandsRunTheirBodies1_seqstage_s1 : State := (startState (EngineCommandsRunTheirBodies1_seqstage_s) (0) (EngineCommandsRunTheirBodies1_seqstage_c) (ngeRow 4 48) (engBusy (0) 3)).getD (State.reset)
def EngineCommandsRunTheirBodies1_seqstage_s2 : State := (runMc (seqstageBody (0) (EngineCommandsRunTheirBodies1_seqstage_c)) (EngineCommandsRunTheirBodies1_seqstage_s1)).2
def EngineCommandsRunTheirBodies1_seqstage_fin : Bool := okv (false) (runMc (seqstageBody (0) (EngineCommandsRunTheirBodies1_seqstage_c)) (EngineCommandsRunTheirBodies1_seqstage_s1)).1
theorem witness_EngineCommandsRunTheirBodies_1_seqstage :
    ∃ (i : Nat) (c : Nat) (fin : Bool) (j : TeJob) (s : State) (s1 : State) (s2 : State),
      (i < 144 ∧
      s.pwr.st ≠ 5) ∧
      let after := fun (r : CmdRow) (fin : Bool) => if fin then completed s2 i c r else underWay s2 i r.eng
      let runs := fun (j : TeJob) => underWay (s2.modTe (bayOf i) (fun x => { x with jobs := [j] })) i 5
      startState s i c (ngeRow 4 48) (engBusy i 3) = some s1 ∧
      plainForm c 48 = true ∧
      runMc (seqstageBody i c) s1 = (.ok fin, s2) :=
  ⟨0, EngineCommandsRunTheirBodies1_seqstage_c, EngineCommandsRunTheirBodies1_seqstage_fin, EngineCommandsRunTheirBodies1_seqstage_j, EngineCommandsRunTheirBodies1_seqstage_s, EngineCommandsRunTheirBodies1_seqstage_s1, EngineCommandsRunTheirBodies1_seqstage_s2, by decide +kernel, somePair _ (by decide +kernel), by decide +kernel, okPair _ (by decide +kernel)⟩

def EngineCommandsRunTheirBodies1_seqsoft_c : Nat := 0x3f800000000000000000000000000001000000000000000000002305
def EngineCommandsRunTheirBodies1_seqsoft_j : TeJob := { pane := 0, cmd := 0, op := 0, task := 0, ctx := 0, cls := 0 }
def EngineCommandsRunTheirBodies1_seqsoft_s : State := fetched (withGraph (engine0 3 0x3f800000000000000000000000000001000000000000000000002305)) (.cmd 0 3) false 0x1000 0x1000
def EngineCommandsRunTheirBodies1_seqsoft_s1 : State := (startState (EngineCommandsRunTheirBodies1_seqsoft_s) (0) (EngineCommandsRunTheirBodies1_seqsoft_c) (ngeRow 5 48) (engBusy (0) 3)).getD (State.reset)
def EngineCommandsRunTheirBodies1_seqsoft_s2 : State := (runMc (seqsoftBody (0) (EngineCommandsRunTheirBodies1_seqsoft_c)) (EngineCommandsRunTheirBodies1_seqsoft_s1)).2
def EngineCommandsRunTheirBodies1_seqsoft_fin : Bool := okv (false) (runMc (seqsoftBody (0) (EngineCommandsRunTheirBodies1_seqsoft_c)) (EngineCommandsRunTheirBodies1_seqsoft_s1)).1
theorem witness_EngineCommandsRunTheirBodies_1_seqsoft :
    ∃ (i : Nat) (c : Nat) (fin : Bool) (j : TeJob) (s : State) (s1 : State) (s2 : State),
      (i < 144 ∧
      s.pwr.st ≠ 5) ∧
      let after := fun (r : CmdRow) (fin : Bool) => if fin then completed s2 i c r else underWay s2 i r.eng
      let runs := fun (j : TeJob) => underWay (s2.modTe (bayOf i) (fun x => { x with jobs := [j] })) i 5
      startState s i c (ngeRow 5 48) (engBusy i 3) = some s1 ∧
      plainForm c 48 = true ∧
      runMc (seqsoftBody i c) s1 = (.ok fin, s2) :=
  ⟨0, EngineCommandsRunTheirBodies1_seqsoft_c, EngineCommandsRunTheirBodies1_seqsoft_fin, EngineCommandsRunTheirBodies1_seqsoft_j, EngineCommandsRunTheirBodies1_seqsoft_s, EngineCommandsRunTheirBodies1_seqsoft_s1, EngineCommandsRunTheirBodies1_seqsoft_s2, by decide +kernel, somePair _ (by decide +kernel), by decide +kernel, okPair _ (by decide +kernel)⟩

def EngineCommandsRunTheirBodies1_sopen_c : Nat := 0x10000004000000000000000000000000000001401
def EngineCommandsRunTheirBodies1_sopen_j : TeJob := { pane := 0, cmd := 0, op := 0, task := 0, ctx := 0, cls := 0 }
def EngineCommandsRunTheirBodies1_sopen_s : State := engine0 4 0x10000004000000000000000000000000000001401
def EngineCommandsRunTheirBodies1_sopen_s1 : State := (startState (EngineCommandsRunTheirBodies1_sopen_s) (0) (EngineCommandsRunTheirBodies1_sopen_c) (seRow 1 32) (fun _ => false)).getD (State.reset)
def EngineCommandsRunTheirBodies1_sopen_s2 : State := (runMc (sopenBody (0) (EngineCommandsRunTheirBodies1_sopen_c)) (EngineCommandsRunTheirBodies1_sopen_s1)).2
def EngineCommandsRunTheirBodies1_sopen_fin : Bool := okv (false) (runMc (sopenBody (0) (EngineCommandsRunTheirBodies1_sopen_c)) (EngineCommandsRunTheirBodies1_sopen_s1)).1
theorem witness_EngineCommandsRunTheirBodies_1_sopen :
    ∃ (i : Nat) (c : Nat) (fin : Bool) (j : TeJob) (s : State) (s1 : State) (s2 : State),
      (i < 144 ∧
      s.pwr.st ≠ 5) ∧
      let after := fun (r : CmdRow) (fin : Bool) => if fin then completed s2 i c r else underWay s2 i r.eng
      let runs := fun (j : TeJob) => underWay (s2.modTe (bayOf i) (fun x => { x with jobs := [j] })) i 5
      startState s i c (seRow 1 32) (fun _ => false) = some s1 ∧
      plainForm c 32 = true ∧
      runMc (sopenBody i c) s1 = (.ok fin, s2) :=
  ⟨0, EngineCommandsRunTheirBodies1_sopen_c, EngineCommandsRunTheirBodies1_sopen_fin, EngineCommandsRunTheirBodies1_sopen_j, EngineCommandsRunTheirBodies1_sopen_s, EngineCommandsRunTheirBodies1_sopen_s1, EngineCommandsRunTheirBodies1_sopen_s2, by decide +kernel, somePair _ (by decide +kernel), by decide +kernel, okPair _ (by decide +kernel)⟩

def EngineCommandsRunTheirBodies1_check_c : Nat := 0x30000000800000000000010000000000000002701
def EngineCommandsRunTheirBodies1_check_j : TeJob := { pane := 0, cmd := 0, op := 0, task := 0, ctx := 0, cls := 0 }
def EngineCommandsRunTheirBodies1_check_s : State := fetched (engine0 7 0x30000000800000000000010000000000000002701) (.cmd 0 7) false 0x1000 0x1000
def EngineCommandsRunTheirBodies1_check_s1 : State := (startState (EngineCommandsRunTheirBodies1_check_s) (0) (EngineCommandsRunTheirBodies1_check_c) (checkRow) (fun _ => false)).getD (State.reset)
def EngineCommandsRunTheirBodies1_check_s2 : State := (runMc (checkBody (0) (EngineCommandsRunTheirBodies1_check_c)) (EngineCommandsRunTheirBodies1_check_s1)).2
def EngineCommandsRunTheirBodies1_check_fin : Bool := okv (false) (runMc (checkBody (0) (EngineCommandsRunTheirBodies1_check_c)) (EngineCommandsRunTheirBodies1_check_s1)).1
theorem witness_EngineCommandsRunTheirBodies_1_check :
    ∃ (i : Nat) (c : Nat) (fin : Bool) (j : TeJob) (s : State) (s1 : State) (s2 : State),
      (i < 144 ∧
      s.pwr.st ≠ 5) ∧
      let after := fun (r : CmdRow) (fin : Bool) => if fin then completed s2 i c r else underWay s2 i r.eng
      let runs := fun (j : TeJob) => underWay (s2.modTe (bayOf i) (fun x => { x with jobs := [j] })) i 5
      startState s i c (checkRow) (fun _ => false) = some s1 ∧
      plainForm c 48 = true ∧
      runMc (checkBody i c) s1 = (.ok fin, s2) :=
  ⟨0, EngineCommandsRunTheirBodies1_check_c, EngineCommandsRunTheirBodies1_check_fin, EngineCommandsRunTheirBodies1_check_j, EngineCommandsRunTheirBodies1_check_s, EngineCommandsRunTheirBodies1_check_s1, EngineCommandsRunTheirBodies1_check_s2, by decide +kernel, somePair _ (by decide +kernel), by decide +kernel, okPair _ (by decide +kernel)⟩

def EngineCommandsRunTheirBodies1_tlookup_c : Nat := 0x10102000000000000000000400001000000000000000000000000000000000001000000000000000000003501
def EngineCommandsRunTheirBodies1_tlookup_s : State := fetched (fetched (withTable (engine0 5 0x10102000000000000000000400001000000000000000000000000000000000001000000000000000000003501)) (.cmd 0 5) false 0 0x2000) (.cmd 0 5) true 0 0x2000
def EngineCommandsRunTheirBodies1_tlookup_s1 : State := (startState (EngineCommandsRunTheirBodies1_tlookup_s) (0) (EngineCommandsRunTheirBodies1_tlookup_c) (teRow 1 64) (fun _ => false)).getD (State.reset)
def EngineCommandsRunTheirBodies1_tlookup_s2 : State := (runMc (tlookupBody (0) (EngineCommandsRunTheirBodies1_tlookup_c)) (EngineCommandsRunTheirBodies1_tlookup_s1)).2
def EngineCommandsRunTheirBodies1_tlookup_j : TeJob := okv ({ pane := 0, cmd := 0, op := 0, task := 0, ctx := 0, cls := 0 }) (runMc (tlookupBody (0) (EngineCommandsRunTheirBodies1_tlookup_c)) (EngineCommandsRunTheirBodies1_tlookup_s1)).1
theorem witness_EngineCommandsRunTheirBodies_1_tlookup :
    ∃ (i : Nat) (c : Nat) (fin : Bool) (j : TeJob) (s : State) (s1 : State) (s2 : State),
      (i < 144 ∧
      s.pwr.st ≠ 5) ∧
      let after := fun (r : CmdRow) (fin : Bool) => if fin then completed s2 i c r else underWay s2 i r.eng
      let runs := fun (j : TeJob) => underWay (s2.modTe (bayOf i) (fun x => { x with jobs := [j] })) i 5
      startState s i c (teRow 1 64) (fun _ => false) = some s1 ∧
      plainForm c 64 = true ∧
      runMc (tlookupBody i c) s1 = (.ok j, s2) :=
  ⟨0, EngineCommandsRunTheirBodies1_tlookup_c, false, EngineCommandsRunTheirBodies1_tlookup_j, EngineCommandsRunTheirBodies1_tlookup_s, EngineCommandsRunTheirBodies1_tlookup_s1, EngineCommandsRunTheirBodies1_tlookup_s2, by decide +kernel, somePair _ (by decide +kernel), by decide +kernel, okPair _ (by decide +kernel)⟩

def EngineCommandsRunTheirBodies1_tprefetch_c : Nat := 0x102000000000000000000000000000000000000000000000000000000000001000000000000000000003502
def EngineCommandsRunTheirBodies1_tprefetch_s : State := fetched (fetched (withTable (engine0 5 0x102000000000000000000000000000000000000000000000000000000000001000000000000000000003502)) (.cmd 0 5) false 0 0x2000) (.cmd 0 5) true 0 0x2000
def EngineCommandsRunTheirBodies1_tprefetch_s1 : State := (startState (EngineCommandsRunTheirBodies1_tprefetch_s) (0) (EngineCommandsRunTheirBodies1_tprefetch_c) (teRow 2 64) (fun _ => false)).getD (State.reset)
def EngineCommandsRunTheirBodies1_tprefetch_s2 : State := (runMc (tprefetchBody (0) (EngineCommandsRunTheirBodies1_tprefetch_c)) (EngineCommandsRunTheirBodies1_tprefetch_s1)).2
def EngineCommandsRunTheirBodies1_tprefetch_j : TeJob := okv ({ pane := 0, cmd := 0, op := 0, task := 0, ctx := 0, cls := 0 }) (runMc (tprefetchBody (0) (EngineCommandsRunTheirBodies1_tprefetch_c)) (EngineCommandsRunTheirBodies1_tprefetch_s1)).1
theorem witness_EngineCommandsRunTheirBodies_1_tprefetch :
    ∃ (i : Nat) (c : Nat) (fin : Bool) (j : TeJob) (s : State) (s1 : State) (s2 : State),
      (i < 144 ∧
      s.pwr.st ≠ 5) ∧
      let after := fun (r : CmdRow) (fin : Bool) => if fin then completed s2 i c r else underWay s2 i r.eng
      let runs := fun (j : TeJob) => underWay (s2.modTe (bayOf i) (fun x => { x with jobs := [j] })) i 5
      startState s i c (teRow 2 64) (fun _ => false) = some s1 ∧
      plainForm c 64 = true ∧
      runMc (tprefetchBody i c) s1 = (.ok j, s2) :=
  ⟨0, EngineCommandsRunTheirBodies1_tprefetch_c, false, EngineCommandsRunTheirBodies1_tprefetch_j, EngineCommandsRunTheirBodies1_tprefetch_s, EngineCommandsRunTheirBodies1_tprefetch_s1, EngineCommandsRunTheirBodies1_tprefetch_s2, by decide +kernel, somePair _ (by decide +kernel), by decide +kernel, okPair _ (by decide +kernel)⟩

def EngineCommandsRunTheirBodies1_tgrad_c : Nat := 0x1000000000000000000000000000000000001000000000000000000003503
def EngineCommandsRunTheirBodies1_tgrad_s : State := fetched (fetched (withTable (engine0 5 0x1000000000000000000000000000000000001000000000000000000003503)) (.cmd 0 5) false 0 0x2000) (.cmd 0 5) true 0 0x2000
def EngineCommandsRunTheirBodies1_tgrad_s1 : State := (startState (EngineCommandsRunTheirBodies1_tgrad_s) (0) (EngineCommandsRunTheirBodies1_tgrad_c) (teRow 3 64) (fun _ => false)).getD (State.reset)
def EngineCommandsRunTheirBodies1_tgrad_s2 : State := (runMc (tgradBody (0) (EngineCommandsRunTheirBodies1_tgrad_c)) (EngineCommandsRunTheirBodies1_tgrad_s1)).2
def EngineCommandsRunTheirBodies1_tgrad_j : TeJob := okv ({ pane := 0, cmd := 0, op := 0, task := 0, ctx := 0, cls := 0 }) (runMc (tgradBody (0) (EngineCommandsRunTheirBodies1_tgrad_c)) (EngineCommandsRunTheirBodies1_tgrad_s1)).1
theorem witness_EngineCommandsRunTheirBodies_1_tgrad :
    ∃ (i : Nat) (c : Nat) (fin : Bool) (j : TeJob) (s : State) (s1 : State) (s2 : State),
      (i < 144 ∧
      s.pwr.st ≠ 5) ∧
      let after := fun (r : CmdRow) (fin : Bool) => if fin then completed s2 i c r else underWay s2 i r.eng
      let runs := fun (j : TeJob) => underWay (s2.modTe (bayOf i) (fun x => { x with jobs := [j] })) i 5
      startState s i c (teRow 3 64) (fun _ => false) = some s1 ∧
      plainForm c 64 = true ∧
      runMc (tgradBody i c) s1 = (.ok j, s2) :=
  ⟨0, EngineCommandsRunTheirBodies1_tgrad_c, false, EngineCommandsRunTheirBodies1_tgrad_j, EngineCommandsRunTheirBodies1_tgrad_s, EngineCommandsRunTheirBodies1_tgrad_s1, EngineCommandsRunTheirBodies1_tgrad_s2, by decide +kernel, somePair _ (by decide +kernel), by decide +kernel, okPair _ (by decide +kernel)⟩

def EngineCommandsRunTheirBodies1_tstepApply_c : Nat := 0x1000000000000000000001504
def EngineCommandsRunTheirBodies1_tstepApply_s : State := fetched (fetched (withTable (engine0 5 0x1000000000000000000001504)) (.cmd 0 5) false 0 0x2000) (.cmd 0 5) true 0 0x2000
def EngineCommandsRunTheirBodies1_tstepApply_s1 : State := (startState (EngineCommandsRunTheirBodies1_tstepApply_s) (0) (EngineCommandsRunTheirBodies1_tstepApply_c) (teRow 4 32) (fun _ => false)).getD (State.reset)
def EngineCommandsRunTheirBodies1_tstepApply_s2 : State := (runMc (tstepBody (0) (EngineCommandsRunTheirBodies1_tstepApply_c)) (EngineCommandsRunTheirBodies1_tstepApply_s1)).2
def EngineCommandsRunTheirBodies1_tstepApply_j : TeJob := okv ({ pane := 0, cmd := 0, op := 0, task := 0, ctx := 0, cls := 0 }) (runMc (tstepBody (0) (EngineCommandsRunTheirBodies1_tstepApply_c)) (EngineCommandsRunTheirBodies1_tstepApply_s1)).1
theorem witness_EngineCommandsRunTheirBodies_1_tstepApply :
    ∃ (i : Nat) (c : Nat) (fin : Bool) (j : TeJob) (s : State) (s1 : State) (s2 : State),
      (i < 144 ∧
      s.pwr.st ≠ 5) ∧
      let after := fun (r : CmdRow) (fin : Bool) => if fin then completed s2 i c r else underWay s2 i r.eng
      let runs := fun (j : TeJob) => underWay (s2.modTe (bayOf i) (fun x => { x with jobs := [j] })) i 5
      startState s i c (teRow 4 32) (fun _ => false) = some s1 ∧
      plainForm c 32 = true ∧
      runMc (tstepBody i c) s1 = (.ok j, s2) :=
  ⟨0, EngineCommandsRunTheirBodies1_tstepApply_c, false, EngineCommandsRunTheirBodies1_tstepApply_j, EngineCommandsRunTheirBodies1_tstepApply_s, EngineCommandsRunTheirBodies1_tstepApply_s1, EngineCommandsRunTheirBodies1_tstepApply_s2, by decide +kernel, somePair _ (by decide +kernel), by decide +kernel, okPair _ (by decide +kernel)⟩

def EngineCommandsRunTheirBodies1_tstepRefresh_c : Nat := 0x1000010000000000000001504
def EngineCommandsRunTheirBodies1_tstepRefresh_s : State := fetched (fetched (withTable (engine0 5 0x1000010000000000000001504)) (.cmd 0 5) false 0 0x2000) (.cmd 0 5) true 0 0x2000
def EngineCommandsRunTheirBodies1_tstepRefresh_s1 : State := (startState (EngineCommandsRunTheirBodies1_tstepRefresh_s) (0) (EngineCommandsRunTheirBodies1_tstepRefresh_c) (teRow 4 32) (fun _ => false)).getD (State.reset)
def EngineCommandsRunTheirBodies1_tstepRefresh_s2 : State := (runMc (tstepBody (0) (EngineCommandsRunTheirBodies1_tstepRefresh_c)) (EngineCommandsRunTheirBodies1_tstepRefresh_s1)).2
def EngineCommandsRunTheirBodies1_tstepRefresh_j : TeJob := okv ({ pane := 0, cmd := 0, op := 0, task := 0, ctx := 0, cls := 0 }) (runMc (tstepBody (0) (EngineCommandsRunTheirBodies1_tstepRefresh_c)) (EngineCommandsRunTheirBodies1_tstepRefresh_s1)).1
theorem witness_EngineCommandsRunTheirBodies_1_tstepRefresh :
    ∃ (i : Nat) (c : Nat) (fin : Bool) (j : TeJob) (s : State) (s1 : State) (s2 : State),
      (i < 144 ∧
      s.pwr.st ≠ 5) ∧
      let after := fun (r : CmdRow) (fin : Bool) => if fin then completed s2 i c r else underWay s2 i r.eng
      let runs := fun (j : TeJob) => underWay (s2.modTe (bayOf i) (fun x => { x with jobs := [j] })) i 5
      startState s i c (teRow 4 32) (fun _ => false) = some s1 ∧
      plainForm c 32 = true ∧
      runMc (tstepBody i c) s1 = (.ok j, s2) :=
  ⟨0, EngineCommandsRunTheirBodies1_tstepRefresh_c, false, EngineCommandsRunTheirBodies1_tstepRefresh_j, EngineCommandsRunTheirBodies1_tstepRefresh_s, EngineCommandsRunTheirBodies1_tstepRefresh_s1, EngineCommandsRunTheirBodies1_tstepRefresh_s2, by decide +kernel, somePair _ (by decide +kernel), by decide +kernel, okPair _ (by decide +kernel)⟩

def EngineCommandsRunTheirBodies1_trepl_c : Nat := 0x100000000000000000000000000001505
def EngineCommandsRunTheirBodies1_trepl_s : State := fetched (fetched (withTable (engine0 5 0x100000000000000000000000000001505)) (.cmd 0 5) false 0 0x2000) (.cmd 0 5) true 0 0x2000
def EngineCommandsRunTheirBodies1_trepl_s1 : State := (startState (EngineCommandsRunTheirBodies1_trepl_s) (0) (EngineCommandsRunTheirBodies1_trepl_c) (teRow 5 32) (fun _ => false)).getD (State.reset)
def EngineCommandsRunTheirBodies1_trepl_s2 : State := (runMc (treplBody (0) (EngineCommandsRunTheirBodies1_trepl_c)) (EngineCommandsRunTheirBodies1_trepl_s1)).2
def EngineCommandsRunTheirBodies1_trepl_j : TeJob := okv ({ pane := 0, cmd := 0, op := 0, task := 0, ctx := 0, cls := 0 }) (runMc (treplBody (0) (EngineCommandsRunTheirBodies1_trepl_c)) (EngineCommandsRunTheirBodies1_trepl_s1)).1
theorem witness_EngineCommandsRunTheirBodies_1_trepl :
    ∃ (i : Nat) (c : Nat) (fin : Bool) (j : TeJob) (s : State) (s1 : State) (s2 : State),
      (i < 144 ∧
      s.pwr.st ≠ 5) ∧
      let after := fun (r : CmdRow) (fin : Bool) => if fin then completed s2 i c r else underWay s2 i r.eng
      let runs := fun (j : TeJob) => underWay (s2.modTe (bayOf i) (fun x => { x with jobs := [j] })) i 5
      startState s i c (teRow 5 32) (fun _ => false) = some s1 ∧
      plainForm c 32 = true ∧
      runMc (treplBody i c) s1 = (.ok j, s2) :=
  ⟨0, EngineCommandsRunTheirBodies1_trepl_c, false, EngineCommandsRunTheirBodies1_trepl_j, EngineCommandsRunTheirBodies1_trepl_s, EngineCommandsRunTheirBodies1_trepl_s1, EngineCommandsRunTheirBodies1_trepl_s2, by decide +kernel, somePair _ (by decide +kernel), by decide +kernel, okPair _ (by decide +kernel)⟩

def EngineCommandsRunTheirBodies1_tmigrate_c : Nat := 0x10000000000100000000000000000000000000001506
def EngineCommandsRunTheirBodies1_tmigrate_s : State := fetched (fetched (withTable (engine0 5 0x10000000000100000000000000000000000000001506)) (.cmd 0 5) false 0 0x2000) (.cmd 0 5) true 0 0x2000
def EngineCommandsRunTheirBodies1_tmigrate_s1 : State := (startState (EngineCommandsRunTheirBodies1_tmigrate_s) (0) (EngineCommandsRunTheirBodies1_tmigrate_c) (teRow 6 32) (fun _ => false)).getD (State.reset)
def EngineCommandsRunTheirBodies1_tmigrate_s2 : State := (runMc (tmigrateBody (0) (EngineCommandsRunTheirBodies1_tmigrate_c)) (EngineCommandsRunTheirBodies1_tmigrate_s1)).2
def EngineCommandsRunTheirBodies1_tmigrate_j : TeJob := okv ({ pane := 0, cmd := 0, op := 0, task := 0, ctx := 0, cls := 0 }) (runMc (tmigrateBody (0) (EngineCommandsRunTheirBodies1_tmigrate_c)) (EngineCommandsRunTheirBodies1_tmigrate_s1)).1
theorem witness_EngineCommandsRunTheirBodies_1_tmigrate :
    ∃ (i : Nat) (c : Nat) (fin : Bool) (j : TeJob) (s : State) (s1 : State) (s2 : State),
      (i < 144 ∧
      s.pwr.st ≠ 5) ∧
      let after := fun (r : CmdRow) (fin : Bool) => if fin then completed s2 i c r else underWay s2 i r.eng
      let runs := fun (j : TeJob) => underWay (s2.modTe (bayOf i) (fun x => { x with jobs := [j] })) i 5
      startState s i c (teRow 6 32) (fun _ => false) = some s1 ∧
      plainForm c 32 = true ∧
      runMc (tmigrateBody i c) s1 = (.ok j, s2) :=
  ⟨0, EngineCommandsRunTheirBodies1_tmigrate_c, false, EngineCommandsRunTheirBodies1_tmigrate_j, EngineCommandsRunTheirBodies1_tmigrate_s, EngineCommandsRunTheirBodies1_tmigrate_s1, EngineCommandsRunTheirBodies1_tmigrate_s2, by decide +kernel, somePair _ (by decide +kernel), by decide +kernel, okPair _ (by decide +kernel)⟩

def EngineCommandsRunTheirBodies1_trowwrite_c : Nat := 0x100000000000000000000000000001507
def EngineCommandsRunTheirBodies1_trowwrite_s : State := fetched (fetched (withTable (engine0 5 0x100000000000000000000000000001507)) (.cmd 0 5) false 0 0x2000) (.cmd 0 5) true 0 0x2000
def EngineCommandsRunTheirBodies1_trowwrite_s1 : State := (startState (EngineCommandsRunTheirBodies1_trowwrite_s) (0) (EngineCommandsRunTheirBodies1_trowwrite_c) (teRow 7 32) (fun _ => false)).getD (State.reset)
def EngineCommandsRunTheirBodies1_trowwrite_s2 : State := (runMc (trowwriteBody (0) (EngineCommandsRunTheirBodies1_trowwrite_c)) (EngineCommandsRunTheirBodies1_trowwrite_s1)).2
def EngineCommandsRunTheirBodies1_trowwrite_j : TeJob := okv ({ pane := 0, cmd := 0, op := 0, task := 0, ctx := 0, cls := 0 }) (runMc (trowwriteBody (0) (EngineCommandsRunTheirBodies1_trowwrite_c)) (EngineCommandsRunTheirBodies1_trowwrite_s1)).1
theorem witness_EngineCommandsRunTheirBodies_1_trowwrite :
    ∃ (i : Nat) (c : Nat) (fin : Bool) (j : TeJob) (s : State) (s1 : State) (s2 : State),
      (i < 144 ∧
      s.pwr.st ≠ 5) ∧
      let after := fun (r : CmdRow) (fin : Bool) => if fin then completed s2 i c r else underWay s2 i r.eng
      let runs := fun (j : TeJob) => underWay (s2.modTe (bayOf i) (fun x => { x with jobs := [j] })) i 5
      startState s i c (teRow 7 32) (fun _ => false) = some s1 ∧
      plainForm c 32 = true ∧
      runMc (trowwriteBody i c) s1 = (.ok j, s2) :=
  ⟨0, EngineCommandsRunTheirBodies1_trowwrite_c, false, EngineCommandsRunTheirBodies1_trowwrite_j, EngineCommandsRunTheirBodies1_trowwrite_s, EngineCommandsRunTheirBodies1_trowwrite_s1, EngineCommandsRunTheirBodies1_trowwrite_s2, by decide +kernel, somePair _ (by decide +kernel), by decide +kernel, okPair _ (by decide +kernel)⟩


def ArrayResults1_c : Nat := 0x400000000000000000110000000100000000000000000002101
def ArrayResults1_s : State := engine0 1 0x400000000000000000110000000100000000000000000002101
def ArrayResults1_s1 : State := (runMc (matmulBody (0) (ArrayResults1_c)) (ArrayResults1_s)).2
def ArrayResults1_fin : Bool := okv (false) (runMc (matmulBody (0) (ArrayResults1_c)) (ArrayResults1_s)).1
theorem witness_ArrayResults_1 :
    ∃ (i : Nat) (c : Nat) (fin : Bool) (s : State) (s1 : State),
      runMc (matmulBody i c) s = (.ok fin, s1) :=
  ⟨0, ArrayResults1_c, ArrayResults1_fin, ArrayResults1_s, ArrayResults1_s1, okPair _ (by decide +kernel)⟩

def ArrayResults2_s : State := busy0.modPane 0 (fun p => { p with mat := some { acct := 3, long := false, tag := 9, pred := false, makeup := false, acc := [(0, 1)], sp := [], flags := {}, start := true } })
def ArrayResults2_m : MatPending := { acct := 3, long := false, tag := 9, pred := false, makeup := false, acc := [(0, 1)], sp := [], flags := {}, start := true }
theorem witness_ArrayResults_2 :
    ∃ (i : Nat) (s : State) (m : MatPending),
      i < 144 ∧
      s.pwr.st ≠ 5 ∧
      mayRun s i = true ∧
      (s.pane i).mat = some m :=
  ⟨0, ArrayResults2_s, ArrayResults2_m, by decide +kernel⟩

def ArrayResults3_c : Nat := 0x50000000000000000001102
def ArrayResults3_s : State := engine0 1 0x50000000000000000001102
def ArrayResults3_s1 : State := (startState (ArrayResults3_s) (0) (ArrayResults3_c) (arrRow 2 32) (drainBusy (0) (ArrayResults3_c))).getD (State.reset)
def ArrayResults3_s2 : State := (runMc (readTile (0) 1 ((cbits (ArrayResults3_c) 12 6 0)) ((cbits (ArrayResults3_c) 12 7 7 == 1))) (ArrayResults3_s1)).2
def ArrayResults3_t : Task := (((ArrayResults3_s1).pane (0)).task.bind (ArrayResults3_s1).taskOf).getD (task1)
def ArrayResults3_xs : List Nat := okv (default) (runMc (readTile (0) 1 ((cbits (ArrayResults3_c) 12 6 0)) ((cbits (ArrayResults3_c) 12 7 7 == 1))) (ArrayResults3_s1)).1
def ArrayResults3_s3 : State := (runMc (spWrite (0) 1 (cbits (ArrayResults3_c) 8 23 0) (packElems (fmtBits (cbits (ArrayResults3_c) 8 27 24))
      ((drainOrder (cbits (ArrayResults3_c) 8 27 24) (cbits (ArrayResults3_c) 8 30 30 == 1)).map (fun k => (((((ArrayResults3_xs).map (fun x => convert (cbits (ArrayResults3_c) 8 27 24) (cbits (ArrayResults3_c) 8 29 29 == 1) (cbits (ArrayResults3_c) 8 31 31 == 1) (cbits (ArrayResults3_c) 12 12 8)
      (if ((cbits (ArrayResults3_c) 8 28 28 == 1)) then rectify (elemVal ((tileFlags ((ArrayResults3_s1).pane (0)) ((cbits (ArrayResults3_c) 12 6 0)) ((cbits (ArrayResults3_c) 12 7 7 == 1)))).kind ((cbits (ArrayResults3_c) 12 7 7 == 1)) x) else elemVal ((tileFlags ((ArrayResults3_s1).pane (0)) ((cbits (ArrayResults3_c) 12 6 0)) ((cbits (ArrayResults3_c) 12 7 7 == 1)))).kind ((cbits (ArrayResults3_c) 12 7 7 == 1)) x))))[k]?).map CRes.out).getD 0)))) (ArrayResults3_s2)).2
theorem witness_ArrayResults_3 :
    ∃ (i : Nat) (c : Nat) (s : State) (s1 : State) (s2 : State) (s3 : State) (t : Task) (xs : List Nat),
      (i < 144 ∧
      s.pwr.st ≠ 5) ∧
      startState s i c (arrRow 2 32) (drainBusy i c) = some s1 ∧
      (plainForm c 32 = true ∧
      cbits c 12 31 13 = 0 ∧
      cbytes c 16 16 = 0 ∧
      cbits c 8 23 0 % 128 = 0 ∧
      cbits c 8 27 24 < 8 ∧
      (cbits c 8 31 31 = 0 ∨ cbits c 8 27 24 = 5 ∨ cbits c 8 27 24 = 6)) ∧
      let acct := cbits c 12 6 0
      let long := cbits c 12 7 7 == 1
      let rect := cbits c 8 28 28 == 1
      let f := tileFlags (s1.pane i) acct long
      ((long = false ∨ acct ≤ 5) ∧
      (cbits c 12 12 8 = 0 ∨ (cbits c 8 27 24 = 5 ∨ cbits c 8 27 24 = 6) ∧ f.kind % 2 = 1) ∧
      (f.pred = false ∨ rect = true)) ∧
      (s1.pane i).task.bind s1.taskOf = some t ∧
      (inClaim t (cbits c 8 23 0) (tileBytes (cbits c 8 27 24)) = true ∧
      tileClaimed t acct long = true) ∧
      runMc (readTile i 1 acct long) s1 = (.ok xs, s2) ∧
      let rs := xs.map (fun x => convert (cbits c 8 27 24) (cbits c 8 29 29 == 1) (cbits c 8 31 31 == 1) (cbits c 12 12 8)
        (if rect then rectify (elemVal f.kind long x) else elemVal f.kind long x))
      runMc (spWrite i 1 (cbits c 8 23 0) (packElems (fmtBits (cbits c 8 27 24))
      ((drainOrder (cbits c 8 27 24) (cbits c 8 30 30 == 1)).map (fun k => ((rs[k]?).map CRes.out).getD 0)))) s2 = (.ok (), s3) :=
  ⟨0, ArrayResults3_c, ArrayResults3_s, ArrayResults3_s1, ArrayResults3_s2, ArrayResults3_s3, ArrayResults3_t, ArrayResults3_xs, by decide +kernel, somePair _ (by decide +kernel), by decide +kernel, by decide +kernel, somePair _ (by decide +kernel), by decide +kernel, okPair _ (by decide +kernel), okPairV (by decide +kernel)⟩

def ChainRecordsLand1_m : List Byte := mkMsg 0x0B 1 0 0 1 2 5 0 0x7F 6 0 (leBytes 1 0 ++ leBytes 1 0 ++ leBytes 2 7 ++ leBytes 4 0x40 ++ leBytes 64 5)
def ChainRecordsLand1_s : State := ((busy0.modPane 0 (fun p => { p with regOwn := [(0, 5)] }))).modXe 0 (fun x => { x with chain := [(1, mkMsg 0x0B 1 0 0 1 2 5 0 0x7F 6 0 (leBytes 1 0 ++ leBytes 1 0 ++ leBytes 2 7 ++ leBytes 4 0x40 ++ leBytes 64 5))] })
def ChainRecordsLand1_j : Nat := ((ChainRecordsLand1_s).instOf (field (mBody (ChainRecordsLand1_m)) 0 1 % 128)).getD (0)
def ChainRecordsLand1_s1 : State := (runMc (landBytes (.bay (0) (.land false)) (ChainRecordsLand1_j) (field (mBody (ChainRecordsLand1_m)) 0 1 % 128) (mCtx (ChainRecordsLand1_m)) (field (mBody (ChainRecordsLand1_m)) 4 4) ((mBody (ChainRecordsLand1_m)).drop 8)) (ChainRecordsLand1_s)
     ).2
theorem witness_ChainRecordsLand_1 :
    ∃ (b : Nat) (task : Nat) (j : Nat) (m : List Byte) (q : List (Nat × List Byte)) (s : State) (s1 : State),
      (b < 16 ∧
      s.pwr.st ≠ 5 ∧
      (s.bay b).xe.chain = (task, m) :: q) ∧
      s.instOf (field (mBody m) 0 1 % 128) = some j ∧
      s.ctxReset ≠ some (mCtx m) ∧
      runMc (landBytes (.bay b (.land false)) j (field (mBody m) 0 1 % 128) (mCtx m) (field (mBody m) 4 4) ((mBody m).drop 8)) s
      = (.ok true, s1) :=
  ⟨0, 1, ChainRecordsLand1_j, ChainRecordsLand1_m, [], ChainRecordsLand1_s, ChainRecordsLand1_s1, by decide +kernel, somePair _ (by decide +kernel), by decide +kernel, okPairV (by decide +kernel)⟩

def ChainRecordsLand2_m : List Byte := mkMsg 0x0B 1 0 0 1 2 4 0 0x7F 6 0 (leBytes 1 127 ++ leBytes 1 0 ++ leBytes 2 7 ++ leBytes 4 0x40 ++ leBytes 64 5)
def ChainRecordsLand2_s : State := ((busy0.modPane 0 (fun p => { p with regOwn := [(0, 5)] }))).modXe 0 (fun x => { x with chain := [(1, mkMsg 0x0B 1 0 0 1 2 4 0 0x7F 6 0 (leBytes 1 127 ++ leBytes 1 0 ++ leBytes 2 7 ++ leBytes 4 0x40 ++ leBytes 64 5))] }) |>.modPane 142 (fun p => { p with number := none })
theorem witness_ChainRecordsLand_2 :
    ∃ (b : Nat) (task : Nat) (m : List Byte) (q : List (Nat × List Byte)) (s : State),
      b < 16 ∧
      s.pwr.st ≠ 5 ∧
      (s.bay b).xe.chain = (task, m) :: q ∧
      s.instOf (field (mBody m) 0 1 % 128) = none :=
  ⟨0, 1, ChainRecordsLand2_m, [], ChainRecordsLand2_s, by decide +kernel⟩

def ChainRecordsLand3_s : State := (busy0.modPane 0 (fun p => { p with regOwn := [(0, 5)] })).modXe 0 (fun x => { x with xin := [mkMsg 0x0B 1 0 0 1 2 5 0 0x7F 6 0 (leBytes 1 0 ++ leBytes 1 0 ++ leBytes 2 7 ++ leBytes 4 0x40 ++ leBytes 64 5)] })
def ChainRecordsLand3_s0 : State := ((takeX (ChainRecordsLand3_s) (0) 0x0B).getD ([], State.reset)).2
def ChainRecordsLand3_m : List Byte := ((takeX (ChainRecordsLand3_s) (0) 0x0B).getD ([], State.reset)).1
def ChainRecordsLand3_j : Nat := ((ChainRecordsLand3_s).instOf (field (mBody (ChainRecordsLand3_m)) 0 1 % 128)).getD (0)
def ChainRecordsLand3_s1 : State := (runMc (landBytes (.bay (0) (.land true)) (ChainRecordsLand3_j) (field (mBody (ChainRecordsLand3_m)) 0 1 % 128) (mCtx (ChainRecordsLand3_m)) (field (mBody (ChainRecordsLand3_m)) 4 4) ((mBody (ChainRecordsLand3_m)).drop 8)) (ChainRecordsLand3_s)
     ).2
theorem witness_ChainRecordsLand_3 :
    ∃ (b : Nat) (j : Nat) (m : List Byte) (s : State) (s0 : State) (s1 : State),
      (b < 16 ∧
      s.pwr.st ≠ 5) ∧
      takeX s b 0x0B = some (m, s0) ∧
      s.instOf (field (mBody m) 0 1 % 128) = some j ∧
      s.ctxReset ≠ some (mCtx m) ∧
      runMc (landBytes (.bay b (.land true)) j (field (mBody m) 0 1 % 128) (mCtx m) (field (mBody m) 4 4) ((mBody m).drop 8)) s
      = (.ok true, s1) :=
  ⟨0, ChainRecordsLand3_j, ChainRecordsLand3_m, ChainRecordsLand3_s, ChainRecordsLand3_s0, ChainRecordsLand3_s1, by decide +kernel, somePair ([], State.reset) (by decide +kernel), somePair _ (by decide +kernel), by decide +kernel, okPairV (by decide +kernel)⟩

def GatherAndDegreeScan1_s : State := { busy0.modPane 0 (fun p => { p with nge := some { cmd := 0x800500000001000000000000000000000000000010000000000000004301, op := 1, cls := 1, next := 1, last := 1, done := 0, desc := leBytes 48 0 ++ leBytes 4 (64 + 16 * 2 ^ 16) ++ leBytes 12 0, segs := [], hub := 0, units := [{ no := 0, vertex := 0, seg := 0, deg := 1, rows := [{ u := 0, w := 0, edge := 0 }], asked := 1, got := [], res := none }], fetches := [{ u := 0, next := 2, pend := [(0, 0), (1, 1)], parts := [], wants := [(0, 0)] }], filt := [], seq := 2 } }) with accs := [{ acc1 with isPane := true, eng := 3, stage := .got, data := leBytes 32 5, purpose := .nge 0 0 }] }
def GatherAndDegreeScan1_a : Access := ((GatherAndDegreeScan1_s).accs.find? (fun a => a.purpose == .nge (0) (0) && a.stage == .got && a.flt.isNone)).getD (acc1)
def GatherAndDegreeScan1_s1 : State := (runMc (narrowReturn (0) (0) (GatherAndDegreeScan1_a).data) (dropAcc (GatherAndDegreeScan1_s) (GatherAndDegreeScan1_a).id)).2
def GatherAndDegreeScan1_j : NgeJob := (((GatherAndDegreeScan1_s1).pane (0)).nge).getD ({ cmd := 0, op := 1, cls := 0, next := 0, last := 0, done := 0, desc := [], segs := [], hub := 0, units := [], fetches := [], filt := [], seq := 0 })
def GatherAndDegreeScan1_fin : Bool := okv (false) (runMc (pump (0) ((GatherAndDegreeScan1_s1).pane (0)).ctx ((GatherAndDegreeScan1_j).last - (GatherAndDegreeScan1_j).done + 1)) (GatherAndDegreeScan1_s1)).1
def GatherAndDegreeScan1_s2 : State := (runMc (pump (0) ((GatherAndDegreeScan1_s1).pane (0)).ctx ((GatherAndDegreeScan1_j).last - (GatherAndDegreeScan1_j).done + 1)) (GatherAndDegreeScan1_s1)).2
theorem witness_GatherAndDegreeScan_1 :
    ∃ (i : Nat) (k : Nat) (fin : Bool) (s : State) (s1 : State) (s2 : State) (a : Access) (j : NgeJob),
      (i < 144 ∧
      s.pwr.st ≠ 5 ∧
      (s.pane i).stalled = false) ∧
      s.accs.find? (fun a => a.purpose == .nge i k && a.stage == .got && a.flt.isNone) = some a ∧
      runMc (narrowReturn i k a.data) (dropAcc s a.id) = (.ok (), s1) ∧
      (s1.pane i).nge = some j ∧
      (s1.pane i).stalled = false ∧
      runMc (pump i (s1.pane i).ctx (j.last - j.done + 1)) s1 = (.ok fin, s2) :=
  ⟨0, 0, GatherAndDegreeScan1_fin, GatherAndDegreeScan1_s, GatherAndDegreeScan1_s1, GatherAndDegreeScan1_s2, GatherAndDegreeScan1_a, GatherAndDegreeScan1_j, by decide +kernel, somePair _ (by decide +kernel), okPairV (by decide +kernel), somePair _ (by decide +kernel), by decide +kernel, okPair _ (by decide +kernel)⟩

def GatherAndDegreeScan2_s : State := busy0.modPane 0 (fun p => { p with stalled := true })
theorem witness_GatherAndDegreeScan_2 :
    ∃ (i : Nat) (k : Nat) (s : State),
      i < 144 ∧
      s.pwr.st ≠ 5 ∧
      (s.pane i).stalled = true :=
  ⟨0, 0, GatherAndDegreeScan2_s, by decide +kernel⟩

theorem witness_GatherAndDegreeScan_3 :
    ∃ (i : Nat) (k : Nat) (s : State),
      i < 144 ∧
      s.pwr.st ≠ 5 ∧
      (s.pane i).nge = none ∧
      s.accs.find? (fun a => a.purpose == .nge i k && a.stage == .got && a.flt.isNone) = none :=
  ⟨0, 0, busy0, by decide +kernel⟩

def GatherAndDegreeScan4_c : Nat := 0x18000000000410000001000000000000000000000000000010000000000000002303
def GatherAndDegreeScan4_s : State := fetched (withGraph (engine0 3 0x18000000000410000001000000000000000000000000000010000000000000002303)) (.cmd 0 3) false 0x1000 0x1000
def GatherAndDegreeScan4_s1 : State := (startState (GatherAndDegreeScan4_s) (0) (GatherAndDegreeScan4_c) (ngeRow 3 48) (engBusy (0) 3)).getD (State.reset)
def GatherAndDegreeScan4_t : Task := (((GatherAndDegreeScan4_s1).pane (0)).task.bind (GatherAndDegreeScan4_s1).taskOf).getD (task1)
def GatherAndDegreeScan4_ds : List Byte := okv ([]) (runMc (readDesc (0) (GatherAndDegreeScan4_t).ctx (cbytes (GatherAndDegreeScan4_c) 8 8)) (GatherAndDegreeScan4_s1)).1
def GatherAndDegreeScan4_s2 : State := (runMc (readDesc (0) (GatherAndDegreeScan4_t).ctx (cbytes (GatherAndDegreeScan4_c) 8 8)) (GatherAndDegreeScan4_s1)).2
def GatherAndDegreeScan4_s3 : State := (runMc (scanHubs (0) (GatherAndDegreeScan4_t).ctx (gdesc (GatherAndDegreeScan4_ds)) ((tlogOf (cbits (GatherAndDegreeScan4_c) 24 28 24))) (cbits (GatherAndDegreeScan4_c) 16 39 0) (cbits (GatherAndDegreeScan4_c) 24 23 0)) (GatherAndDegreeScan4_s2)).2
def GatherAndDegreeScan4_hubs : List (Nat × Nat × Nat) := okv (default) (runMc (scanHubs (0) (GatherAndDegreeScan4_t).ctx (gdesc (GatherAndDegreeScan4_ds)) ((tlogOf (cbits (GatherAndDegreeScan4_c) 24 28 24))) (cbits (GatherAndDegreeScan4_c) 16 39 0) (cbits (GatherAndDegreeScan4_c) 24 23 0)) (GatherAndDegreeScan4_s2)).1
def GatherAndDegreeScan4_s4 : State := (runMc (postPart (0) (GatherAndDegreeScan4_t).ctx 0 3 0 (cbytes (GatherAndDegreeScan4_c) 32 8 + 0x40) (hubBytes 0 (GatherAndDegreeScan4_hubs))) (GatherAndDegreeScan4_s3)).2
def GatherAndDegreeScan4_s5 : State := (runMc (postPart (0) (GatherAndDegreeScan4_t).ctx 0 3 0 (cbytes (GatherAndDegreeScan4_c) 32 8) (leBytes 8 (cbits (GatherAndDegreeScan4_c) 16 39 0) ++ leBytes 4 (cbits (GatherAndDegreeScan4_c) 24 23 0 + ((tlogOf (cbits (GatherAndDegreeScan4_c) 24 28 24))) * 2 ^ 24)
      ++ leBytes 4 (GatherAndDegreeScan4_hubs).length ++ leBytes 4 (((GatherAndDegreeScan4_hubs).map (fun x => x.2.2)).foldl (· + ·) 0) ++ leBytes 44 0)) (GatherAndDegreeScan4_s4)).2
theorem witness_GatherAndDegreeScan_4 :
    ∃ (i : Nat) (c : Nat) (s : State) (s1 : State) (s2 : State) (s3 : State) (s4 : State) (s5 : State) (t : Task) (ds : List Byte) (hubs : List (Nat × Nat × Nat)),
      (i < 144 ∧
      s.pwr.st ≠ 5) ∧
      startState s i c (ngeRow 3 48) (engBusy i 3) = some s1 ∧
      (plainForm c 48 = true ∧
      cbits c 16 63 40 = 0 ∧
      cbits c 24 31 29 = 0 ∧
      cbytes c 40 8 = 0 ∧
      cbits c 24 23 0 ≠ 0 ∧
      badTlog (cbits c 24 28 24) = false ∧
      cbytes c 32 8 % 64 = 0) ∧
      (s1.pane i).task.bind s1.taskOf = some t ∧
      runMc (readDesc i t.ctx (cbytes c 8 8)) s1 = (.ok ds, s2) ∧
      cbits c 16 39 0 + cbits c 24 23 0 ≤ (gdesc ds).nv ∧
      let tlog := tlogOf (cbits c 24 28 24)
      runMc (scanHubs i t.ctx (gdesc ds) tlog (cbits c 16 39 0) (cbits c 24 23 0)) s2 = (.ok hubs, s3) ∧
      hubs.length ≤ cbytes c 28 4 ∧
      runMc (postPart i t.ctx 0 3 0 (cbytes c 32 8 + 0x40) (hubBytes 0 hubs)) s3 = (.ok (), s4) ∧
      runMc (postPart i t.ctx 0 3 0 (cbytes c 32 8) (leBytes 8 (cbits c 16 39 0) ++ leBytes 4 (cbits c 24 23 0 + tlog * 2 ^ 24)
      ++ leBytes 4 hubs.length ++ leBytes 4 ((hubs.map (fun x => x.2.2)).foldl (· + ·) 0) ++ leBytes 44 0)) s4 = (.ok (), s5) :=
  ⟨0, GatherAndDegreeScan4_c, GatherAndDegreeScan4_s, GatherAndDegreeScan4_s1, GatherAndDegreeScan4_s2, GatherAndDegreeScan4_s3, GatherAndDegreeScan4_s4, GatherAndDegreeScan4_s5, GatherAndDegreeScan4_t, GatherAndDegreeScan4_ds, GatherAndDegreeScan4_hubs, by decide +kernel, somePair _ (by decide +kernel), by decide +kernel, somePair _ (by decide +kernel), okPair _ (by decide +kernel), by decide +kernel, okPair _ (by decide +kernel), by decide +kernel, okPairV (by decide +kernel), okPairV (by decide +kernel)⟩

def SeqsoftRunsItsPass1_c : Nat := 0x3f800000000000000000000000000001000000000000000000002305
def SeqsoftRunsItsPass1_s : State := fetched (withGraph (engine0 3 0x3f800000000000000000000000000001000000000000000000002305)) (.cmd 0 3) false 0x1000 0x1000
def SeqsoftRunsItsPass1_s1 : State := (startState (SeqsoftRunsItsPass1_s) (0) (SeqsoftRunsItsPass1_c) (ngeRow 5 48) (engBusy (0) 3)).getD (State.reset)
def SeqsoftRunsItsPass1_s2 : State := (runMc (spRead (0) 3 (cbits (SeqsoftRunsItsPass1_c) 8 23 0) 16384) (SeqsoftRunsItsPass1_s1)).2
def SeqsoftRunsItsPass1_s3 : State := (runMc (spRead (0) 3 (cbits (SeqsoftRunsItsPass1_c) 32 23 0) 256) (SeqsoftRunsItsPass1_s2)).2
def SeqsoftRunsItsPass1_t : Task := (((SeqsoftRunsItsPass1_s1).pane (0)).task.bind (SeqsoftRunsItsPass1_s1).taskOf).getD (task1)
def SeqsoftRunsItsPass1_sc : List Byte := okv ([]) (runMc (spRead (0) 3 (cbits (SeqsoftRunsItsPass1_c) 8 23 0) 16384) (SeqsoftRunsItsPass1_s1)).1
def SeqsoftRunsItsPass1_st : List Byte := okv ([]) (runMc (spRead (0) 3 (cbits (SeqsoftRunsItsPass1_c) 32 23 0) 256) (SeqsoftRunsItsPass1_s2)).1
def SeqsoftRunsItsPass1_s4 : State := (runMc (if ((cbits (SeqsoftRunsItsPass1_c) 12 26 26 == 1)) then spWrite (0) 3 (cbits (SeqsoftRunsItsPass1_c) 36 23 0) ((List.range 64).flatMap (fun b => (List.range 64).flatMap (fun a =>
        leBytes 2 (if ((fun (a b : Nat) => seqMasked ((cbits (SeqsoftRunsItsPass1_c) 12 25 24)) ((cbits (SeqsoftRunsItsPass1_c) 28 12 0)) (cbits (SeqsoftRunsItsPass1_c) 20 23 0) (cbits (SeqsoftRunsItsPass1_c) 12 23 0 + a) (cbits (SeqsoftRunsItsPass1_c) 16 23 0 + b))) a b then 0 else prob (((fun (a b : Nat) => scaled (cbytes (SeqsoftRunsItsPass1_c) 24 4) (field (SeqsoftRunsItsPass1_sc) (256 * a + 4 * b) 4))) a b) (field (SeqsoftRunsItsPass1_st) (4 * a) 4)))))
      else spWrite (0) 3 (cbits (SeqsoftRunsItsPass1_c) 32 23 0) ((List.range 64).flatMap (fun a =>
        leBytes 4 ((List.range 64).foldl (fun mx b => if ((fun (a b : Nat) => seqMasked ((cbits (SeqsoftRunsItsPass1_c) 12 25 24)) ((cbits (SeqsoftRunsItsPass1_c) 28 12 0)) (cbits (SeqsoftRunsItsPass1_c) 20 23 0) (cbits (SeqsoftRunsItsPass1_c) 12 23 0 + a) (cbits (SeqsoftRunsItsPass1_c) 16 23 0 + b))) a b then mx else pickMax true mx (((fun (a b : Nat) => scaled (cbytes (SeqsoftRunsItsPass1_c) 24 4) (field (SeqsoftRunsItsPass1_sc) (256 * a + 4 * b) 4))) a b)) (field (SeqsoftRunsItsPass1_st) (4 * a) 4)))))
      (SeqsoftRunsItsPass1_s3)).2
theorem witness_SeqsoftRunsItsPass_1 :
    ∃ (i : Nat) (c : Nat) (s : State) (s1 : State) (s2 : State) (s3 : State) (s4 : State) (t : Task) (sc : List Byte) (st : List Byte),
      (i < 144 ∧
      s.pwr.st ≠ 5) ∧
      startState s i c (ngeRow 5 48) (engBusy i 3) = some s1 ∧
      (plainForm c 48 = true ∧
      cbits c 8 31 24 = 0 ∧
      cbits c 12 31 27 = 0 ∧
      cbits c 16 31 24 = 0 ∧
      cbits c 20 31 24 = 0 ∧
      cbits c 28 31 13 = 0 ∧
      cbits c 32 31 24 = 0 ∧
      cbits c 36 31 24 = 0 ∧
      cbytes c 40 8 = 0) ∧
      let mode := cbits c 12 25 24
      let win := cbits c 28 12 0
      let expo := cbits c 12 26 26 == 1
      (mode ≠ 3 ∧
      (mode = 2 → win ≠ 0 ∧ win ≤ 4096) ∧
      cbits c 8 23 0 % 64 = 0 ∧
      (f32 (cbytes c 24 4)).isFin = true ∧
      cbits c 32 23 0 % 64 = 0 ∧
      (expo = true → cbits c 36 23 0 % 128 = 0) ∧
      (mode ≠ 2 → cbits c 20 23 0 < 2 ^ 20)) ∧
      (s1.pane i).task.bind s1.taskOf = some t ∧
      (inClaim t (cbits c 8 23 0) 16384 = true ∧
      inClaim t (cbits c 32 23 0) 256 = true ∧
      (expo = true → inClaim t (cbits c 36 23 0) 8192 = true)) ∧
      runMc (spRead i 3 (cbits c 8 23 0) 16384) s1 = (.ok sc, s2) ∧
      runMc (spRead i 3 (cbits c 32 23 0) 256) s2 = (.ok st, s3) ∧
      let x := fun (a b : Nat) => scaled (cbytes c 24 4) (field sc (256 * a + 4 * b) 4)
      let masked := fun (a b : Nat) => seqMasked mode win (cbits c 20 23 0) (cbits c 12 23 0 + a) (cbits c 16 23 0 + b)
      runMc (if expo then spWrite i 3 (cbits c 36 23 0) ((List.range 64).flatMap (fun b => (List.range 64).flatMap (fun a =>
        leBytes 2 (if masked a b then 0 else prob (x a b) (field st (4 * a) 4)))))
      else spWrite i 3 (cbits c 32 23 0) ((List.range 64).flatMap (fun a =>
        leBytes 4 ((List.range 64).foldl (fun mx b => if masked a b then mx else pickMax true mx (x a b)) (field st (4 * a) 4)))))
      s3 = (.ok (), s4) :=
  ⟨0, SeqsoftRunsItsPass1_c, SeqsoftRunsItsPass1_s, SeqsoftRunsItsPass1_s1, SeqsoftRunsItsPass1_s2, SeqsoftRunsItsPass1_s3, SeqsoftRunsItsPass1_s4, SeqsoftRunsItsPass1_t, SeqsoftRunsItsPass1_sc, SeqsoftRunsItsPass1_st, by decide +kernel, somePair _ (by decide +kernel), by decide +kernel, by decide +kernel, somePair _ (by decide +kernel), by decide +kernel, okPair _ (by decide +kernel), okPair _ (by decide +kernel), okPairV (by decide +kernel)⟩

def TableEngineServes1_r : RowMsg := { bay := 0, chip := 0, tag := 3, slot := 0, table := 0, row := 0, step := 1, prefetch := false, lpane := 0 }
def TableEngineServes1_s : State := fetched (fetched ((withTable (engine0 0 0)).modTe 0 (fun x => { x with reqIn := [{ bay := 0, chip := 0, tag := 3, slot := 0, table := 0, row := 0, step := 1, prefetch := false, lpane := 0 }] })) (.te 0 (rowNo { bay := 0, chip := 0, tag := 3, slot := 0, table := 0, row := 0, step := 1, prefetch := false, lpane := 0 })) false 0 0x1100) (.te 0 (rowNo { bay := 0, chip := 0, tag := 3, slot := 0, table := 0, row := 0, step := 1, prefetch := false, lpane := 0 })) true 0 0x1100
def TableEngineServes1_s1 : State := (runMc (serveRow (teOwn (0) (rowNo (TableEngineServes1_r))) (TableEngineServes1_r)) (TableEngineServes1_s)).2
theorem witness_TableEngineServes_1 :
    ∃ (b : Nat) (stamp : Nat) (r : RowMsg) (rs : List RowMsg) (data : List Byte) (s : State) (s1 : State),
      (b < 16 ∧
      s.pwr.st ≠ 5 ∧
      (s.bay b).te.reqIn = r :: rs) ∧
      runMc (serveRow (teOwn b (rowNo r)) r) s = (.ok (.row data stamp), s1) :=
  ⟨0, 0, TableEngineServes1_r, [], leBytes 20 0, TableEngineServes1_s, TableEngineServes1_s1, by decide +kernel, okPairV (by decide +kernel)⟩

def TableEngineServes2_r : RowMsg := { bay := 0, chip := 0, tag := 3, slot := 0, table := 0, row := 1, step := 1, prefetch := false, lpane := 0 }
def TableEngineServes2_s : State := fetched (fetched ((withTable (engine0 0 0)).modTe 0 (fun x => { x with reqIn := [{ bay := 0, chip := 0, tag := 3, slot := 0, table := 0, row := 1, step := 1, prefetch := false, lpane := 0 }] })) (.te 0 (rowNo { bay := 0, chip := 0, tag := 3, slot := 0, table := 0, row := 1, step := 1, prefetch := false, lpane := 0 })) false 0 0x1100) (.te 0 (rowNo { bay := 0, chip := 0, tag := 3, slot := 0, table := 0, row := 1, step := 1, prefetch := false, lpane := 0 })) true 0 0x1100
def TableEngineServes2_s1 : State := (runMc (serveRow (teOwn (0) (rowNo (TableEngineServes2_r))) (TableEngineServes2_r)) (TableEngineServes2_s)).2
def TableEngineServes2_s2 : State := (runMc (forwardRow (0) (1) (TableEngineServes2_r)) (TableEngineServes2_s1)).2
theorem witness_TableEngineServes_2 :
    ∃ (b : Nat) (dst : Nat) (r : RowMsg) (rs : List RowMsg) (s : State) (s1 : State) (s2 : State),
      (b < 16 ∧
      s.pwr.st ≠ 5 ∧
      (s.bay b).te.reqIn = r :: rs) ∧
      runMc (serveRow (teOwn b (rowNo r)) r) s = (.ok (.fwd dst), s1) ∧
      runMc (forwardRow b dst r) s1 = (.ok (), s2) :=
  ⟨0, 1, TableEngineServes2_r, [], TableEngineServes2_s, TableEngineServes2_s1, TableEngineServes2_s2, by decide +kernel, okPairV (by decide +kernel), okPairV (by decide +kernel)⟩

def TableEngineServes3_r : RowMsg := { bay := 0, chip := 0, tag := 3, slot := 0, table := 0, row := 2, step := 1, prefetch := false, lpane := 0 }
def TableEngineServes3_s : State := fetched (fetched ((withTable (engine0 0 0)).modTe 0 (fun x => { x with reqIn := [{ bay := 0, chip := 0, tag := 3, slot := 0, table := 0, row := 2, step := 1, prefetch := false, lpane := 0 }] })) (.te 0 (rowNo { bay := 0, chip := 0, tag := 3, slot := 0, table := 0, row := 2, step := 1, prefetch := false, lpane := 0 })) false 0 0x1100) (.te 0 (rowNo { bay := 0, chip := 0, tag := 3, slot := 0, table := 0, row := 2, step := 1, prefetch := false, lpane := 0 })) true 0 0x1100
def TableEngineServes3_s1 : State := (runMc (serveRow (teOwn (0) (rowNo (TableEngineServes3_r))) (TableEngineServes3_r)) (TableEngineServes3_s)).2
theorem witness_TableEngineServes_3 :
    ∃ (b : Nat) (stamp : Nat) (r : RowMsg) (rs : List RowMsg) (s : State) (s1 : State),
      (b < 16 ∧
      s.pwr.st ≠ 5 ∧
      (s.bay b).te.reqIn = r :: rs) ∧
      runMc (serveRow (teOwn b (rowNo r)) r) s = (.ok (.absent stamp), s1) :=
  ⟨0, 0, TableEngineServes3_r, [], TableEngineServes3_s, TableEngineServes3_s1, by decide +kernel, okPairV (by decide +kernel)⟩

def TableEngineServes4_c : Contrib := { bay := 0, chip := 0, tag := some 3, lpane := 0, cls := 1, table := 0, gfmt := 0, step := 1, row := 0, pos := 0, weight := 0x3F800000, data := leBytes 4 7 }
def TableEngineServes4_s : State := fetched (fetched ((withTable (engine0 0 0)).modTe 0 (fun x => { x with conIn := [{ bay := 0, chip := 0, tag := some 3, lpane := 0, cls := 1, table := 0, gfmt := 0, step := 1, row := 0, pos := 0, weight := 0x3F800000, data := leBytes 4 7 }] })) (.te 0 (conNo { bay := 0, chip := 0, tag := some 3, lpane := 0, cls := 1, table := 0, gfmt := 0, step := 1, row := 0, pos := 0, weight := 0x3F800000, data := leBytes 4 7 })) false 0 0x1100) (.te 0 (conNo { bay := 0, chip := 0, tag := some 3, lpane := 0, cls := 1, table := 0, gfmt := 0, step := 1, row := 0, pos := 0, weight := 0x3F800000, data := leBytes 4 7 })) true 0 0x1100
def TableEngineServes4_s1 : State := (runMc (serveCon (teOwn (0) (conNo (TableEngineServes4_c))) (TableEngineServes4_c)) (TableEngineServes4_s)).2
def TableEngineServes4_s2 : State := (runMc (ackCon (0) (TableEngineServes4_c) 0) (TableEngineServes4_s1)).2
theorem witness_TableEngineServes_4 :
    ∃ (b : Nat) (c : Contrib) (cs : List Contrib) (s : State) (s1 : State) (s2 : State),
      (b < 16 ∧
      s.pwr.st ≠ 5 ∧
      (s.bay b).te.conIn = c :: cs) ∧
      runMc (serveCon (teOwn b (conNo c)) c) s = (.ok .taken, s1) ∧
      runMc (ackCon b c 0) s1 = (.ok (), s2) :=
  ⟨0, TableEngineServes4_c, [], TableEngineServes4_s, TableEngineServes4_s1, TableEngineServes4_s2, by decide +kernel, okPairV (by decide +kernel), okPairV (by decide +kernel)⟩

def TableEngineServes5_r : RowMsg := { bay := 0, chip := 0, tag := 3, slot := 0, table := 0, row := 0, step := 1, prefetch := false, lpane := 0 }
def TableEngineServes5_s : State := (withTable (engine0 0 0)).modTe 0 (fun x => { x with rspIn := [{ bay := 0, chip := 0, tag := 3, slot := 0, table := 0, row := 0, step := 1, prefetch := false, lpane := 0 }] })
theorem witness_TableEngineServes_5 :
    ∃ (b : Nat) (r : RowMsg) (rs : List RowMsg) (s : State),
      b < 16 ∧
      s.pwr.st ≠ 5 ∧
      (s.bay b).te.rspIn = r :: rs :=
  ⟨0, TableEngineServes5_r, [], TableEngineServes5_s, by decide +kernel⟩

def TableEngineServes6_c : TeCopy := { table := 0, row := 0, target := 1, entry := 2, chip := 0, bay := 0, tag := 3, dirty := true, landed := true }
def TableEngineServes6_s : State := fetched (fetched ((withTable (engine0 0 0)).modTe 0 (fun z_x => { z_x with copies := [{ table := 0, row := 0, target := 1, entry := 2, chip := 0, bay := 0, tag := 3, dirty := true, landed := true }] })) (.te 0 (copyNo { table := 0, row := 0, target := 1, entry := 2, chip := 0, bay := 0, tag := 3, dirty := true, landed := true })) false 0 0x1100) (.te 0 (copyNo { table := 0, row := 0, target := 1, entry := 2, chip := 0, bay := 0, tag := 3, dirty := true, landed := true })) true 0 0x1100
def TableEngineServes6_s1 : State := (runMc (ownerTable (teOwn (0) (copyNo (TableEngineServes6_c))) (TableEngineServes6_c).table) (TableEngineServes6_s)).2
def TableEngineServes6_d : TDesc := (okv noTab (runMc (ownerTable (teOwn (0) (copyNo (TableEngineServes6_c))) (TableEngineServes6_c).table) (TableEngineServes6_s)).1).1
def TableEngineServes6_sh : Shard := (okv noTab (runMc (ownerTable (teOwn (0) (copyNo (TableEngineServes6_c))) (TableEngineServes6_c).table) (TableEngineServes6_s)).1).2
def TableEngineServes6_x : RowAt := (okv none (runMc (findRow (teOwn (0) (copyNo (TableEngineServes6_c))) (TableEngineServes6_d) (TableEngineServes6_sh) (TableEngineServes6_c).row) (TableEngineServes6_s1)).1).getD noRow
def TableEngineServes6_s2 : State := (runMc (findRow (teOwn (0) (copyNo (TableEngineServes6_c))) (TableEngineServes6_d) (TableEngineServes6_sh) (TableEngineServes6_c).row) (TableEngineServes6_s1)).2
def TableEngineServes6_s3 : State := (runMc (readRecord_ (teOwn (0) (copyNo (TableEngineServes6_c))) (TableEngineServes6_d) (TableEngineServes6_sh) (TableEngineServes6_x)) (TableEngineServes6_s2)).2
def TableEngineServes6_bs : List Byte := okv ([]) (runMc (readRecord_ (teOwn (0) (copyNo (TableEngineServes6_c))) (TableEngineServes6_d) (TableEngineServes6_sh) (TableEngineServes6_x)) (TableEngineServes6_s2)).1
def TableEngineServes6_s4 : State := (runMc (sendCopy (0) (TableEngineServes6_c) (TableEngineServes6_bs)) (TableEngineServes6_s3)).2
theorem witness_TableEngineServes_6 :
    ∃ (b : Nat) (c : TeCopy) (d : TDesc) (sh : Shard) (x : RowAt) (bs : List Byte) (s : State) (s1 : State) (s2 : State) (s3 : State) (s4 : State),
      (b < 16 ∧
      s.pwr.st ≠ 5 ∧
      (s.bay b).te.copies.find? (·.landed) = some c ∧
      c.dirty = true) ∧
      runMc (ownerTable (teOwn b (copyNo c)) c.table) s = (.ok (d, sh), s1) ∧
      runMc (findRow (teOwn b (copyNo c)) d sh c.row) s1 = (.ok (some x), s2) ∧
      runMc (readRecord_ (teOwn b (copyNo c)) d sh x) s2 = (.ok bs, s3) ∧
      runMc (sendCopy b c bs) s3 = (.ok (), s4) :=
  ⟨0, TableEngineServes6_c, TableEngineServes6_d, TableEngineServes6_sh, TableEngineServes6_x, TableEngineServes6_bs, TableEngineServes6_s, TableEngineServes6_s1, TableEngineServes6_s2, TableEngineServes6_s3, TableEngineServes6_s4, by decide +kernel, okPairV (by decide +kernel), okPairV (by decide +kernel), okPair _ (by decide +kernel), okPairV (by decide +kernel)⟩

def TableEngineServes7_c : TeCopy := { table := 0, row := 0, target := 1, entry := 2, chip := 0, bay := 0, tag := 3, dirty := false, landed := true }
def TableEngineServes7_s : State := fetched (fetched ((withTable (engine0 0 0)).modTe 0 (fun z_x => { z_x with copies := [{ table := 0, row := 0, target := 1, entry := 2, chip := 0, bay := 0, tag := 3, dirty := false, landed := true }] })) (.te 0 (copyNo { table := 0, row := 0, target := 1, entry := 2, chip := 0, bay := 0, tag := 3, dirty := false, landed := true })) false 0 0x1100) (.te 0 (copyNo { table := 0, row := 0, target := 1, entry := 2, chip := 0, bay := 0, tag := 3, dirty := false, landed := true })) true 0 0x1100
def TableEngineServes7_s1 : State := (runMc (ownerTable (teOwn (0) (copyNo (TableEngineServes7_c))) (TableEngineServes7_c).table) (TableEngineServes7_s)).2
def TableEngineServes7_d : TDesc := (okv noTab (runMc (ownerTable (teOwn (0) (copyNo (TableEngineServes7_c))) (TableEngineServes7_c).table) (TableEngineServes7_s)).1).1
def TableEngineServes7_sh : Shard := (okv noTab (runMc (ownerTable (teOwn (0) (copyNo (TableEngineServes7_c))) (TableEngineServes7_c).table) (TableEngineServes7_s)).1).2
def TableEngineServes7_x : RowAt := (okv none (runMc (findRow (teOwn (0) (copyNo (TableEngineServes7_c))) (TableEngineServes7_d) (TableEngineServes7_sh) (TableEngineServes7_c).row) (TableEngineServes7_s1)).1).getD noRow
def TableEngineServes7_s2 : State := (runMc (findRow (teOwn (0) (copyNo (TableEngineServes7_c))) (TableEngineServes7_d) (TableEngineServes7_sh) (TableEngineServes7_c).row) (TableEngineServes7_s1)).2
def TableEngineServes7_s3 : State := (runMc (readRow (teOwn (0) (copyNo (TableEngineServes7_c))) (TableEngineServes7_d) (TableEngineServes7_sh) (TableEngineServes7_x)) (TableEngineServes7_s2)).2
def TableEngineServes7_s4 : State := (runMc (flipRow (teOwn (0) (copyNo (TableEngineServes7_c))) (TableEngineServes7_d) (TableEngineServes7_x) (TableEngineServes7_c)) (TableEngineServes7_s3)).2
def TableEngineServes7_hd : List Byte := okv ([]) (runMc (readRow (teOwn (0) (copyNo (TableEngineServes7_c))) (TableEngineServes7_d) (TableEngineServes7_sh) (TableEngineServes7_x)) (TableEngineServes7_s2)).1
theorem witness_TableEngineServes_7 :
    ∃ (b : Nat) (c : TeCopy) (d : TDesc) (sh : Shard) (x : RowAt) (hd : List Byte) (s : State) (s1 : State) (s2 : State) (s3 : State) (s4 : State),
      (b < 16 ∧
      s.pwr.st ≠ 5 ∧
      (s.bay b).te.copies.find? (·.landed) = some c ∧
      c.dirty = false ∧
      c.again = false) ∧
      runMc (ownerTable (teOwn b (copyNo c)) c.table) s = (.ok (d, sh), s1) ∧
      runMc (findRow (teOwn b (copyNo c)) d sh c.row) s1 = (.ok (some x), s2) ∧
      applying s2 b c.table sh = false ∧
      runMc (readRow (teOwn b (copyNo c)) d sh x) s2 = (.ok hd, s3) ∧
      runMc (flipRow (teOwn b (copyNo c)) d x c) s3 = (.ok (), s4) :=
  ⟨0, TableEngineServes7_c, TableEngineServes7_d, TableEngineServes7_sh, TableEngineServes7_x, TableEngineServes7_hd, TableEngineServes7_s, TableEngineServes7_s1, TableEngineServes7_s2, TableEngineServes7_s3, TableEngineServes7_s4, by decide +kernel, okPairV (by decide +kernel), okPairV (by decide +kernel), by decide +kernel, okPair _ (by decide +kernel), okPairV (by decide +kernel)⟩

def TableEngineServes8_r : RowMsg := { bay := 0, chip := 0, tag := 3, slot := 0, table := 0, row := 0, step := 1, prefetch := false, lpane := 0 }
def TableEngineServes8_s : State := (withTable (engine0 0 0)).modTe 0 (fun x => { x with jobs := [{ pane := 0, cmd := 0, op := 1, task := 1, ctx := 0, cls := 1, keys := [0], occ := [[0]], sent := [(3, [0])] }] })
def TableEngineServes8_j : TeJob := { pane := 0, cmd := 0, op := 1, task := 1, ctx := 0, cls := 1, keys := [0], occ := [[0]], sent := [(3, [0])] }
theorem witness_TableEngineServes_8 :
    ∃ (b : Nat) (r : RowMsg) (s : State) (j : TeJob),
      (s.bay b).te.jobs.find? (fun j => j.sent.any (fun e => e.1 == r.tag && e.2.contains r.slot)) = some j ∧
      r.code = 0 ∧
      j.op = 1 :=
  ⟨0, TableEngineServes8_r, TableEngineServes8_s, TableEngineServes8_j, by decide +kernel⟩

def TableEngineServes9_s : State := ((up).modXe 0 (fun x => { x with xin := [mkMsg 7 1 0 0 1 0 5 3 0 0 0 (leBytes 2 0 ++ leBytes 2 0 ++ leBytes 4 1 ++ leBytes 4 1 ++ leBytes 8 5)] }))
def TableEngineServes9_s1 : State := ((takeX (TableEngineServes9_s) (0) 0x07).getD ([], State.reset)).2
def TableEngineServes9_m : List Byte := ((takeX (TableEngineServes9_s) (0) 0x07).getD ([], State.reset)).1
theorem witness_TableEngineServes_9 :
    ∃ (b : Nat) (m : List Byte) (s : State) (s1 : State),
      (b < 16 ∧
      s.pwr.st ≠ 5) ∧
      takeX s b 0x07 = some (m, s1) ∧
      0 < field (mBody m) 8 4 ∧
      field (mBody m) 8 4 ≤ 255 ∧
      (mBody m).length = 12 + 8 * field (mBody m) 8 4 ∧
      badCtx m = false :=
  ⟨0, TableEngineServes9_m, TableEngineServes9_s, TableEngineServes9_s1, by decide +kernel, somePair ([], State.reset) (by decide +kernel), by decide +kernel⟩

def TableEngineServes10_s : State := ((up).modXe 0 (fun x => { x with xin := [mkMsg 8 1 0 0 1 0 5 3 0 0 0 (leBytes 8 0 ++ leBytes 4 0 ++ leBytes 4 0 ++ leBytes 20 0)] }))
def TableEngineServes10_s1 : State := ((takeX (TableEngineServes10_s) (0) 0x08).getD ([], State.reset)).2
def TableEngineServes10_m : List Byte := ((takeX (TableEngineServes10_s) (0) 0x08).getD ([], State.reset)).1
theorem witness_TableEngineServes_10 :
    ∃ (b : Nat) (m : List Byte) (s : State) (s1 : State),
      (b < 16 ∧
      s.pwr.st ≠ 5) ∧
      takeX s b 0x08 = some (m, s1) ∧
      mStatus m = 0 ∧
      16 ≤ (mBody m).length :=
  ⟨0, TableEngineServes10_m, TableEngineServes10_s, TableEngineServes10_s1, by decide +kernel, somePair ([], State.reset) (by decide +kernel), by decide +kernel⟩

def TableEngineServes11_s : State := ((up).modXe 0 (fun x => { x with xin := [mkMsg 9 1 0 0 1 0 5 3 0 0 0 (leBytes 32 0 ++ leBytes 4 7)] }))
def TableEngineServes11_s1 : State := ((takeX (TableEngineServes11_s) (0) 0x09).getD ([], State.reset)).2
def TableEngineServes11_m : List Byte := ((takeX (TableEngineServes11_s) (0) 0x09).getD ([], State.reset)).1
theorem witness_TableEngineServes_11 :
    ∃ (b : Nat) (m : List Byte) (s : State) (s1 : State),
      (b < 16 ∧
      s.pwr.st ≠ 5) ∧
      takeX s b 0x09 = some (m, s1) ∧
      36 ≤ (mBody m).length ∧
      badCtx m = false :=
  ⟨0, TableEngineServes11_m, TableEngineServes11_s, TableEngineServes11_s1, by decide +kernel, somePair ([], State.reset) (by decide +kernel), by decide +kernel⟩

def TableEngineServes12_s : State := (((withTable (engine0 0 0)).modTe 0 (fun x => { x with jobs := [{ pane := 0, cmd := 0, op := 3, task := 1, ctx := 0, cls := 1, keys := [0], occ := [[0]], sent := [(3, [0])] }] })).modXe 0 (fun x => { x with xin := [mkMsg 10 1 0 0 1 0 5 3 0 0 0 ([])] }))
def TableEngineServes12_s1 : State := ((takeX (TableEngineServes12_s) (0) 0x0A).getD ([], State.reset)).2
def TableEngineServes12_j : TeJob := { pane := 0, cmd := 0, op := 3, task := 1, ctx := 0, cls := 1, keys := [0], occ := [[0]], sent := [(3, [0])] }
def TableEngineServes12_m : List Byte := ((takeX (TableEngineServes12_s) (0) 0x0A).getD ([], State.reset)).1
theorem witness_TableEngineServes_12 :
    ∃ (b : Nat) (m : List Byte) (s : State) (s1 : State) (j : TeJob),
      (b < 16 ∧
      s.pwr.st ≠ 5) ∧
      takeX s b 0x0A = some (m, s1) ∧
      mStatus m = 0 ∧
      (s1.bay b).te.jobs.find? (fun j => j.sent.any (fun e => e.1 == mTag m)) = some j :=
  ⟨0, TableEngineServes12_m, TableEngineServes12_s, TableEngineServes12_s1, TableEngineServes12_j, by decide +kernel, somePair ([], State.reset) (by decide +kernel), by decide +kernel⟩

def TableEngineServes13_s : State := ((up).modXe 0 (fun x => { x with xin := [mkMsg 13 1 0 0 1 0 5 3 0 0 0 (svcBody 10 0 0 0 0 0 3 [])] }))
def TableEngineServes13_s1 : State := ((takeX (TableEngineServes13_s) (0) 0x0D).getD ([], State.reset)).2
def TableEngineServes13_m : List Byte := ((takeX (TableEngineServes13_s) (0) 0x0D).getD ([], State.reset)).1
theorem witness_TableEngineServes_13 :
    ∃ (b : Nat) (m : List Byte) (s : State) (s1 : State),
      (b < 16 ∧
      s.pwr.st ≠ 5) ∧
      takeX s b 0x0D = some (m, s1) ∧
      mStatus m = 0 ∧
      badCtx m = false :=
  ⟨0, TableEngineServes13_m, TableEngineServes13_s, TableEngineServes13_s1, by decide +kernel, somePair ([], State.reset) (by decide +kernel), by decide +kernel⟩

theorem witness_TableEngineServes_14 :
    ∃ (b : Nat) (v : Nat) (s : State),
      b < 16 ∧
      regOpen s (Reg.TE_CTRCLR b) = true ∧
      bit v 0 = true :=
  ⟨0, 1, up, by decide +kernel⟩

def StreamsFollowTheirCommandsAndEvents1_c : Nat := 0x10000004000000000000000000000000000001401
def StreamsFollowTheirCommandsAndEvents1_s : State := engine0 4 0x10000004000000000000000000000000000001401
def StreamsFollowTheirCommandsAndEvents1_s1 : State := (startState (StreamsFollowTheirCommandsAndEvents1_s) (0) (StreamsFollowTheirCommandsAndEvents1_c) (seRow 1 32) (fun _ => false)).getD (State.reset)
def StreamsFollowTheirCommandsAndEvents1_t : Task := (((StreamsFollowTheirCommandsAndEvents1_s1).pane (0)).task.bind (StreamsFollowTheirCommandsAndEvents1_s1).taskOf).getD (task1)
theorem witness_StreamsFollowTheirCommandsAndEvents_1 :
    ∃ (i : Nat) (c : Nat) (s : State) (s1 : State) (t : Task),
      (i < 144 ∧
      s.pwr.st ≠ 5) ∧
      startState s i c (seRow 1 32) (fun _ => false) = some s1 ∧
      (plainForm c 32 = true ∧
      cbits c 8 15 11 = 0 ∧
      cbits c 12 31 24 = 0 ∧
      cbits c 16 31 24 = 0 ∧
      cbits c 20 31 24 = 0) ∧
      let st := cbits c 8 3 0
      let nbuf := if cbits c 8 9 6 = 0 then 2 else cbits c 8 9 6
      (openStream (streamOf s1 i st) = false ∧
      cbits c 8 5 4 ≠ 3 ∧
      cbits c 8 9 6 ≤ 8 ∧
      cbits c 12 23 0 % 64 = 0 ∧
      cbits c 16 23 0 % 64 = 0 ∧
      cbits c 16 23 0 ≠ 0 ∧
      cbytes c 24 8 % 64 = 0 ∧
      cbits c 20 23 0 ≠ 0) ∧
      (s1.pane i).task.bind s1.taskOf = some t ∧
      inClaim t (cbits c 12 23 0) (nbuf * cbits c 16 23 0) = true :=
  ⟨0, StreamsFollowTheirCommandsAndEvents1_c, StreamsFollowTheirCommandsAndEvents1_s, StreamsFollowTheirCommandsAndEvents1_s1, StreamsFollowTheirCommandsAndEvents1_t, by decide +kernel, somePair _ (by decide +kernel), by decide +kernel, by decide +kernel, somePair _ (by decide +kernel), by decide +kernel⟩

def StreamsFollowTheirCommandsAndEvents2_c : Nat := 0x100000000000000000402
def StreamsFollowTheirCommandsAndEvents2_s : State := setStream (engine0 4 0x100000000000000000402) 0 0 { status := 1, nbuf := 2, bufstride := 64, ndesc := 1, deliv := 1 }
def StreamsFollowTheirCommandsAndEvents2_s1 : State := (startState (StreamsFollowTheirCommandsAndEvents2_s) (0) (StreamsFollowTheirCommandsAndEvents2_c) (seRow 2 16) (fun _ => false)).getD (State.reset)
theorem witness_StreamsFollowTheirCommandsAndEvents_2 :
    ∃ (i : Nat) (c : Nat) (s : State) (s1 : State),
      (i < 144 ∧
      s.pwr.st ≠ 5) ∧
      startState s i c (seRow 2 16) (fun _ => false) = some s1 ∧
      (plainForm c 16 = true ∧
      cbits c 8 15 4 = 0 ∧
      cbits c 8 31 20 = 0 ∧
      cbytes c 12 4 = 0) ∧
      let st := cbits c 8 3 0
      let n := cbits c 8 19 16
      let x := streamOf s1 i st
      1 ≤ n ∧
      n ≤ 8 ∧
      openStream x = true ∧
      x.kind = 0 ∧
      x.cancel = false ∧
      x.done + n ≤ x.deliv :=
  ⟨0, StreamsFollowTheirCommandsAndEvents2_c, StreamsFollowTheirCommandsAndEvents2_s, StreamsFollowTheirCommandsAndEvents2_s1, by decide +kernel, somePair _ (by decide +kernel), by decide +kernel, by decide +kernel⟩

def StreamsFollowTheirCommandsAndEvents3_c : Nat := 0x100000000000000000403
def StreamsFollowTheirCommandsAndEvents3_s : State := setStream (engine0 4 0x100000000000000000403) 0 0 { status := 1, nbuf := 2, bufstride := 64, ndesc := 1, kind := 1 }
def StreamsFollowTheirCommandsAndEvents3_s1 : State := (startState (StreamsFollowTheirCommandsAndEvents3_s) (0) (StreamsFollowTheirCommandsAndEvents3_c) (seRow 3 16) (fun _ => false)).getD (State.reset)
theorem witness_StreamsFollowTheirCommandsAndEvents_3 :
    ∃ (i : Nat) (c : Nat) (s : State) (s1 : State),
      (i < 144 ∧
      s.pwr.st ≠ 5) ∧
      startState s i c (seRow 3 16) (fun _ => false) = some s1 ∧
      (plainForm c 16 = true ∧
      cbits c 8 15 4 = 0 ∧
      cbits c 8 31 20 = 0 ∧
      cbytes c 12 4 = 0) ∧
      let st := cbits c 8 3 0
      let n := cbits c 8 19 16
      let x := streamOf s1 i st
      1 ≤ n ∧
      n ≤ 8 ∧
      openStream x = true ∧
      x.kind = 1 ∧
      x.cancel = false ∧
      x.done - x.deliv + n ≤ x.nbuf :=
  ⟨0, StreamsFollowTheirCommandsAndEvents3_c, StreamsFollowTheirCommandsAndEvents3_s, StreamsFollowTheirCommandsAndEvents3_s1, by decide +kernel, somePair _ (by decide +kernel), by decide +kernel, by decide +kernel⟩

def StreamsFollowTheirCommandsAndEvents4_s : State := setStream (engine0 4 1028) 0 0 { status := 1, nbuf := 2, bufstride := 64, ndesc := 1 }
def StreamsFollowTheirCommandsAndEvents4_s1 : State := (startState (StreamsFollowTheirCommandsAndEvents4_s) (0) (1028) (seRow 4 16) (fun _ => false)).getD (State.reset)
theorem witness_StreamsFollowTheirCommandsAndEvents_4 :
    ∃ (i : Nat) (c : Nat) (s : State) (s1 : State),
      (i < 144 ∧
      s.pwr.st ≠ 5) ∧
      startState s i c (seRow 4 16) (fun _ => false) = some s1 ∧
      (plainForm c 16 = true ∧
      cbits c 8 15 4 = 0 ∧
      cbits c 8 31 20 = 0 ∧
      cbytes c 12 4 = 0) ∧
      let st := cbits c 8 3 0
      let x := streamOf s1 i st
      openStream x = true ∧
      (streamOf s i st).cancel = false :=
  ⟨0, 1028, StreamsFollowTheirCommandsAndEvents4_s, StreamsFollowTheirCommandsAndEvents4_s1, by decide +kernel, somePair _ (by decide +kernel), by decide +kernel, by decide +kernel⟩

def StreamsFollowTheirCommandsAndEvents5_s : State := setStream busy0 0 0 { status := 1, nbuf := 2, bufstride := 64, ndesc := 1, descs := [(0, leBytes 16 0 ++ leBytes 4 (128 + 2 ^ 31) ++ leBytes 8 0 ++ leBytes 2 1 ++ leBytes 34 0)], blocks := [{ no := 0, desc := 0, q := 0, need := [] }] }
def StreamsFollowTheirCommandsAndEvents5_y : SBlk := { no := 0, desc := 0, q := 0, need := [] }
def StreamsFollowTheirCommandsAndEvents5_d : SDesc := sdesc (leBytes 16 0 ++ leBytes 4 (128 + 2 ^ 31) ++ leBytes 8 0 ++ leBytes 2 1 ++ leBytes 34 0)
theorem witness_StreamsFollowTheirCommandsAndEvents_5 :
    ∃ (i : Nat) (st : Nat) (s : State) (y : SBlk) (d : SDesc),
      (i < 144 ∧
      st < 16 ∧
      s.pwr.st ≠ 5) ∧
      let s1 := seArrived (settle s) i
      let x := streamOf s1 i st
      openStream x = true ∧
      blockDone s1 i st x = some y ∧
      heldDesc x y.desc = some d :=
  ⟨0, 0, StreamsFollowTheirCommandsAndEvents5_s, StreamsFollowTheirCommandsAndEvents5_y, StreamsFollowTheirCommandsAndEvents5_d, by decide +kernel, by decide +kernel⟩

def StreamsFollowTheirCommandsAndEvents6_s : State := setStream busy0 0 0 { status := 1, nbuf := 2, bufstride := 64, ndesc := 1, dry := 10, drySet := true }
theorem witness_StreamsFollowTheirCommandsAndEvents_6 :
    ∃ (i : Nat) (st : Nat) (s : State),
      (i < 144 ∧
      st < 16 ∧
      s.pwr.st ≠ 5) ∧
      let x := streamOf s i st
      (x.status = 1 ∨ x.status = 2) ∧
      x.cancel = false ∧
      x.slipped = false ∧
      x.dry < s.devTime ∧
      x.didx ≠ x.ndesc ∧
      (x.kind ≠ 1 ∨ x.done = x.deliv + x.nbuf) :=
  ⟨0, 0, StreamsFollowTheirCommandsAndEvents6_s, by decide +kernel, by decide +kernel⟩

def StreamsFollowTheirCommandsAndEvents7_s : State := setStream busy0 0 0 { status := 1, nbuf := 2, bufstride := 64, ndesc := 1, dry := 10, slipped := true }
theorem witness_StreamsFollowTheirCommandsAndEvents_7 :
    ∃ (i : Nat) (st : Nat) (s : State),
      i < 144 ∧
      st < 16 ∧
      s.pwr.st ≠ 5 ∧
      (streamOf s i st).slipped = true :=
  ⟨0, 0, StreamsFollowTheirCommandsAndEvents7_s, by decide +kernel⟩

theorem witness_StreamsFollowTheirCommandsAndEvents_8 :
    ∃ (i : Nat) (s : State),
      i < 144 ∧
      regOpen s (Reg.SE_STRDATA i) = true :=
  ⟨0, up, by decide +kernel⟩

def CheckWritesItsResult1_c : Nat := 0x30000000800000000000010000000000000002701
def CheckWritesItsResult1_s : State := fetched (engine0 7 0x30000000800000000000010000000000000002701) (.cmd 0 7) false 0x1000 0x1000
def CheckWritesItsResult1_s1 : State := (startState (CheckWritesItsResult1_s) (0) (CheckWritesItsResult1_c) checkRow (fun _ => false)).getD (State.reset)
def CheckWritesItsResult1_s2 : State := (runMc (checkParams (0) ((checkCmd (CheckWritesItsResult1_c)))) (CheckWritesItsResult1_s1)).2
def CheckWritesItsResult1_t : Task := (((CheckWritesItsResult1_s1).pane (0)).task.bind (CheckWritesItsResult1_s1).taskOf).getD (task1)
def CheckWritesItsResult1_p : CheckParams := okv (fingerParams) (runMc (checkParams (0) ((checkCmd (CheckWritesItsResult1_c)))) (CheckWritesItsResult1_s1)).1
def CheckWritesItsResult1_bs : List Byte := okv ([]) (runMc (checkSource (0) (CheckWritesItsResult1_t).ctx ((checkCmd (CheckWritesItsResult1_c)))) (CheckWritesItsResult1_s2)).1
def CheckWritesItsResult1_s3 : State := (runMc (checkSource (0) (CheckWritesItsResult1_t).ctx ((checkCmd (CheckWritesItsResult1_c)))) (CheckWritesItsResult1_s2)).2
def CheckWritesItsResult1_s4 : State := (runMc (spWrite (0) 7 ((checkCmd (CheckWritesItsResult1_c))).res (leBytes 8 ((if ((checkCmd (CheckWritesItsResult1_c))).mode = 0 then singleCheck (CheckWritesItsResult1_p) ((fun (k : Nat) => if ((checkCmd (CheckWritesItsResult1_c))).folden then some (((checkCmd (CheckWritesItsResult1_c))).fold + (if ((checkCmd (CheckWritesItsResult1_c))).foldsel then k else k * ((if ((checkCmd (CheckWritesItsResult1_c))).mode = 2 then 256 else 2 ^ ((checkCmd (CheckWritesItsResult1_c))).blklog)))) else none)) ((if ((checkCmd (CheckWritesItsResult1_c))).mode = 3 then [] else inBlocks ((if ((checkCmd (CheckWritesItsResult1_c))).mode = 2 then 256 else 2 ^ ((checkCmd (CheckWritesItsResult1_c))).blklog)) (CheckWritesItsResult1_bs))) else if ((checkCmd (CheckWritesItsResult1_c))).mode = 2 then fingerprint ((checkCmd (CheckWritesItsResult1_c))).fold (CheckWritesItsResult1_bs) else combineWords (CheckWritesItsResult1_bs))))) (CheckWritesItsResult1_s3)).2
def CheckWritesItsResult1_s5 : State := (runMc (spWrite (0) 7 (((checkCmd (CheckWritesItsResult1_c))).res + 16) (leBytes 4 1 ++ leBytes 4 ((if ((checkCmd (CheckWritesItsResult1_c))).mode = 3 then [] else inBlocks ((if ((checkCmd (CheckWritesItsResult1_c))).mode = 2 then 256 else 2 ^ ((checkCmd (CheckWritesItsResult1_c))).blklog)) (CheckWritesItsResult1_bs))).length)) (CheckWritesItsResult1_s4)).2
theorem witness_CheckWritesItsResult_1 :
    ∃ (i : Nat) (c : Nat) (s : State) (s1 : State) (s2 : State) (s3 : State) (s4 : State) (s5 : State) (t : Task) (p : CheckParams) (bs : List Byte),
      (i < 144 ∧
      s.pwr.st ≠ 5) ∧
      startState s i c checkRow (fun _ => false) = some s1 ∧
      (plainForm c 48 = true ∧
      cbits c 16 31 27 = 0 ∧
      cbits c 20 31 12 = 0 ∧
      cbits c 32 31 24 = 0 ∧
      cbits c 36 31 24 = 0 ∧
      cbytes c 40 8 = 0) ∧
      let m := checkCmd c
      (m.src % 4 = 0 ∧
      m.len % 4 = 0 ∧
      m.len ≠ 0 ∧
      m.len ≤ 2 ^ 26 ∧
      m.res % 64 = 0 ∧
      (m.mode < 2 → 6 ≤ m.blklog ∧ m.blklog ≤ 20 ∧ m.par % 32 = 0) ∧
      (m.mode = 2 → m.fold % 256 = 0) ∧
      (m.mode = 3 → m.len % 8 = 0)) ∧
      (s1.pane i).task.bind s1.taskOf = some t ∧
      ((2 ≤ m.mode → t.dclass ≠ 0) ∧
      (m.srcSp = true → inClaim t (m.src % 2 ^ 24) m.len = true) ∧
      inClaim t m.res m.resBytes = true ∧
      (m.mode < 2 → inClaim t m.par 32 = true) ∧
      m.mode ≠ 1 ∧
      m.acc = false ∧
      m.cmpen = false) ∧
      runMc (checkParams i m) s1 = (.ok p, s2) ∧
      runMc (checkSource i t.ctx m) s2 = (.ok bs, s3) ∧
      let n := if m.mode = 2 then 256 else 2 ^ m.blklog
      let blocks := if m.mode = 3 then [] else inBlocks n bs
      let fold := fun (k : Nat) => if m.folden then some (m.fold + (if m.foldsel then k else k * n)) else none
      let v := if m.mode = 0 then singleCheck p fold blocks else if m.mode = 2 then fingerprint m.fold bs else combineWords bs
      runMc (spWrite i 7 m.res (leBytes 8 v)) s3 = (.ok (), s4) ∧
      runMc (spWrite i 7 (m.res + 16) (leBytes 4 1 ++ leBytes 4 blocks.length)) s4 = (.ok (), s5) :=
  ⟨0, CheckWritesItsResult1_c, CheckWritesItsResult1_s, CheckWritesItsResult1_s1, CheckWritesItsResult1_s2, CheckWritesItsResult1_s3, CheckWritesItsResult1_s4, CheckWritesItsResult1_s5, CheckWritesItsResult1_t, CheckWritesItsResult1_p, CheckWritesItsResult1_bs, by decide +kernel, somePair _ (by decide +kernel), by decide +kernel, by decide +kernel, somePair _ (by decide +kernel), by decide +kernel, okPair _ (by decide +kernel), okPair _ (by decide +kernel), okPairV (by decide +kernel), okPairV (by decide +kernel)⟩

def CheckWritesItsResult2_c : Nat := 0x100000000000000000000000000000003010000000800000000000010000000000000002701
def CheckWritesItsResult2_s : State := fetched ((engine0 7 0x100000000000000000000000000000003010000000800000000000010000000000000002701).modPane 0 (fun z_p => { z_p with sp := [(0x100, 7), (0x110, 8)] })) (.cmd 0 7) false 0x1000 64
def CheckWritesItsResult2_s1 : State := (startState (CheckWritesItsResult2_s) (0) (CheckWritesItsResult2_c) checkRow (fun _ => false)).getD (State.reset)
def CheckWritesItsResult2_s2 : State := (runMc (checkParams (0) ((checkCmd (CheckWritesItsResult2_c)))) (CheckWritesItsResult2_s1)).2
def CheckWritesItsResult2_t : Task := (((CheckWritesItsResult2_s1).pane (0)).task.bind (CheckWritesItsResult2_s1).taskOf).getD (task1)
def CheckWritesItsResult2_p : CheckParams := okv (fingerParams) (runMc (checkParams (0) ((checkCmd (CheckWritesItsResult2_c)))) (CheckWritesItsResult2_s1)).1
def CheckWritesItsResult2_bs : List Byte := okv ([]) (runMc (checkSource (0) (CheckWritesItsResult2_t).ctx ((checkCmd (CheckWritesItsResult2_c)))) (CheckWritesItsResult2_s2)).1
def CheckWritesItsResult2_s3 : State := (runMc (checkSource (0) (CheckWritesItsResult2_t).ctx ((checkCmd (CheckWritesItsResult2_c)))) (CheckWritesItsResult2_s2)).2
def CheckWritesItsResult2_s4 : State := (runMc (spWrite (0) 7 ((checkCmd (CheckWritesItsResult2_c))).res ((blockChecks (CheckWritesItsResult2_p) (fun (k : Nat) => if ((checkCmd (CheckWritesItsResult2_c))).folden then some (((checkCmd (CheckWritesItsResult2_c))).fold + (if ((checkCmd (CheckWritesItsResult2_c))).foldsel then k else k * 2 ^ ((checkCmd (CheckWritesItsResult2_c))).blklog)) else none)
      (inBlocks (2 ^ ((checkCmd (CheckWritesItsResult2_c))).blklog) (CheckWritesItsResult2_bs))).flatMap (leBytes 8))) (CheckWritesItsResult2_s3)).2
theorem witness_CheckWritesItsResult_2 :
    ∃ (i : Nat) (c : Nat) (s : State) (s1 : State) (s2 : State) (s3 : State) (s4 : State) (t : Task) (p : CheckParams) (bs : List Byte),
      (i < 144 ∧
      s.pwr.st ≠ 5) ∧
      startState s i c checkRow (fun _ => false) = some s1 ∧
      (plainForm c 48 = true ∧
      cbits c 16 31 27 = 0 ∧
      cbits c 20 31 12 = 0 ∧
      cbits c 32 31 24 = 0 ∧
      cbits c 36 31 24 = 0 ∧
      cbytes c 40 8 = 0) ∧
      let m := checkCmd c
      (m.src % 4 = 0 ∧
      m.len % 4 = 0 ∧
      m.len ≠ 0 ∧
      m.len ≤ 2 ^ 26 ∧
      m.res % 64 = 0 ∧
      6 ≤ m.blklog ∧
      m.blklog ≤ 20 ∧
      m.par % 32 = 0) ∧
      (s1.pane i).task.bind s1.taskOf = some t ∧
      ((m.srcSp = true → inClaim t (m.src % 2 ^ 24) m.len = true) ∧
      inClaim t m.res m.resBytes = true ∧
      inClaim t m.par 32 = true ∧
      m.mode = 1 ∧
      m.cmpen = false) ∧
      runMc (checkParams i m) s1 = (.ok p, s2) ∧
      runMc (checkSource i t.ctx m) s2 = (.ok bs, s3) ∧
      runMc (spWrite i 7 m.res ((blockChecks p (fun (k : Nat) => if m.folden then some (m.fold + (if m.foldsel then k else k * 2 ^ m.blklog)) else none)
      (inBlocks (2 ^ m.blklog) bs)).flatMap (leBytes 8))) s3 = (.ok (), s4) :=
  ⟨0, CheckWritesItsResult2_c, CheckWritesItsResult2_s, CheckWritesItsResult2_s1, CheckWritesItsResult2_s2, CheckWritesItsResult2_s3, CheckWritesItsResult2_s4, CheckWritesItsResult2_t, CheckWritesItsResult2_p, CheckWritesItsResult2_bs, by decide +kernel, somePair _ (by decide +kernel), by decide +kernel, by decide +kernel, somePair _ (by decide +kernel), by decide +kernel, okPair _ (by decide +kernel), okPair _ (by decide +kernel), okPairV (by decide +kernel)⟩

theorem witness_FingerprintsCompose_1 :
    ∃ (a : Nat) (k : Nat) (xs : List Byte) (ys : List Byte),
      xs.length = 256 * k :=
  ⟨0, 1, leBytes 256 7, [1], by decide +kernel⟩

theorem witness_LinkTrainingAdvances_1 :
    ∃ (p : Nat) (s : State),
      p < 34 ∧
      regOpen s (rCtrl p) = true ∧
      (s.port p).st = 0 :=
  ⟨0, up, by decide +kernel⟩

def LinkTrainingAdvances2_s : State := (up).modPort 0 (fun x => { x with st := 1, laser := true })
theorem witness_LinkTrainingAdvances_2 :
    ∃ (p : Nat) (lanes : Nat) (s : State),
      p < 34 ∧
      s.pwr.st ≠ 5 ∧
      (s.port p).st = 1 ∧
      (s.port p).laser = true ∧
      16 ≤ popcount 18 lanes :=
  ⟨0, 2 ^ 18 - 1, LinkTrainingAdvances2_s, by decide +kernel⟩

def LinkTrainingAdvances3_s : State := (up).modPort 0 (fun x => { x with st := 1 })
theorem witness_LinkTrainingAdvances_3 :
    ∃ (p : Nat) (s : State),
      p < 34 ∧
      s.pwr.st ≠ 5 ∧
      (s.port p).st = 1 ∧
      popcount 18 (s.port p).light < 16 ∧
      (s.port p).darkLogged = false :=
  ⟨0, LinkTrainingAdvances3_s, by decide +kernel⟩

def LinkTrainingAdvances4_s : State := (up).modPort 0 (fun x => { x with st := 2 })
theorem witness_LinkTrainingAdvances_4 :
    ∃ (p : Nat) (s : State),
      p < 34 ∧
      s.pwr.st ≠ 5 ∧
      (s.port p).st = 2 :=
  ⟨0, LinkTrainingAdvances4_s, by decide +kernel⟩

def LinkTrainingAdvances5_s : State := (up).modPort 0 (fun x => { x with st := 3 })
theorem witness_LinkTrainingAdvances_5 :
    ∃ (p : Nat) (lanes : Nat) (s : State),
      p < 34 ∧
      s.pwr.st ≠ 5 ∧
      (s.port p).st = 3 ∧
      16 ≤ popcount 18 lanes :=
  ⟨0, 2 ^ 18 - 1, LinkTrainingAdvances5_s, by decide +kernel⟩

def LinkTrainingAdvances6_s : State := (up).modPort 33 (fun x => { x with st := 3 })
theorem witness_LinkTrainingAdvances_6 :
    ∃ (p : Nat) (s : State),
      p < 34 ∧
      s.pwr.st ≠ 5 ∧
      (s.port p).st = 3 :=
  ⟨33, LinkTrainingAdvances6_s, by decide +kernel⟩

def LinkTrainingAdvances7_w : Nat := leNat ((leBytes 2 0xA1C2 ++ leBytes 4 0 ++ leBytes 3 0x3FFFF ++ leBytes 1 1 ++ leBytes 1 1 ++ leBytes 3 0) ++ leBytes 2 (crc16 (leBytes 2 0xA1C2 ++ leBytes 4 0 ++ leBytes 3 0x3FFFF ++ leBytes 1 1 ++ leBytes 1 1 ++ leBytes 3 0)))
def LinkTrainingAdvances7_s : State := (up).modPort 0 (fun x => { x with st := 4, good := 2 ^ 18 - 1 })
theorem witness_LinkTrainingAdvances_7 :
    ∃ (p : Nat) (lane : Nat) (w : Nat) (s : State),
      (p < 34 ∧
      s.pwr.st ≠ 5 ∧
      trainOk w = true ∧
      (s.port p).st = 4) ∧
      let bs := leBytes 16 w
      let common := (setBitsOf 18 (field bs 6 3)).filter (bit (s.port p).good)
      field bs 0 2 = (if p < 32 then 0xA1C0 else 0xA1D0) + 2 ∧
      field bs 9 1 = 1 ∧
      16 ≤ common.length ∧
      bit (field bs 10 1) 0 = true :=
  ⟨0, 0, LinkTrainingAdvances7_w, LinkTrainingAdvances7_s, by decide +kernel, by decide +kernel⟩

def LinkTrainingAdvances8_w : Nat := leNat ((leBytes 2 0xA1C3 ++ leBytes 1 3 ++ leBytes 11 0) ++ leBytes 2 (crc16 (leBytes 2 0xA1C3 ++ leBytes 1 3 ++ leBytes 11 0)))
def LinkTrainingAdvances8_s : State := (up).modPort 0 (fun x => { x with st := 5, lanes := List.range 16, aligned := 2 ^ 18 - 1 - 8 })
theorem witness_LinkTrainingAdvances_8 :
    ∃ (p : Nat) (lane : Nat) (w : Nat) (s : State),
      (p < 34 ∧
      s.pwr.st ≠ 5 ∧
      trainOk w = true ∧
      (s.port p).st = 5) ∧
      let k := field (leBytes 16 w) 2 1 % 32
      field (leBytes 16 w) 0 2 = (if p < 32 then 0xA1C0 else 0xA1D0) + 3 ∧
      (s.port p).lanes.contains k = true ∧
      bit (s.port p).aligned k = false ∧
      (s.port p).lanes.all (bit ((s.port p).aligned + 2 ^ k)) = true :=
  ⟨0, 3, LinkTrainingAdvances8_w, LinkTrainingAdvances8_s, by decide +kernel, by decide +kernel⟩

def LinkTrainingAdvances9_s : State := (up).modPort 0 (fun x => { x with st := 6, clean := 4095, laneWin := 5000 })
theorem witness_LinkTrainingAdvances_9 :
    ∃ (p : Nat) (s : State),
      p < 34 ∧
      s.pwr.st ≠ 5 ∧
      (s.port p).st = 6 ∧
      s.devTime < (s.port p).laneWin + 1000000 :=
  ⟨0, LinkTrainingAdvances9_s, by decide +kernel⟩

def LinkTrainingAdvances10_errs : List (Nat × Nat) := ((List.range 16).map (fun k => (k, 1)))
def LinkTrainingAdvances10_s : State := (up).modPort 0 (fun x => { x with st := 6, clean := 5 })
theorem witness_LinkTrainingAdvances_10 :
    ∃ (p : Nat) (errs : List (Nat × Nat)) (s : State),
      p < 34 ∧
      s.pwr.st ≠ 5 ∧
      (s.port p).st = 6 ∧
      15 < ((errs.filter (fun e => e.1 < 544 && e.2 % 1024 != 0)).map (·.1)).eraseDups.length ∧
      s.devTime < (s.port p).laneWin + 1000000 :=
  ⟨0, LinkTrainingAdvances10_errs, LinkTrainingAdvances10_s, by decide +kernel⟩

def LinkTrainingAdvances11_errs : List (Nat × Nat) := ((List.range 16).map (fun k => (k, 1)))
def LinkTrainingAdvances11_s : State := (up).modPort 0 (fun x => { x with st := 8 })
theorem witness_LinkTrainingAdvances_11 :
    ∃ (p : Nat) (errs : List (Nat × Nat)) (s : State),
      p < 34 ∧
      s.pwr.st ≠ 5 ∧
      (s.port p).st = 8 ∧
      (s.port p).rxSwap = none ∧
      (s.port p).nakArmed = true ∧
      15 < ((errs.filter (fun e => e.1 < 544 && e.2 % 1024 != 0)).map (·.1)).eraseDups.length ∧
      s.devTime < (s.port p).laneWin + 1000000 :=
  ⟨0, LinkTrainingAdvances11_errs, LinkTrainingAdvances11_s, by decide +kernel⟩

def FlitsFollowTheLinkProtocol1_s : State := (up).modPort 0 (fun x => { x with st := 8 })
theorem witness_FlitsFollowTheLinkProtocol_1 :
    ∃ (p : Nat) (flit : Nat) (s : State),
      p < 34 ∧
      s.pwr.st ≠ 5 ∧
      (s.port p).st = 8 ∧
      crc32 ((leBytes 256 flit).take 252) ≠ field (leBytes 256 flit) 252 4 :=
  ⟨0, 1, FlitsFollowTheLinkProtocol1_s, by decide +kernel⟩

def FlitsFollowTheLinkProtocol2_flit : Nat := 0x8d6ab27e0000000000000000000000000000000000000000000000000000000000000000000000000000000000000000000000000000000000000000000000000000000000000000000000000000000000000000000000000000000000000000000000000000000000000000000000000000000000000000000000000000000000000000000000000000000000000000000000000000000000000000000000000000000000000000000000000000000000000000000000000000000000000000000000000000000000000000000000000000000000000000000000000000000000000000000000000000000000000000000000000700000000007f8003ff0001
def FlitsFollowTheLinkProtocol2_s : State := (up).modPort 0 (fun x => { x with st := 8 })
theorem witness_FlitsFollowTheLinkProtocol_2 :
    ∃ (p : Nat) (flit : Nat) (s : State),
      (p < 34 ∧
      s.pwr.st ≠ 5 ∧
      (s.port p).st = 8) ∧
      let bs := leBytes 256 flit
      let h := field bs 0 11
      (crc32 (bs.take 252) = field bs 252 4 ∧
      bits h 3 0 = 1 ∧
      bit h 26 = false) ∧
      let s1 := applyAck (s.modPort p (fun x => { x with peerHold := bit h 27, vcFreed := modAt x.vcFreed (bits h 29 28) (fun n =>
        n + (bits h 38 30 + 512 - x.vcFreed.getD (bits h 29 28) 0 % 512) % 512) })) p (bits h 25 16)
      bits h 15 6 = (s1.port p).rxSeq :=
  ⟨0, FlitsFollowTheLinkProtocol2_flit, FlitsFollowTheLinkProtocol2_s, by decide +kernel, by decide +kernel, by decide +kernel⟩

def FlitsFollowTheLinkProtocol3_flit : Nat := 0x28ff741a0000000000000000000000000000000000000000000000000000000000000000000000000000000000000000000000000000000000000000000000000000000000000000000000000000000000000000000000000000000000000000000000000000000000000000000000000000000000000000000000000000000000000000000000000000000000000000000000000000000000000000000000000000000000000000000000000000000000000000000000000000000000000000000000000000000000000000000000000000000000000000000000000000000000000000000000000000000000000000000000000000000000007f8003ff0003
def FlitsFollowTheLinkProtocol3_s : State := (up).modPort 0 (fun x => { x with st := 7 })
theorem witness_FlitsFollowTheLinkProtocol_3 :
    ∃ (p : Nat) (flit : Nat) (s : State),
      p < 34 ∧
      s.pwr.st ≠ 5 ∧
      (s.port p).st = 7 ∧
      crc32 ((leBytes 256 flit).take 252) = field (leBytes 256 flit) 252 4 ∧
      bits (field (leBytes 256 flit) 0 11) 3 0 = 3 :=
  ⟨0, FlitsFollowTheLinkProtocol3_flit, FlitsFollowTheLinkProtocol3_s, by decide +kernel⟩

def FlitsFollowTheLinkProtocol4a_s : State := (up).modPort 0 (fun x => { x with st := 7 })
theorem witness_FlitsFollowTheLinkProtocol_4a :
    ∃ (p : Nat) (s : State),
      (p < 34 ∧
      s.pwr.st ≠ 5) ∧
      let s1 := freeFlits s p
      let x := s1.port p
      x.st = 7 :=
  ⟨0, FlitsFollowTheLinkProtocol4a_s, by decide +kernel, by decide +kernel⟩

def FlitsFollowTheLinkProtocol4b_s : State := (up).modPort 0 (fun x => { x with st := 8, txq := [(3, 0, mkMsg 5 1 0 0 1 0 0 3 0 0 0 [])] })
def FlitsFollowTheLinkProtocol4b_vc : Nat := ((vcOrder ((((freeFlits (FlitsFollowTheLinkProtocol4b_s) (0))).port (0)))).find? (vcReady ((((freeFlits (FlitsFollowTheLinkProtocol4b_s) (0))).port (0))))).getD (0)
theorem witness_FlitsFollowTheLinkProtocol_4b :
    ∃ (p : Nat) (s : State) (vc : Nat),
      (p < 34 ∧
      s.pwr.st ≠ 5) ∧
      let s1 := freeFlits s p
      let x := s1.port p
      (x.st = 8 ∧
      x.rxSwap = none ∧
      x.peerHold = false ∧
      x.txSwap = none ∧
      x.resend = [] ∧
      x.replay.length + keptFlits x < 256) ∧
      (vcOrder x).find? (vcReady x) = some vc :=
  ⟨0, FlitsFollowTheLinkProtocol4b_s, FlitsFollowTheLinkProtocol4b_vc, by decide +kernel, by decide +kernel, somePair _ (by decide +kernel)⟩

def FlitsFollowTheLinkProtocol4c_s : State := (up).modPort 0 (fun x => { x with st := 8, peerHold := true })
theorem witness_FlitsFollowTheLinkProtocol_4c :
    ∃ (p : Nat) (s : State),
      (p < 34 ∧
      s.pwr.st ≠ 5) ∧
      let s1 := freeFlits s p
      let x := s1.port p
      x.st = 8 ∧
      x.rxSwap = none ∧
      x.peerHold = true :=
  ⟨0, FlitsFollowTheLinkProtocol4c_s, by decide +kernel, by decide +kernel⟩


def FlitsFollowTheLinkProtocol5_s : State := (up).modPort 0 (fun x => { x with st := 8, nakArmed := true, replay := [{ seq := 0, vc := 0, first := 0xFF, payload := leBytes 241 7, resends := 0, ends := 0 }] })
theorem witness_FlitsFollowTheLinkProtocol_5 :
    ∃ (p : Nat) (s : State),
      p < 34 ∧
      s.pwr.st ≠ 5 ∧
      (s.port p).st = 8 ∧
      (s.port p).nakArmed = true ∧
      (s.port p).replay ≠ [] ∧
      (s.port p).peerHold = false ∧
      (s.port p).replay.any (fun f => 7 ≤ f.resends) = false :=
  ⟨0, FlitsFollowTheLinkProtocol5_s, by decide +kernel⟩

def FlitsFollowTheLinkProtocol6_s : State := (up).modPort 0 (fun x => { x with st := 8, rxSwap := some (0, 16, 300, false) })
theorem witness_FlitsFollowTheLinkProtocol_6 :
    ∃ (p : Nat) (l : Nat) (k : Nat) (cw : Nat) (s : State),
      (p < 34 ∧
      s.pwr.st ≠ 5) ∧
      let s1 := freeFlits s p
      let x := s1.port p
      x.st = 8 ∧
      x.rxSwap = some (l, k, cw, false) ∧
      x.sinceSwap % 64 = 0 :=
  ⟨0, 0, 16, 300, FlitsFollowTheLinkProtocol6_s, by decide +kernel, by decide +kernel⟩

def LanesShuttersAndFailover1_s : State := (up).modPort 0 (fun x => { x with st := 8 })
theorem witness_LanesShuttersAndFailover_1 :
    ∃ (p : Nat) (s : State),
      p < 34 ∧
      regOpen s (rCtrl p) = true ∧
      s.portUp p = true :=
  ⟨0, LanesShuttersAndFailover1_s, by decide +kernel⟩

def LanesShuttersAndFailover2_s : State := (up).modPort 0 (fun x => { x with st := 8, lanes := List.range 16, spares := [16, 17] })
theorem witness_LanesShuttersAndFailover_2 :
    ∃ (p : Nat) (lane : Nat) (k : Nat) (l : Nat) (ks : List Nat) (s : State),
      p < 34 ∧
      regOpen s (rCtrl p) = true ∧
      (s.port p).st = 8 ∧
      (s.port p).rxSwap = none ∧
      (s.port p).lanes.idxOf? lane = some l ∧
      (s.port p).spares = k :: ks :=
  ⟨0, 4, 16, 4, [17], LanesShuttersAndFailover2_s, by decide +kernel⟩

def LanesShuttersAndFailover3_s : State := (up).modPort 0 (fun x => { x with st := 8, lanes := List.range 16, spares := [16, 17] })
theorem witness_LanesShuttersAndFailover_3 :
    ∃ (p : Nat) (lane : Nat) (k : Nat) (l : Nat) (ks : List Nat) (s : State),
      p < 34 ∧
      s.pwr.st ≠ 5 ∧
      (s.dom (5 * 256 + p)).cur = none ∧
      (s.port p).st = 8 ∧
      (s.port p).rxSwap = none ∧
      (s.port p).lanes.idxOf? lane = some l ∧
      (s.port p).spares = k :: ks :=
  ⟨0, 4, 16, 4, [17], LanesShuttersAndFailover3_s, by decide +kernel⟩

def LanesShuttersAndFailover4_s : State := (up).modPort 0 (fun x => { x with st := 4 })
theorem witness_LanesShuttersAndFailover_4 :
    ∃ (p : Nat) (s : State),
      p < 34 ∧
      regOpen s (rCtrl p) = true ∧
      (s.port p).st ≠ 8 ∧
      (s.port p).drain = none :=
  ⟨0, LanesShuttersAndFailover4_s, by decide +kernel⟩

def LanesShuttersAndFailover5_s : State := (up).modPort 33 (fun x => { x with st := 8 })
theorem witness_LanesShuttersAndFailover_5 :
    ∃ (p : Nat) (s : State),
      p < 34 ∧
      regOpen s (rCtrl p) = true ∧
      (s.port p).st = 8 :=
  ⟨33, LanesShuttersAndFailover5_s, by decide +kernel⟩

def LanesShuttersAndFailover6_s : State := (up).modPort 0 (fun x => { x with st := 8, light := 2 ^ 18 - 1 })
theorem witness_LanesShuttersAndFailover_6 :
    ∃ (p : Nat) (lanes : Nat) (s : State),
      p < 34 ∧
      s.pwr.st ≠ 5 ∧
      (s.port p).st = 8 ∧
      3 ≤ (setBitsOf 18 lanes).length :=
  ⟨0, 7, LanesShuttersAndFailover6_s, by decide +kernel⟩

def LanesShuttersAndFailover7_s : State := (up).modPort 0 (fun x => { x with st := 9, drain := some (3, 100) })
theorem witness_LanesShuttersAndFailover_7 :
    ∃ (p : Nat) (s : State),
      p < 34 ∧
      s.pwr.st ≠ 5 ∧
      drainedPort (s.port p) = true :=
  ⟨0, LanesShuttersAndFailover7_s, by decide +kernel⟩

def LanesShuttersAndFailover8_s : State := (up).modPort 0 (fun x => { x with st := 9, drain := some (3, 100) })
theorem witness_LanesShuttersAndFailover_8 :
    ∃ (p : Nat) (s : State),
      p < 34 ∧
      s.pwr.st ≠ 5 ∧
      (s.port p).drain.isSome = true :=
  ⟨0, LanesShuttersAndFailover8_s, by decide +kernel⟩

theorem witness_LanesShuttersAndFailover_9 :
    ∃ (b : Nat) (s : State),
      b < 16 ∧
      s.pwr.st ≠ 5 :=
  ⟨0, up, by decide +kernel⟩

def LanesShuttersAndFailover10_m : List Byte := mkMsg 6 1 0 0 1 0 0 3 0 0 0 []
def LanesShuttersAndFailover10_s : State := (up).modPort 0 (fun x => { x with failIn := [mkMsg 6 1 0 0 1 0 0 3 0 0 0 []] })
theorem witness_LanesShuttersAndFailover_10 :
    ∃ (p : Nat) (m : List Byte) (ms : List (List Byte)) (s : State),
      p < 34 ∧
      s.pwr.st ≠ 5 ∧
      (s.port p).failIn = m :: ms :=
  ⟨0, LanesShuttersAndFailover10_m, [], LanesShuttersAndFailover10_s, by decide +kernel⟩

theorem witness_FlitsCarryTheirFields_1 :
    ∃ (x : Port) (ftype : Nat) (vc : Nat) (seq : Nat) (first : Nat) (pl : List Byte),
      ftype < 16 ∧
      vc < 4 ∧
      seq < 1024 ∧
      first < 256 ∧
      x.cvc < 4 ∧
      pl.length = 241 :=
  ⟨{}, 1, 2, 1023, 255, leBytes 241 7, by decide +kernel⟩

def ResetsLeaveWhatTheyKeep2_s : State := { up with sup := { tripped := true } }
theorem witness_ResetsLeaveWhatTheyKeep_2 :
    ∃ (chip : Nat) (smba : Nat) (rn : Nat) (s : State),
      s.sup.tripped = true :=
  ⟨1, 0, 1, ResetsLeaveWhatTheyKeep2_s, by decide +kernel⟩

theorem witness_ResetsLeaveWhatTheyKeep_3 :
    ∃ (chip : Nat) (smba : Nat) (rn : Nat) (s : State),
      s.sup.tripped = false ∧
      s.sup.vauxOk = true :=
  ⟨4095, 3, 0, up, by decide +kernel⟩

theorem witness_ResetsLeaveWhatTheyKeep_4 :
    ∃ (path : Nat) (s : State),
      1 ≤ path ∧
      path ≤ 3 ∧
      s.pwr.st ≠ 5 ∧
      s.rel.upd ≠ 3 ∧
      pathBusy s path = false ∧
      accessReason s path Reg.CTL_RESTART true = 0 :=
  ⟨2, up, by decide +kernel⟩

theorem witness_ResetsLeaveWhatTheyKeep_5 :
    ∃ (path : Nat) (s : State),
      1 ≤ path ∧
      path ≤ 3 ∧
      s.pwr.st ≠ 5 ∧
      s.rel.upd ≠ 3 ∧
      pathBusy s path = false ∧
      accessReason s path Reg.CTL_RESTART true = 0 :=
  ⟨3, up, by decide +kernel⟩

def BringUpSteps1_s : State := { up with boot := { phase := 0, puf := false, forced := true }, sec := { st := 0 }, pwr := { st := 4 } }
theorem witness_BringUpSteps_1 :
    ∃ (s : State),
      s.pwr.st ≠ 5 ∧
      s.boot.phase = 0 ∧
      s.boot.puf = false ∧
      s.boot.forced = true :=
  ⟨BringUpSteps1_s, by decide +kernel⟩

def BringUpSteps2_s : State := flashPut (flashPut ({ up with boot := { phase := 0, puf := false }, sec := { st := 0 }, pwr := { st := 4 } }) 0 ((leBytes 4 0x4F4B4944 ++ leBytes 4 1 ++ (leBytes 52 1)) ++ leBytes 4 (crc32 (leBytes 4 0x4F4B4944 ++ leBytes 4 1 ++ (leBytes 52 1))))) 0x20000 ((leBytes 4 0x4F4B4944 ++ leBytes 4 1 ++ (leBytes 52 0)) ++ leBytes 4 (crc32 (leBytes 4 0x4F4B4944 ++ leBytes 4 1 ++ (leBytes 52 0))))
def BringUpSteps2_c : List Byte := flashAt (BringUpSteps2_s) 0 64
def BringUpSteps2_d : List Byte := flashAt (BringUpSteps2_s) 0x20000 64
theorem witness_BringUpSteps_2 :
    ∃ (s : State) (k : Nat) (j : Nat) (c : List Byte) (d : List Byte),
      s.pwr.st ≠ 5 ∧
      s.boot.phase = 0 ∧
      s.boot.puf = false ∧
      s.boot.forced = false ∧
      copyUsed s 0 = some (k, c) ∧
      copyUsed s 0x20000 = some (j, d) :=
  ⟨BringUpSteps2_s, 0, 0, BringUpSteps2_c, BringUpSteps2_d, by decide +kernel⟩

/-! An image that passes every check but those of its key and signature, which are the device's own functions: 0x540000 bytes,
sections 1 to 7, one region, a slot-table section of zeros. -/

/-- The bytes of the image that are not zero: its head (MAGIC, FMT, PART, LENGTH), the section table, the memory map of one
region of 256 KiB, the length of the signature. -/
def imgCells : Tbl Byte := [
    (0x0, 0x4f), (0x1, 0x4c), (0x2, 0x4b), (0x3, 0x49), (0x4, 0x1), (0x6, 0xf8), (0x7, 0x1b), (0x12, 0x54),
    (0x14, 0x7), (0x20, 0x1), (0x25, 0x10), (0x28, 0x4), (0x30, 0x2), (0x34, 0x10), (0x35, 0x10), (0x38, 0x4),
    (0x40, 0x3), (0x44, 0x20), (0x45, 0x10), (0x48, 0x4), (0x50, 0x4), (0x54, 0x30), (0x55, 0x10), (0x58, 0x10),
    (0x60, 0x5), (0x64, 0x40), (0x65, 0x10), (0x68, 0x40), (0x70, 0x6), (0x75, 0x20), (0x79, 0x20), (0x7a, 0x53),
    (0x80, 0x7), (0x84, 0x80), (0x85, 0x10), (0x88, 0x10), (0x1040, 0x1), (0x105a, 0x4), (0x53fa00, 0x1)]

/-- The same image at an address of a store, with zeros for the rest of it. -/
def imgStore (base : Nat) : Tbl Byte :=
  imgCells.map (fun e => (base + e.1, e.2)) ++ (List.range 0x540000).map (fun k => (base + k, (0 : Byte)))

/-- Byte `x` of the image, `d` past its end. -/
def imgByte (d : Byte) (x : Nat) : Byte := tget (if x < 0x540000 then 0 else d) imgCells x

/-- Reading the image. -/
def imgRead (d : Byte) (o n : Nat) : List Byte := (List.range n).map (fun k => imgByte d (o + k))

theorem tget_shift (d : Byte) (base : Nat) : ∀ (t u : Tbl Byte) (x : Nat),
    tget d (t.map (fun e => (base + e.1, e.2)) ++ u) (base + x) = tget (tget d u (base + x)) t x
  | [], u, x => by simp [tget]
  | (k, v) :: t, u, x => by
    have ih := tget_shift d base t u x
    simp only [List.map_cons, List.cons_append, tget]
    by_cases h : k = x
    · simp [h]
    · simp [h, ih]

theorem tget_zeros (d : Byte) (base x : Nat) : ∀ l : List Nat,
    tget d (l.map (fun k => (base + k, (0 : Byte)))) (base + x) = if x ∈ l then 0 else d
  | [] => by simp [tget]
  | k :: l => by
    have ih := tget_zeros d base x l
    simp only [List.map_cons, tget, ih]
    by_cases h : k = x
    · simp [h]
    · have h'' : x ≠ k := fun e => h e.symm
      simp [h, h'']

theorem imgStore_read (d : Byte) (base x : Nat) : tget d (imgStore base) (base + x) = imgByte d x := by
  rw [imgStore, tget_shift, tget_zeros, imgByte]
  simp

theorem imgStore_rawRead (d : Byte) (base o n : Nat) : rawRead (imgStore base) d (base + o) n = imgRead d o n := by
  simp [rawRead, imgRead, Nat.add_assoc, imgStore_read]

theorem slotsWell_zeros : ∀ (k n : Nat), slotsWell k (List.replicate n (0 : Byte)) = true
  | _, 0 => rfl
  | _, 1 => rfl
  | k, n + 2 => by
    have hz : ∀ c, slotWell c (leNat [(0 : Byte), 0]) = true := by
      intro c
      by_cases h : c = 3 <;> simp [slotWell, h, leNat, bit, bits]
    show slotsWell k (0 :: 0 :: List.replicate n 0) = true
    simp only [slotsWell, hz, slotsWell_zeros (k + 1) n, Bool.and_self]

theorem tget_none (d : Byte) (x : Nat) : ∀ t : Tbl Byte, t.all (fun e => e.1 != x) = true → tget d t x = d
  | [], _ => rfl
  | (k, v) :: t, h => by
    simp only [List.all_cons, Bool.and_eq_true, bne_iff_ne, ne_eq] at h
    simp [tget, h.1, tget_none d x t h.2]

theorem imgSlots_zeros (d : Byte) (n : Nat) (h : n ≤ 0x532000) : imgRead d 0x2000 n = List.replicate n 0 := by
  have hc : imgCells.all (fun e => decide (e.1 < 0x2000 ∨ 0x53FA00 ≤ e.1)) = true := by decide +kernel
  refine List.eq_replicate_iff.mpr ⟨by simp [imgRead], ?_⟩
  intro b hb
  simp only [imgRead, List.mem_map, List.mem_range] at hb
  obtain ⟨k, hk, rfl⟩ := hb
  have hn : imgCells.all (fun e => e.1 != 0x2000 + k) = true := by
    rw [List.all_eq_true] at hc ⊢
    intro e he
    have := of_decide_eq_true (hc e he)
    simp only [bne_iff_ne, ne_eq]
    omega
  rw [imgByte, tget_none _ _ _ hn, if_pos (by omega)]

/-- Reading the image where its bytes end. -/
def imgClip (o n : Nat) : List Byte := imgRead 0 o (min n (0x540000 - o))

/-- Its key and its signature are good. -/
def Signed (rd : Nat → Nat → List Byte) : Prop :=
  Config.shake256 (imgKey rd) 64 = Config.romKey ∧
  Config.falconVerify (imgKey rd) (Config.shake256 (rd 0 0x53FA00) 64) (rd 0x53FA02 1) = true

theorem imgVerdict_accepts (rd : Nat → Nat → List Byte) (hd : rd = imgRead 0xFF ∨ rd = imgClip) (h : Signed rd) : imgVerdict rd 0 = 0 := by
  have h1 : imgHead rd = true := by rcases hd with rfl | rfl <;> decide +kernel
  have h2 : imgTable rd = true := by rcases hd with rfl | rfl <;> decide +kernel
  have hl : imgLen rd = 0x540000 := by rcases hd with rfl | rfl <;> decide +kernel
  have hn : field (rd 0x53FA00 2) 0 2 = 1 := by rcases hd with rfl | rfl <;> decide +kernel
  have h3 : imgSigned rd = true := by simp [imgSigned, hl, hn, h.1, h.2]
  have h4 : imgVer rd = 0 := by rcases hd with rfl | rfl <;> decide +kernel
  have h5 : imgMin rd = 0 := by rcases hd with rfl | rfl <;> decide +kernel
  have h6 : imgMapOk rd = true := by rcases hd with rfl | rfl <;> decide +kernel
  have h7 : imgSect rd 6 = (0x2000, 0x532000) := by rcases hd with rfl | rfl <;> decide +kernel
  have h8 : slotsWell 0 (imgSlots rd) = true := by
    rw [imgSlots, h7]
    have hz : rd 0x2000 (16 * 340480) = List.replicate 0x532000 0 := by
      rcases hd with rfl | rfl
      · exact imgSlots_zeros 0xFF _ (by omega)
      · exact imgSlots_zeros 0 _ (by omega)
    rw [hz]
    exact slotsWell_zeros 0 _
  simp [imgVerdict, h1, h2, h3, h4, h5, h6, h7, h8]

/-- Slot 0 of the flash holds the image. -/
theorem witness_BringUpSteps_3 (h : Signed (imgRead 0xFF)) : ∃ s : State, s.pwr.st ≠ 5 ∧ s.boot.phase = 1 ∧
    imgVerdict (fun (o n : Nat) => flashAt s (slotBase s.boot.slot + o) n) (floorOf s) = 0 := by
  refine ⟨{ State.reset with flash := imgStore (slotBase 0), boot := { phase := 1 } }, by decide, rfl, ?_⟩
  have hr : (fun (o n : Nat) => flashAt { State.reset with flash := imgStore (slotBase 0), boot := { phase := 1 } } (slotBase 0 + o) n)
      = imgRead 0xFF := by
    funext o n
    exact imgStore_rawRead 0xFF (slotBase 0) o n
  show imgVerdict (fun (o n : Nat) => flashAt _ (slotBase 0 + o) n) 0 = 0
  rw [hr]
  exact imgVerdict_accepts _ (.inl rfl) h


def BringUpSteps4_s : State := { up with boot := { phase := 1 }, sec := { st := 0 }, pwr := { st := 4 } }
theorem witness_BringUpSteps_4 :
    ∃ (s : State),
      s.pwr.st ≠ 5 ∧
      s.boot.phase = 1 ∧
      s.boot.second = false ∧
      imgVerdict (fun (o n : Nat) => flashAt s (slotBase s.boot.slot + o) n) (floorOf s) ≠ 0 :=
  ⟨BringUpSteps4_s, by decide +kernel⟩

def BringUpSteps5_s : State := { up with boot := { phase := 1, second := true }, sec := { st := 0 }, pwr := { st := 4 } }
theorem witness_BringUpSteps_5 :
    ∃ (s : State),
      s.pwr.st ≠ 5 ∧
      s.boot.phase = 1 ∧
      s.boot.second = true ∧
      imgVerdict (fun (o n : Nat) => flashAt s (slotBase s.boot.slot + o) n) (floorOf s) ≠ 0 :=
  ⟨BringUpSteps5_s, by decide +kernel⟩

def BringUpSteps6_rep : BringUp := { badBays := [], badChannels := [] }
def BringUpSteps6_s : State := { up with boot := { phase := 2 }, sec := { st := 0 }, pwr := { st := 4 } }
theorem witness_BringUpSteps_6 :
    ∃ (rep : BringUp) (s : State),
      s.pwr.st ≠ 5 ∧
      s.boot.phase = 2 ∧
      s.boot.hold = false ∧
      rep.badBays = [] ∧
      (List.range 16).find? (stackBad s rep) = none :=
  ⟨BringUpSteps6_rep, BringUpSteps6_s, by decide +kernel⟩

def BringUpSteps7_rep : BringUp := { badBays := [3], badChannels := [] }
def BringUpSteps7_s : State := { up with boot := { phase := 2 }, sec := { st := 0 }, pwr := { st := 4 } }
theorem witness_BringUpSteps_7 :
    ∃ (rep : BringUp) (b : Nat) (bs : List Nat) (s : State),
      s.pwr.st ≠ 5 ∧
      s.boot.phase = 2 ∧
      s.boot.hold = false ∧
      rep.badBays = b :: bs :=
  ⟨BringUpSteps7_rep, 3, [], BringUpSteps7_s, by decide +kernel⟩

def BringUpSteps8_s : State := { up with boot := { phase := 3 }, sec := { st := 0 }, pwr := { st := 4 } }
theorem witness_BringUpSteps_8 :
    ∃ (s : State),
      s.pwr.st ≠ 5 ∧
      s.boot.phase = 3 :=
  ⟨BringUpSteps8_s, by decide +kernel⟩

def BringUpSteps9_s : State := { up with boot := { phase := 4 }, sec := { st := 0 }, pwr := { st := 4 } }
theorem witness_BringUpSteps_9 :
    ∃ (s : State),
      s.pwr.st ≠ 5 ∧
      s.boot.phase = 4 :=
  ⟨BringUpSteps9_s, by decide +kernel⟩

def BringUpSteps10_s : State := { up with boot := { phase := 5 }, sec := { st := 0 }, pwr := { st := 4 } }
theorem witness_BringUpSteps_10 :
    ∃ (s : State),
      s.pwr.st ≠ 5 ∧
      s.boot.phase = 5 :=
  ⟨BringUpSteps10_s, by decide +kernel⟩

theorem witness_CommitsApplyStagedValues_1 :
    ∃ (v : Nat) (s : State),
      (regOpen s Reg.CTL_COMMIT = true ∧
      s.mgmt.commits.contains (v % 65536) = false ∧
      tgtKnown (v % 65536) = true) ∧
      let s0 := s.setReg Reg.CTL_COMMITSEQ ((s.regN Reg.CTL_COMMITSEQ + 1) % 2 ^ 32)
      commitCheck s0 (v % 65536) = none :=
  ⟨7, up, by decide +kernel, by decide +kernel⟩

def CommitsApplyStagedValues2_s : State := up |>.setReg Reg.CTL_COMMITSEQ 7 |> fun u => { u with staged := [(Reg.DSP_SLICE 0, 1), (Reg.DSP_BLOCKSW 0, 2)] }
theorem witness_CommitsApplyStagedValues_2 :
    ∃ (v : Nat) (off : Nat) (chk : Nat) (s : State),
      (regOpen s Reg.CTL_COMMIT = true ∧
      s.mgmt.commits.contains (v % 65536) = false ∧
      tgtKnown (v % 65536) = true) ∧
      let s0 := s.setReg Reg.CTL_COMMITSEQ ((s.regN Reg.CTL_COMMITSEQ + 1) % 2 ^ 32)
      commitCheck s0 (v % 65536) = some (off, chk) :=
  ⟨5, 0x14, 6, CommitsApplyStagedValues2_s, by decide +kernel, by decide +kernel⟩

def CommitsApplyStagedValues3_s : State := { up with mgmt := { commits := [5] } }
theorem witness_CommitsApplyStagedValues_3 :
    ∃ (n : Nat) (s : State),
      n < 16 ∧
      s.pwr.st ≠ 5 ∧
      s.mgmt.commits.contains (5 + n * 2 ^ 8) = true ∧
      s.mgmt.held = [] :=
  ⟨0, CommitsApplyStagedValues3_s, by decide +kernel⟩

theorem witness_SecurityCommandsAndTokens_1 :
    ∃ (c : Instr) (n : Nat) (s : State),
      regOpen s Reg.SEC_CMD = true ∧
      (c = .secNewNonce ∧ n = 1 ∨ c = .secLeaveService ∧ n = 3 ∨ c = .secAttest ∧ n = 4 ∨ c = .secCertificate ∧ n = 5 ∨ c = .secEnrol ∧ n = 6) ∧
      s.sec.run = none :=
  ⟨.secNewNonce, 1, up, by decide +kernel⟩

def SecurityCommandsAndTokens2_s : State := { up with sec := { st := 1, run := some (1, 0) } }
theorem witness_SecurityCommandsAndTokens_2 :
    ∃ (c : Instr) (s : State),
      regOpen s Reg.SEC_CMD = true ∧
      (c = .secNewNonce ∨ c = .secLeaveService ∨ c = .secAttest ∨ c = .secCertificate ∨ c = .secEnrol) ∧
      s.sec.run.isSome = true :=
  ⟨.secEnrol, SecurityCommandsAndTokens2_s, by decide +kernel⟩

theorem witness_SecurityCommandsAndTokens_3 :
    ∃ (path : Nat) (s : State),
      1 ≤ path ∧
      path ≤ 3 ∧
      s.pwr.st ≠ 5 ∧
      s.rel.upd ≠ 3 ∧
      pathBusy s path = false ∧
      accessReason s path Reg.SEC_CMD true = 0 ∧
      s.sec.run = none :=
  ⟨1, up, by decide +kernel⟩

def SecurityCommandsAndTokens4_s : State := { up with sec := { st := 1, run := some (1, 1) } }
theorem witness_SecurityCommandsAndTokens_4 :
    ∃ (path : Nat) (s : State),
      s.pwr.st ≠ 5 ∧
      s.sec.run = some (1, path) ∧
      secWrites s = [] :=
  ⟨1, SecurityCommandsAndTokens4_s, by decide +kernel⟩

def SecurityCommandsAndTokens5_s : State := { up with sec := { st := 1, run := some (2, 1), token := leBytes 1600 0 } }
theorem witness_SecurityCommandsAndTokens_5 :
    ∃ (path : Nat) (s : State),
      s.pwr.st ≠ 5 ∧
      s.sec.run = some (2, path) ∧
      secWrites s = [] ∧
      s.sec.st ≠ 0 ∧
      s.sec.noid = false ∧
      s.sec.token.length = 1600 :=
  ⟨1, SecurityCommandsAndTokens5_s, by decide +kernel⟩

def SecurityCommandsAndTokens6_s : State := { up with sec := { st := 2, run := some (3, 0) } }
theorem witness_SecurityCommandsAndTokens_6 :
    ∃ (path : Nat) (s : State),
      s.pwr.st ≠ 5 ∧
      s.sec.run = some (3, path) ∧
      secWrites s = [] ∧
      s.sec.st = 2 :=
  ⟨0, SecurityCommandsAndTokens6_s, by decide +kernel⟩

def SecurityCommandsAndTokens7_s : State := { up with sec := { st := 0, run := some (4, 0) } }
theorem witness_SecurityCommandsAndTokens_7 :
    ∃ (n : Nat) (path : Nat) (s : State),
      s.pwr.st ≠ 5 ∧
      s.sec.run = some (n, path) ∧
      secWrites s = [] ∧
      2 ≤ n ∧
      n ≤ 5 ∧
      n ≠ 3 ∧
      s.sec.st = 0 :=
  ⟨4, 0, SecurityCommandsAndTokens7_s, by decide +kernel⟩

theorem witness_SecurityCommandsAndTokens_8 :
    ∃ (v : Nat) (s : State),
      regOpen s Reg.SEC_TOKDATA = true ∧
      s.sec.token.length < 1600 :=
  ⟨7, up, by decide +kernel⟩

def SecurityCommandsAndTokens9_s : State := { up with sec := { st := 1, token := leBytes 1600 0 } }
theorem witness_SecurityCommandsAndTokens_9 :
    ∃ (v : Nat) (s : State),
      regOpen s Reg.SEC_TOKDATA = true ∧
      1600 ≤ s.sec.token.length :=
  ⟨7, SecurityCommandsAndTokens9_s, by decide +kernel⟩

def SecurityCommandsAndTokens10_s : State := { up with sec := { st := 2 } }
theorem witness_SecurityCommandsAndTokens_10 :
    ∃ (s : State),
      s.pwr.st ≠ 5 ∧
      s.sec.st = 2 ∧
      s.dbg.level ≠ 2 :=
  ⟨SecurityCommandsAndTokens10_s, by decide +kernel⟩

/-- A token for DEVID 7 and nonce 9: Service at level 2 for 3,600 s; its signature is one byte. -/
def token : List Byte :=
  leBytes 4 0x4F4B5354 ++ leBytes 2 1 ++ leBytes 2 7160 ++ leBytes 16 7 ++ leBytes 8 9 ++ leBytes 4 2 ++ leBytes 4 3600 ++ leBytes 24 0
    ++ leBytes 2 1 ++ leBytes 1534 0

/-- A Sealed device that waits for it. -/
def awaiting : State := { up with sec := { st := 1, devid := leBytes 16 7, nonce := 9, nonceOk := true } }

/-- The signature of the token is good. -/
def TokenSigned : Prop := Config.falconVerify [] (Config.shake256 (token.take 64) 64) ((token.drop 66).take 1) = true

theorem token_accepted (h : TokenSigned) : tokenResult awaiting token = (0, true) := by
  have h0 : field token 0 4 = 0x4F4B5354 ∧ field token 4 2 = 1 ∧ field token 6 2 = 7160 := by decide +kernel
  have h1 : (token.drop 8).take 16 = awaiting.sec.devid := by decide +kernel
  have h2 : awaiting.sec.nonceOk = true ∧ field token 24 8 = awaiting.sec.nonce := by decide +kernel
  have h3 : field token 32 1 = 2 ∧ field token 36 4 = 3600 ∧ field token 64 2 = 1 := by decide +kernel
  have h4 : awaiting.sec.imgKey = [] := rfl
  rw [TokenSigned] at h
  simp [tokenResult, h0, h1, h2, h3, h4, h]

theorem witness_SecurityCommandsAndTokens_11 (h : TokenSigned) : ∃ (s : State) (t : List Byte), tokenResult s t = (0, true) :=
  ⟨awaiting, token, token_accepted h⟩

theorem witness_SecurityCommandsAndTokens_13 (h : TokenSigned) : ∃ (s : State) (t : List Byte), (tokenResult s t).1 = 0 :=
  ⟨awaiting, token, by rw [token_accepted h]⟩

theorem witness_SecurityCommandsAndTokens_12 :
    ∃ (s : State) (path : Nat) (r : Nat) (used : Bool) (t : List Byte),
      tokenResult s t = (r, used) ∧
      r ≠ 0 :=
  ⟨up, 1, 7, false, leBytes 1600 0, by decide +kernel⟩

def FlashServiceProgramsAndErases1_s : State := { up with sec := { st := 0 } }
theorem witness_FlashServiceProgramsAndErases_1 :
    ∃ (v : Nat) (s : State),
      regOpen s Reg.SEC_FPDATA = true ∧
      s.sec.st = 0 ∧
      s.sec.page.length < 256 :=
  ⟨7, FlashServiceProgramsAndErases1_s, by decide +kernel⟩

def FlashServiceProgramsAndErases2_s : State := { up with sec := { st := 0 } }
theorem witness_FlashServiceProgramsAndErases_2 :
    ∃ (s : State),
      regOpen s Reg.SEC_FPDATA = true ∧
      s.sec.st = 0 :=
  ⟨FlashServiceProgramsAndErases2_s, by decide +kernel⟩

def FlashServiceProgramsAndErases3_s : State := ({ up with sec := { st := 0 } }).setReg Reg.SEC_FPADDR 0x800000
theorem witness_FlashServiceProgramsAndErases_3 :
    ∃ (c : Instr) (n : Nat) (s : State),
      (c = .flashErase ∧ n = 1 ∨ c = .flashProgram ∧ n = 2) ∧
      regOpen s Reg.SEC_FPCMD = true ∧
      s.sec.st = 0 ∧
      s.sec.flash = none ∧
      fpMay (fpAddr s) = true :=
  ⟨.flashErase, 1, FlashServiceProgramsAndErases3_s, by decide +kernel⟩

def FlashServiceProgramsAndErases4_s : State := { up with sec := { st := 0, flash := some (1, 0x800000, []) } }
theorem witness_FlashServiceProgramsAndErases_4 :
    ∃ (c : Instr) (s : State),
      (c = .flashErase ∨ c = .flashProgram) ∧
      regOpen s Reg.SEC_FPCMD = true ∧
      s.sec.st = 0 ∧
      (s.sec.flash.isSome = true ∨ fpMay (fpAddr s) = false) :=
  ⟨.flashProgram, FlashServiceProgramsAndErases4_s, by decide +kernel⟩

def FlashServiceProgramsAndErases5_s : State := { up with sec := { st := 0, flash := some (1, 0x800000, []) } }
theorem witness_FlashServiceProgramsAndErases_5 :
    ∃ (a : Nat) (pg : List Byte) (s : State),
      s.pwr.st ≠ 5 ∧
      s.sec.flash = some (1, a, pg) ∧
      0x800000 ≤ a :=
  ⟨0x800000, [], FlashServiceProgramsAndErases5_s, by decide +kernel⟩

def FlashServiceProgramsAndErases6_s : State := { up with sec := { st := 0, flash := some (2, 0x800000, leBytes 256 7) } }
theorem witness_FlashServiceProgramsAndErases_6 :
    ∃ (a : Nat) (pg : List Byte) (s : State),
      s.pwr.st ≠ 5 ∧
      s.sec.flash = some (2, a, pg) :=
  ⟨0x800000, leBytes 256 7, FlashServiceProgramsAndErases6_s, by decide +kernel⟩

def DebugAccess1_s : State := { up with sec := { st := 2, sessPath := 3, sessLevel := 2 } }
theorem witness_DebugAccess_1 :
    ∃ (path : Nat) (v : Nat) (s : State),
      1 ≤ path ∧
      path ≤ 3 ∧
      s.pwr.st ≠ 5 ∧
      s.rel.upd ≠ 3 ∧
      pathBusy s path = false ∧
      accessReason s path Reg.DBG_REQ true = 0 ∧
      (v % 4 = 1 ∨ v % 4 = 2) ∧
      dbgRefusal s path (v % 4) = 0 :=
  ⟨3, 2, DebugAccess1_s, by decide +kernel⟩

theorem witness_DebugAccess_2 :
    ∃ (path : Nat) (v : Nat) (s : State),
      1 ≤ path ∧
      path ≤ 3 ∧
      s.pwr.st ≠ 5 ∧
      s.rel.upd ≠ 3 ∧
      pathBusy s path = false ∧
      accessReason s path Reg.DBG_REQ true = 0 ∧
      v % 4 ≠ 3 ∧
      dbgRefusal s path (v % 4) ≠ 0 :=
  ⟨3, 2, up, by decide +kernel⟩

def DebugAccess3_s : State := ({ busy0 with sec := { st := 2, sessPath := 3, sessLevel := 2 }, dbg := { level := 2, path := 3 } }).modPane 0 (fun p => { p with ctx := 1 })
theorem witness_DebugAccess_3 :
    ∃ (c : Instr) (path : Nat) (v : Nat) (act : Nat) (i : Nat) (s : State),
      1 ≤ path ∧
      path ≤ 3 ∧
      s.pwr.st ≠ 5 ∧
      s.rel.upd ≠ 3 ∧
      pathBusy s path = false ∧
      (c = .halt path v ∧ act = 1 ∨ c = .resume path v ∧ act = 2 ∨ c = .step path v ∧ act = 3) ∧
      accessReason s path Reg.DBG_HALT true = 0 ∧
      mayHalt s path = true ∧
      s.instOf (v % 128) = some i ∧
      (s.pane i).task.isSome = true ∧
      (s.pane i).ctx ≠ 0 :=
  ⟨.halt 3 0, 3, 0, 1, 0, DebugAccess3_s, by decide +kernel⟩

def DebugAccess4_s : State := fetched ({ up with sec := { st := 2, sessPath := 3, sessLevel := 2 }, dbg := { level := 2, path := 3 } }) (dbgWho) true (maddr ({ up with sec := { st := 2, sessPath := 3, sessLevel := 2 }, dbg := { level := 2, path := 3 } })) 64
def DebugAccess4_s1 : State := (runMc (sysRead dbgWho (maddr (DebugAccess4_s)) 4) (({ (DebugAccess4_s) with accs := (DebugAccess4_s).accs.filter (fun a => !(a.purpose == .fetch dbgWho && a.va / 64 != localPa (maddr (DebugAccess4_s)) / 64)) } : State))).2
def DebugAccess4_bs : List Byte := okv ([]) (runMc (sysRead dbgWho (maddr (DebugAccess4_s)) 4) (({ (DebugAccess4_s) with accs := (DebugAccess4_s).accs.filter (fun a => !(a.purpose == .fetch dbgWho && a.va / 64 != localPa (maddr (DebugAccess4_s)) / 64)) } : State))).1
theorem witness_DebugAccess_4 :
    ∃ (path : Nat) (bs : List Byte) (s : State) (s1 : State),
      (1 ≤ path ∧
      path ≤ 3 ∧
      s.pwr.st ≠ 5 ∧
      s.rel.upd ≠ 3 ∧
      pathBusy s path = false ∧
      accessReason s path Reg.DBG_MDATA false = 0 ∧
      holdsLevel s path 2 = true) ∧
      let s0 : State := { s with accs := s.accs.filter (fun a => !(a.purpose == .fetch dbgWho && a.va / 64 != localPa (maddr s) / 64)) }
      runMc (sysRead dbgWho (maddr s) 4) s0 = (.ok bs, s1) :=
  ⟨3, DebugAccess4_bs, DebugAccess4_s, DebugAccess4_s1, by decide +kernel, okPair _ (by decide +kernel)⟩

def DebugAccess5_s : State := { up with sec := { st := 2, sessPath := 3, sessLevel := 2 }, dbg := { level := 2, path := 3 } }
theorem witness_DebugAccess_5 :
    ∃ (path : Nat) (v : Nat) (s : State),
      (1 ≤ path ∧
      path ≤ 3 ∧
      s.pwr.st ≠ 5 ∧
      s.rel.upd ≠ 3 ∧
      pathBusy s path = false ∧
      v < 2 ^ 32 ∧
      accessReason s path Reg.DBG_MDATA true = 0 ∧
      holdsLevel s path 2 = true) ∧
      let s1 := sysPost s dbgWho (maddr s) (leBytes 4 v)
      let s2 := maddrNext (if outOfMap s (localPa (maddr s)) then s1 else logE s1 0x14 8 0 (maddr s) 0 v)
      s2.mgmt.held.length ≤ s.mgmt.held.length :=
  ⟨3, 7, DebugAccess5_s, by decide +kernel, by decide +kernel⟩

def DebugAccess6_s : State := { up with sec := { st := 2, sessPath := 3, sessLevel := 2 }, dbg := { level := 2, path := 3 } }
theorem witness_DebugAccess_6 :
    ∃ (path : Nat) (v : Nat) (s : State),
      1 ≤ path ∧
      path ≤ 3 ∧
      s.pwr.st ≠ 5 ∧
      s.rel.upd ≠ 3 ∧
      pathBusy s path = false ∧
      v < 2 ^ 32 ∧
      accessReason s path Reg.DBG_FDATA true = 0 ∧
      (force s path v).mgmt.held.length ≤ s.mgmt.held.length :=
  ⟨3, 7, DebugAccess6_s, by decide +kernel⟩

def DebugAccess7_s : State := { up with sec := { st := 2, sessPath := 3, sessLevel := 2 }, dbg := { level := 2, path := 3 } }
theorem witness_DebugAccess_7 :
    ∃ (path : Nat) (s : State),
      1 ≤ path ∧
      path ≤ 3 ∧
      s.pwr.st ≠ 5 ∧
      s.rel.upd ≠ 3 ∧
      pathBusy s path = false ∧
      accessReason s path Reg.DBG_TRCDATA false = 0 :=
  ⟨3, DebugAccess7_s, by decide +kernel⟩

def DebugAccess8_s : State := { { up with sec := { st := 2, sessPath := 3, sessLevel := 2 }, dbg := { level := 2, path := 3 } } with pwr := { st := 4 } }
theorem witness_DebugAccess_8 :
    ∃ (drive : Nat) (s : State),
      s.pwr.st = 4 ∧
      holdsLevel s 3 2 = true ∧
      s.sec.st ≠ 1 :=
  ⟨5, DebugAccess8_s, by decide +kernel⟩

def PowerTransitions1_s : State := { up with pwr := { st := 0, target := 1, moving := true } }
theorem witness_PowerTransitions_1 :
    ∃ (v : Nat) (s : State),
      regOpen s Reg.PWR_REQ = true ∧
      s.pwr.moving = true :=
  ⟨1, PowerTransitions1_s, by decide +kernel⟩

theorem witness_PowerTransitions_2 :
    ∃ (v : Nat) (s : State),
      regOpen s Reg.PWR_REQ = true ∧
      s.pwr.moving = false ∧
      5 < v % 8 :=
  ⟨6, up, by decide +kernel⟩

theorem witness_PowerTransitions_3 :
    ∃ (v : Nat) (s : State),
      regOpen s Reg.PWR_REQ = true ∧
      s.pwr.moving = false ∧
      v % 8 ≤ 5 ∧
      s.sec.st ≠ 0 ∧
      (¬(s.pwr.st = 4 ∧ (v % 8 = 2 ∨ v % 8 = 3))) ∧
      v % 8 ≠ s.pwr.st :=
  ⟨2, up, by decide +kernel⟩

def PowerTransitions4_s : State := { up with pwr := { st := 0, target := 1, moving := true } }
theorem witness_PowerTransitions_4 :
    ∃ (s : State),
      s.pwr.st = 0 ∧
      s.pwr.moving = true ∧
      s.pwr.target = 1 ∧
      s.pwr.heldReq = none :=
  ⟨PowerTransitions4_s, by decide +kernel⟩

def PowerTransitions5_s : State := { up with pwr := { st := 0, target := 5, moving := true } }
theorem witness_PowerTransitions_5 :
    ∃ (s : State),
      s.pwr.st ≠ 5 ∧
      s.pwr.moving = true ∧
      s.pwr.target = 5 :=
  ⟨PowerTransitions5_s, by decide +kernel⟩

theorem witness_PowerTransitions_6 :
    ∃ (b : Nat) (temp : Nat) (s : State),
      b < 16 ∧
      s.pwr.st ≠ 5 ∧
      s.baysOn = true ∧
      110 ≤ temp :=
  ⟨15, 110, up, by decide +kernel⟩

def PowerTransitions7_s : State := up.modBay 15 (fun x => { x with clkJct := 7 })
theorem witness_PowerTransitions_7 :
    ∃ (b : Nat) (temp : Nat) (s : State),
      b < 16 ∧
      s.pwr.st ≠ 5 ∧
      s.baysOn = true ∧
      temp < 97 ∧
      (s.bay b).clkJct = 7 ∧
      (s.bay b).jctHot = false :=
  ⟨15, 96, PowerTransitions7_s, by decide +kernel⟩

def SelfTestsAndVerdicts1_r : Recovery := { target := .spBank 0 3, addr := 0, joined := 0, phase := 0, seq := 1, why := 0, start := 0 }
def SelfTestsAndVerdicts1_s : State := (up).setDom (256) { cur := some { target := .spBank 0 3, addr := 0, joined := 0, phase := 0, seq := 1, why := 0, start := 0 } }
theorem witness_SelfTestsAndVerdicts_1 :
    ∃ (k : Nat) (i : Nat) (bank : Nat) (r : Recovery) (s : State),
      okDom k = true ∧
      s.pwr.st ≠ 5 ∧
      (s.dom k).cur = some r ∧
      r.phase = 0 ∧
      (s.dom k).resetting = false ∧
      r.target = .spBank i bank :=
  ⟨256, 0, 3, SelfTestsAndVerdicts1_r, SelfTestsAndVerdicts1_s, by decide +kernel⟩

def SelfTestsAndVerdicts2_r : Recovery := { target := .optLane 0 3, addr := 0, joined := 0, phase := 0, seq := 1, why := 0, start := 0 }
def SelfTestsAndVerdicts2_s : State := (up).setDom (1280) { cur := some { target := .optLane 0 3, addr := 0, joined := 0, phase := 0, seq := 1, why := 0, start := 0 } } |>.modPort 0 (fun x => { x with st := 8, lanes := List.range 16 })
theorem witness_SelfTestsAndVerdicts_2 :
    ∃ (k : Nat) (p : Nat) (lane : Nat) (r : Recovery) (s : State),
      okDom k = true ∧
      s.pwr.st ≠ 5 ∧
      (s.dom k).cur = some r ∧
      r.phase = 0 ∧
      (s.dom k).resetting = false ∧
      r.target = .optLane p lane ∧
      (s.port p).lanes.contains lane = true :=
  ⟨1280, 0, 3, SelfTestsAndVerdicts2_r, SelfTestsAndVerdicts2_s, by decide +kernel⟩

def SelfTestsAndVerdicts3_r : Recovery := { target := .optLane 0 3, addr := 0, joined := 0, phase := 1, seq := 1, why := 0, start := 0 }
def SelfTestsAndVerdicts3_s : State := (up).setDom (1280) { cur := some { target := .optLane 0 3, addr := 0, joined := 0, phase := 1, seq := 1, why := 0, start := 0 } } |>.modPort 0 (fun x => { x with st := 8, spares := [3] })
theorem witness_SelfTestsAndVerdicts_3 :
    ∃ (k : Nat) (p : Nat) (lane : Nat) (rep : Bool) (r : Recovery) (s : State),
      okDom k = true ∧
      s.pwr.st ≠ 5 ∧
      (s.dom k).cur = some r ∧
      r.phase = 1 ∧
      r.target = .optLane p lane :=
  ⟨1280, 0, 3, false, SelfTestsAndVerdicts3_r, SelfTestsAndVerdicts3_s, by decide +kernel⟩

def SelfTestsAndVerdicts4_r : Recovery := { target := .wire 0 1, addr := 0, joined := 0, phase := 1, seq := 1, why := 0, start := 0 }
def SelfTestsAndVerdicts4_s : State := (up).setDom (1024) { cur := some { target := .wire 0 1, addr := 0, joined := 0, phase := 1, seq := 1, why := 0, start := 0 } }
theorem witness_SelfTestsAndVerdicts_4 :
    ∃ (k : Nat) (l : Nat) (g : Nat) (rep : Bool) (r : Recovery) (s : State),
      okDom k = true ∧
      s.pwr.st ≠ 5 ∧
      (s.dom k).cur = some r ∧
      r.phase = 1 ∧
      r.target = .wire l g :=
  ⟨1024, 0, 1, true, SelfTestsAndVerdicts4_r, SelfTestsAndVerdicts4_s, by decide +kernel⟩

def SelfTestsAndVerdicts5_s : State := up.setDom (3 * 256 + 15) { resetting := true }
theorem witness_SelfTestsAndVerdicts_5 :
    ∃ (b : Nat) (s : State),
      b < 16 ∧
      s.pwr.st ≠ 5 ∧
      (s.dom (3 * 256 + b)).resetting = true :=
  ⟨15, SelfTestsAndVerdicts5_s, by decide +kernel⟩

theorem witness_SelfTestsAndVerdicts_6 :
    ∃ (n : Nat) (i : Nat) (s : State),
      n < 128 ∧
      regOpen s Reg.CTL_PANESVC = true ∧
      s.instOf n = some i ∧
      (s.pane i).out = false :=
  ⟨127, 142, up, by decide +kernel⟩

def SelfTestsAndVerdicts7_r : Recovery := ((strike (up) (.pane (142)) (127) 4 false).dom (256 + (142))).cur.getD { target := .pane 0, addr := 0, joined := 0, phase := 0, seq := 1, why := 0, start := 0 }
theorem witness_SelfTestsAndVerdicts_7 :
    ∃ (n : Nat) (i : Nat) (r : Recovery) (s : State),
      (n < 128 ∧
      regOpen s Reg.CTL_PANESVC = true ∧
      s.instOf n = some i ∧
      (s.pane i).out = false) ∧
      let s1 := strike s (.pane i) n 4 false
      (s1.dom (256 + i)).cur = some r ∧
      r.target = .pane i ∧
      r.why = 4 ∧
      r.phase = 0 :=
  ⟨127, 142, SelfTestsAndVerdicts7_r, up, by decide +kernel, by decide +kernel⟩

theorem witness_FirmwareUpdates_1 :
    ∃ (s : State),
      regOpen s Reg.CTL_UPDCMD = true ∧
      s.rel.upd = 0 ∧
      s.sec.st ≠ 0 :=
  ⟨up, by decide +kernel⟩

def FirmwareUpdates2_s : State := { up with rel := { upd := 1 } }
theorem witness_FirmwareUpdates_2 :
    ∃ (s : State),
      regOpen s Reg.CTL_UPDCMD = true ∧
      s.rel.upd ≠ 0 :=
  ⟨FirmwareUpdates2_s, by decide +kernel⟩

def FirmwareUpdates3_s : State := { up with sec := { st := 0 } }
theorem witness_FirmwareUpdates_3 :
    ∃ (s : State),
      regOpen s Reg.CTL_UPDCMD = true ∧
      s.rel.upd = 0 ∧
      s.sec.st = 0 :=
  ⟨FirmwareUpdates3_s, by decide +kernel⟩

def FirmwareUpdates4_s : State := { up with rel := { upd := 1 } }
theorem witness_FirmwareUpdates_4 :
    ∃ (s : State),
      regOpen s Reg.CTL_UPDCMD = true ∧
      s.rel.upd = 1 :=
  ⟨FirmwareUpdates4_s, by decide +kernel⟩

/-- A device whose update is verified: every line of the image has come. -/
def imgLine (l : Nat) : Access := { acc1 with purpose := .fetch (.ctl .update), sys := true, va := l, stage := .got, data := imgRead 0 l 64 }

def updating : State := { State.reset with
  accs := (List.range 86016).map (fun k => imgLine (k * 64))
  pwr := { st := 0 }
  rel := { upd := 1 } }

theorem updating_came (k : Nat) (h : k < 86016) :
    updating.came { w := .ctl .update, ctx := 0, va := k * 64, sys := true } = some (imgLine (k * 64)) := by
  have hf : (List.range 86016).find? (fun j => decide (j = k)) = some k := by
    rw [List.find?_range_eq_some]
    exact ⟨by simp, by simpa using h, fun j hj => by simp; omega⟩
  have he : (fun a : Access => a.stage == .got && Need.answeredBy { w := .ctl .update, ctx := 0, va := k * 64, sys := true } a) ∘
      (fun j => imgLine (j * 64)) = fun j => decide (j = k) := by
    funext j
    have : decide (j * 64 = k * 64) = decide (j = k) := decide_eq_decide.mpr (by omega)
    simp [Need.answeredBy, Need.purpose, imgLine, acc1, ← this, beq_eq_decide]
  unfold State.came updating
  rw [List.find?_map, he, hf, Option.map_some]

theorem imgRead_lines : ∀ m, ((List.range m).map (fun k => imgLine (k * 64))).flatMap (·.data) = imgRead 0 0 (64 * m)
  | 0 => rfl
  | m + 1 => by
    have h : imgRead 0 0 (64 * (m + 1)) = imgRead 0 0 (64 * m) ++ imgRead 0 (m * 64) 64 := by
      simp [imgRead, Nat.mul_add, List.range_add, Nat.mul_comm m]
    rw [List.range_succ, List.map_append, List.flatMap_append, imgRead_lines m, h]
    simp [imgLine]

theorem image_reads (s : State) (hu : ∀ k, k < 86016 → s.came { w := .ctl .update, ctx := 0, va := k * 64, sys := true } = some (imgLine (k * 64)))
    (n : Nat) (h0 : 0 < n) (h : n ≤ 0x540000) : runMc (sysRead (.ctl .update) 0 n) s = (.ok (imgRead 0 0 n), s) := by
  obtain ⟨m, hm⟩ : ∃ m, m = (0 + n - 1) / 64 - 0 / 64 + 1 := ⟨_, rfl⟩
  have hl : linesIn 0 n = (List.range m).map (fun k => k * 64) := by
    simp [linesIn, Nat.ne_of_gt h0, hm]
  have hc : ∀ k ∈ List.range m, s.came { w := .ctl .update, ctx := 0, va := k * 64, sys := true } = some (imgLine (k * 64)) :=
    fun k hk => hu k (by have := List.mem_range.mp hk; omega)
  have hn : (((linesIn 0 n).map (fun l => ({ w := .ctl .update, ctx := 0, va := l, sys := true } : Need))).filter
      (fun x => (s.came x).isNone)) = [] := by
    rw [hl, List.map_map, List.filter_eq_nil_iff]
    intro x hx
    obtain ⟨k, hk, rfl⟩ := List.mem_map.mp hx
    simp [hc k hk]
  have ha : ((linesIn 0 n).map (fun l => ({ w := .ctl .update, ctx := 0, va := l, sys := true } : Need))).filterMap s.came =
      (List.range m).map (fun k => imgLine (k * 64)) := by
    rw [hl, List.map_map, List.filterMap_map, ← List.filterMap_eq_map]
    refine List.filterMap_congr (fun k hk => ?_)
    simp only [Function.comp]
    rw [hc k hk]
  have hs : ((List.range m).map (fun k => imgLine (k * 64))).findSome? (fun x => x.stop false) = none := by
    rw [List.findSome?_eq_none_iff]
    intro x hx
    obtain ⟨k, _, rfl⟩ := List.mem_map.mp hx
    rfl
  have ht : (imgRead 0 0 (64 * m)).take n = imgRead 0 0 n := by
    have : min n (64 * m) = n := by omega
    simp [imgRead, ← List.map_take, List.take_range, this]
  have hp : localPa 0 = 0 := rfl
  unfold sysRead readLines
  rw [hp, runMc_bind_ok (runMc_get s)]
  dsimp only
  rw [hn]
  dsimp only
  rw [ha, hs]
  dsimp only
  rw [imgRead_lines, Nat.zero_mod, List.drop_zero, ht]
  exact runMc_pure _ _

theorem witness_FirmwareUpdates_5 (h : Signed imgClip) : ∃ (img : List Byte) (s s1 : State), (s.pwr.st ≠ 5 ∧ s.rel.upd = 1) ∧
    runMc (readImage (updAddr s)) s = (.ok img, s1) ∧
    let s2 := dropNeeds s1 (.ctl .update)
    imgVerdict (fun o n => (img.drop o).take n) (floorOf s2) = 0 := by
  have hi : runMc (readImage 0) updating = (.ok (imgRead 0 0 0x540000), updating) := by
    have hf : field (imgRead 0 0 32) 16 4 = 0x540000 := by decide +kernel
    unfold readImage
    rw [runMc_bind_ok (image_reads updating updating_came 32 (by omega) (by omega))]
    simp only [hf]
    exact image_reads updating updating_came 0x540000 (by omega) (by omega)
  refine ⟨imgRead 0 0 0x540000, updating, updating, ⟨by decide, rfl⟩, hi, ?_⟩
  have hr : (fun o n => ((imgRead 0 0 0x540000).drop o).take n) = imgClip := by
    funext o n
    apply List.ext_getElem
    · simp [imgRead, imgClip]
    · intro k h1 h2
      simp [imgRead, imgClip]
  show imgVerdict (fun o n => ((imgRead 0 0 0x540000).drop o).take n) 0 = 0
  rw [hr]
  exact imgVerdict_accepts _ (.inr rfl) h

def FirmwareUpdates6_s : State := fetched ({ up with rel := { upd := 1 } }) (.ctl .update) true (updAddr up) 64
def FirmwareUpdates6_s1 : State := (runMc (readImage (updAddr (FirmwareUpdates6_s))) (FirmwareUpdates6_s)).2
def FirmwareUpdates6_img : List Byte := okv ([]) (runMc (readImage (updAddr (FirmwareUpdates6_s))) (FirmwareUpdates6_s)).1
theorem witness_FirmwareUpdates_6 :
    ∃ (img : List Byte) (s : State) (s1 : State),
      (s.pwr.st ≠ 5 ∧
      s.rel.upd = 1) ∧
      runMc (readImage (updAddr s)) s = (.ok img, s1) ∧
      let s2 := dropNeeds s1 (.ctl .update)
      let v := imgVerdict (fun o n => (img.drop o).take n) (floorOf s2)
      v ≠ 0 :=
  ⟨FirmwareUpdates6_img, FirmwareUpdates6_s, FirmwareUpdates6_s1, by decide +kernel, okPair _ (by decide +kernel), by decide +kernel⟩

def FirmwareUpdates7_s : State := { up with rel := { upd := 2 } }
theorem witness_FirmwareUpdates_7 :
    ∃ (s : State),
      s.pwr.st ≠ 5 ∧
      s.rel.upd = 2 :=
  ⟨FirmwareUpdates7_s, by decide +kernel⟩

def FirmwareUpdates8_s : State := { up with rel := { upd := 3 } }
theorem witness_FirmwareUpdates_8 :
    ∃ (s : State),
      s.pwr.st ≠ 5 ∧
      s.rel.upd = 3 ∧
      s.mgmt.commits = [] :=
  ⟨FirmwareUpdates8_s, by decide +kernel⟩

def FirmwareUpdates9_s : State := { up with rel := { upd := 4, updPort := 33, updBegun := true } }
theorem witness_FirmwareUpdates_9 :
    ∃ (s : State),
      s.pwr.st ≠ 5 ∧
      s.rel.upd = 4 ∧
      s.rel.updBegun = true ∧
      s.rel.updPort = 33 :=
  ⟨FirmwareUpdates9_s, by decide +kernel⟩

def FirmwareUpdates10_s : State := { up with rel := { upd := 4, updPort := 30, updBegun := true } }
theorem witness_FirmwareUpdates_10 :
    ∃ (s : State),
      s.pwr.st ≠ 5 ∧
      s.rel.upd = 4 ∧
      s.rel.updBegun = true ∧
      s.rel.updPort < 31 :=
  ⟨FirmwareUpdates10_s, by decide +kernel⟩

def ManagementAccesses1_a : Nat := Reg.CTL_TIME_LO
def ManagementAccesses1_v : Nat := (readEffect (up) 1 (resolve (up) (ManagementAccesses1_a))).1.getD 0
def ManagementAccesses1_s1 : State := (readEffect (up) 1 (resolve (up) (ManagementAccesses1_a))).2
theorem witness_ManagementAccesses_1 :
    ∃ (a : Nat) (v : Nat) (s : State) (s1 : State),
      a < 2 ^ 32 ∧
      s.pwr.st ≠ 5 ∧
      s.rel.upd ≠ 3 ∧
      pathBusy s 1 = false ∧
      accessReason s 1 a false = 0 ∧
      readEffect s 1 (resolve s a) = (some v, s1) :=
  ⟨ManagementAccesses1_a, ManagementAccesses1_v, up, ManagementAccesses1_s1, by decide +kernel⟩

theorem witness_ManagementAccesses_2 :
    ∃ (a : Nat) (s : State),
      a < 2 ^ 32 ∧
      s.pwr.st ≠ 5 ∧
      s.rel.upd ≠ 3 ∧
      pathBusy s 1 = false ∧
      accessReason s 1 a false ≠ 0 :=
  ⟨2, up, by decide +kernel⟩

def ManagementAccesses3_c : Instr := .registerWrite 3 Reg.PWR_P1CLK 5
theorem witness_ManagementAccesses_3 :
    ∃ (c : Instr) (path : Nat) (a : Nat) (v : Nat) (s : State),
      (c = .smbusWrite a v ∧ path = 1 ∨ c = .dbgacc a v true ∧ path = 3 ∨ c = .registerWrite path a v ∧ 1 ≤ path ∧ path ≤ 3) ∧
      a < 2 ^ 32 ∧
      v < 2 ^ 32 ∧
      s.pwr.st ≠ 5 ∧
      s.rel.upd ≠ 3 ∧
      pathBusy s path = false ∧
      accessReason s path a true = 0 ∧
      resolve s a ≠ Reg.DBG_FDATA ∧
      (writeEffect s path (resolve s a) v).mgmt.held.length ≤ s.mgmt.held.length :=
  ⟨ManagementAccesses3_c, 3, Reg.PWR_P1CLK, 5, up, by decide +kernel⟩

def ManagementAccesses4_a : Nat := Reg.CTL_TIME_LO
def ManagementAccesses4_x : Nat := (readEffect (up) 3 (resolve (up) (ManagementAccesses4_a))).1.getD 0
def ManagementAccesses4_s1 : State := (readEffect (up) 3 (resolve (up) (ManagementAccesses4_a))).2
theorem witness_ManagementAccesses_4 :
    ∃ (a : Nat) (v : Nat) (x : Nat) (s : State) (s1 : State),
      a < 2 ^ 32 ∧
      v < 2 ^ 32 ∧
      s.pwr.st ≠ 5 ∧
      s.rel.upd ≠ 3 ∧
      pathBusy s 3 = false ∧
      accessReason s 3 a false = 0 ∧
      readEffect s 3 (resolve s a) = (some x, s1) :=
  ⟨ManagementAccesses4_a, 0, ManagementAccesses4_x, up, ManagementAccesses4_s1, by decide +kernel⟩

theorem witness_ManagementAccesses_5 :
    ∃ (path : Nat) (s : State),
      1 ≤ path ∧
      path ≤ 3 ∧
      s.pwr.st ≠ 5 ∧
      s.rel.upd ≠ 3 ∧
      pathBusy s path = false ∧
      accessReason s path Reg.CTL_TIME_LO false = 0 :=
  ⟨1, up, by decide +kernel⟩

def ManagementAccesses6_s : State := { up with mgmt := { held := [{ addr := Reg.PWR_P1CLK, value := 5, path := 1 }] } }
theorem witness_ManagementAccesses_6 :
    ∃ (a : Nat) (s : State),
      a < 2 ^ 32 ∧
      s.pwr.st ≠ 5 ∧
      s.mgmt.waiting = [] ∧
      s.mgmt.held.any (fun h => h.path == 1 && h.addr == a) = true :=
  ⟨Reg.PWR_P1CLK, ManagementAccesses6_s, by decide +kernel⟩

theorem witness_ManagementAccesses_7 :
    ∃ (s : State),
      s.pwr.st ≠ 5 ∧
      logOpen s = true :=
  ⟨up, by decide +kernel⟩

def ManagementAccesses8_a : Nat := Reg.CTL_TIME_LO
def ManagementAccesses8_s : State := { up with fin := [(0, (mkMsg 0x2A 3 0 0 0 0 0 3 0x7F 8 0 (leBytes 4 Reg.CTL_TIME_LO)))] }
def ManagementAccesses8_s1 : State := ((takeHost (ManagementAccesses8_s) 0 0x2A).getD ([], State.reset)).2
def ManagementAccesses8_s2 : State := (readEffect (ManagementAccesses8_s1) 2 (resolve (ManagementAccesses8_s1) (ManagementAccesses8_a))).2
def ManagementAccesses8_v : Nat := (readEffect (ManagementAccesses8_s1) 2 (resolve (ManagementAccesses8_s1) (ManagementAccesses8_a))).1.getD 0
def ManagementAccesses8_m : List Byte := ((takeHost (ManagementAccesses8_s) 0 0x2A).getD ([], State.reset)).1
theorem witness_ManagementAccesses_8 :
    ∃ (f : Nat) (a : Nat) (v : Nat) (m : List Byte) (s : State) (s1 : State) (s2 : State),
      f < 2 ∧
      s.pwr.st ≠ 5 ∧
      s.rel.upd ≠ 3 ∧
      pathBusy s 2 = false ∧
      hostWritesDone s f = true ∧
      takeHost s f 0x2A = some (m, s1) ∧
      a = field (mBody m) 0 4 ∧
      accessReason s1 2 a false = 0 ∧
      readEffect s1 2 (resolve s1 a) = (some v, s2) :=
  ⟨0, ManagementAccesses8_a, ManagementAccesses8_v, ManagementAccesses8_m, ManagementAccesses8_s, ManagementAccesses8_s1, ManagementAccesses8_s2, by decide +kernel⟩

def ManagementAccesses9_s : State := { up with fin := [(0, (mkMsg 0x2B 3 0 0 0 0 0 3 0x7F 8 0 (leBytes 4 Reg.PWR_P1CLK ++ leBytes 4 5)))] }
def ManagementAccesses9_s1 : State := ((takeHost (ManagementAccesses9_s) 0 0x2B).getD ([], State.reset)).2
def ManagementAccesses9_m : List Byte := ((takeHost (ManagementAccesses9_s) 0 0x2B).getD ([], State.reset)).1
theorem witness_ManagementAccesses_9 :
    ∃ (f : Nat) (a : Nat) (v : Nat) (m : List Byte) (s : State) (s1 : State),
      (f < 2 ∧
      s.pwr.st ≠ 5 ∧
      s.rel.upd ≠ 3 ∧
      pathBusy s 2 = false ∧
      hostWritesDone s f = true ∧
      takeHost s f 0x2B = some (m, s1) ∧
      a = field (mBody m) 0 4 ∧
      v = field (mBody m) 4 4 ∧
      accessReason s1 2 a true = 0 ∧
      resolve s1 a ≠ Reg.DBG_FDATA) ∧
      let t := writeEffect s1 2 (resolve s1 a) v
      t.mgmt.held.length ≤ s1.mgmt.held.length ∧
      t.boot.ready = true :=
  ⟨0, Reg.PWR_P1CLK, 5, ManagementAccesses9_m, ManagementAccesses9_s, ManagementAccesses9_s1, by decide +kernel, by decide +kernel⟩

theorem witness_ManagementAccesses_10 :
    ∃ (vec : Nat) (v : Nat) (s : State),
      vec ≤ 50 ∧
      regOpen s (Reg.FLX_MSICTL vec) = true :=
  ⟨50, 1, up, by decide +kernel⟩

def ManagementAccesses11_s : State := up.setReg (Reg.FLX_MSICTL 50) 1
theorem witness_ManagementAccesses_11 :
    ∃ (v : Nat) (s : State),
      regOpen s Reg.CTL_IRQTEST = true ∧
      v % 64 ≤ 50 ∧
      s.regN (Reg.FLX_MSICTL (v % 64)) % 2 = 1 :=
  ⟨50, ManagementAccesses11_s, by decide +kernel⟩

theorem witness_ManagementAccesses_12 :
    ∃ (v : Nat) (s : State),
      regOpen s Reg.CTL_IRQTEST = true ∧
      50 < v % 64 :=
  ⟨51, up, by decide +kernel⟩

theorem witness_PackageEvents_1 :
    ∃ (v : Nat) (s : State),
      regOpen s Reg.SUP_EVENTS = true :=
  ⟨3, up, by decide +kernel⟩

theorem witness_PackageEvents_2 :
    ∃ (s : State),
      s.sup.ref0Lost = false ∧
      s.sup.ref1Lost = false ∧
      s.sup.refUsed = 0 :=
  ⟨up, by decide +kernel⟩

theorem witness_PackageEvents_3 :
    ∃ (s : State),
      s.sup.ref0Lost = false :=
  ⟨up, by decide +kernel⟩

theorem witness_PackageEvents_5 :
    ∃ (s : State),
      s.sup.vauxOk = true :=
  ⟨up, by decide +kernel⟩

theorem witness_PackageEvents_7 :
    ∃ (s : State),
      s.sup.vinOk = true :=
  ⟨up, by decide +kernel⟩

def PackageEvents9_rep : Sensors := { lasers := [], lintels := [], rails := [], ctl := 110, sup := 40 }
theorem witness_PackageEvents_9 :
    ∃ (rep : Sensors) (s : State),
      s.pwr.st ≠ 5 ∧
      110 ≤ rep.ctl :=
  ⟨PackageEvents9_rep, up, by decide +kernel⟩

def PackageEvents10_rep : Sensors := { lasers := [], lintels := [], rails := [], ctl := 109, sup := 40 }
def PackageEvents10_s : State := { up with boot := {} }
theorem witness_PackageEvents_10 :
    ∃ (rep : Sensors) (s : State),
      s.pwr.st ≠ 5 ∧
      s.rimOn = false ∧
      rep.lasers = [] ∧
      rep.lintels = [] ∧
      rep.rails = [] ∧
      rep.ctl < 110 ∧
      rep.sup < 110 :=
  ⟨PackageEvents10_rep, PackageEvents10_s, by decide +kernel⟩

def SettleAtRestChangesNothing1_s : State := up.modPane 0 (fun p => { p with mode := 0 })
theorem witness_SettleAtRestChangesNothing_1 :
    ∃ (s : State),
      (∀ e ∈ s.rel.doms, e.2.due = 0) ∧
      (∀ e ∈ s.panes, (s.pane e.1).seq.streams.all (fun x => !openStream x.2) = true) ∧
      (∀ e ∈ s.panes, (s.pane e.1).sw = none) ∧
      (∀ b, b < 16 → (s.bay b).tfHeld = [] ∧ (s.bay b).mem.held = [] ∧ (s.bay b).dbWait = []) ∧
      s.gx.noticeHeld = [] ∧
      s.accs = [] ∧
      s.tasks = [] :=
  ⟨SettleAtRestChangesNothing1_s, by decide +kernel⟩

def AddressMapIsOneToOne1_st : Nat := ((mapAddr (up) (0x1000)).getD (0, 0, 0)).1
def AddressMapIsOneToOne1_ch : Nat := ((mapAddr (up) (0x1000)).getD (0, 0, 0)).2.1
def AddressMapIsOneToOne1_off : Nat := ((mapAddr (up) (0x1000)).getD (0, 0, 0)).2.2
theorem witness_AddressMapIsOneToOne_1 :
    ∃ (s : State) (pa : Nat) (st : Nat) (ch : Nat) (off : Nat),
      MapLegal s ∧
      mapAddr s pa = some (st, ch, off) :=
  ⟨up, 0x1000, AddressMapIsOneToOne1_st, AddressMapIsOneToOne1_ch, AddressMapIsOneToOne1_off, by unfold MapLegal; decide +kernel, by decide +kernel⟩

def AddressMapIsOneToOne2_p : Nat × Nat × Nat := (mapAddr (up) (0x1000)).getD (0, 0, 0)
theorem witness_AddressMapIsOneToOne_2 :
    ∃ (s : State) (x : Nat) (y : Nat) (p : Nat × Nat × Nat),
      MapLegal s ∧
      mapAddr s x = some p ∧
      mapAddr s y = some p :=
  ⟨up, 0x1000, 0x1000, AddressMapIsOneToOne2_p, by unfold MapLegal; decide +kernel, by decide +kernel⟩

theorem witness_PassesDoNotChangeTheTree_1 :
    ∃ (int : Bool) (leaf : Nat → Nat × Bool) (fuel : Nat) (n : Nat) (g : Nat) (h : Nat),
      1 ≤ n ∧
      g ≤ h :=
  ⟨false, fun k => (k, false), 9, 9, 3, 9, by decide +kernel⟩

theorem witness_PassesDoNotChangeTheTree_2 :
    ∃ (int : Bool) (xs : List Nat),
      1 ≤ xs.length ∧
      xs.length ≤ 2 ^ 24 :=
  ⟨false, [1, 2, 3], by decide +kernel⟩

def TripHoldsUntilPowerUp1_c : Instr := .pinReset 0 0 0
def TripHoldsUntilPowerUp1_s : State := { up with sup := { tripped := true }, pwr := { st := 5 } }
def TripHoldsUntilPowerUp1_t : State := { up with sup := { tripped := true }, pwr := { st := 5 } }
theorem witness_TripHoldsUntilPowerUp_1 :
    ∃ (c : Instr) (s : State) (t : State),
      (s.sup.tripped = true ∧
      s.pwr.st = 5) ∧
      (∀ chip smba rn, c ≠ .powerUp chip smba rn) ∧
      exec c s = .next t :=
  ⟨TripHoldsUntilPowerUp1_c, TripHoldsUntilPowerUp1_s, TripHoldsUntilPowerUp1_t, by decide +kernel, by intro _ _ _; exact nofun, rfl⟩

def StagedCopiesFollowCommits1_s : State := { up with staged := [(Reg.DSP_SLICE 0, 1), (Reg.DSP_BLOCKSW 0, 2)] }
theorem witness_StagedCopiesFollowCommits_1 :
    ∃ (v : Nat) (off : Nat) (chk : Nat) (s : State),
      regOpen s Reg.CTL_COMMIT = true ∧
      s.mgmt.commits.contains (v % 65536) = false ∧
      (tgtKnown (v % 65536) = false ∨
      commitCheck (s.setReg Reg.CTL_COMMITSEQ ((s.regN Reg.CTL_COMMITSEQ + 1) % 2 ^ 32)) (v % 65536) = some (off, chk)) :=
  ⟨5, 0x14, 6, StagedCopiesFollowCommits1_s, by decide +kernel⟩

def StagedCopiesFollowCommits2_a : Nat := Reg.DSP_SLICE 0
def StagedCopiesFollowCommits2_s : State := { up with mgmt := { commits := [5] } }
theorem witness_StagedCopiesFollowCommits_2 :
    ∃ (k : Nat) (a : Nat) (s : State),
      k < 65536 ∧
      s.pwr.st ≠ 5 ∧
      s.mgmt.commits.contains k = true ∧
      atBoundary s k = true ∧
      s.mgmt.held = [] ∧
      a ∈ tgtRegs k :=
  ⟨5, StagedCopiesFollowCommits2_a, StagedCopiesFollowCommits2_s, by decide +kernel⟩

def DoorbellBeyondTheRingDisablesTheQueue1_s : State := withBytes (withBytes up 0xC0 (leBytes 8 0x1000 ++ leBytes 4 0x140001 ++ leBytes 4 0)) 0x1000 (leBytes 8 1 ++ leBytes 8 0 ++ leBytes 4 16 ++ leBytes 4 0xFFFFFFFF)
theorem witness_DoorbellBeyondTheRingDisablesTheQueue_1 :
    ∃ (b : Nat) (v : Nat) (s : State),
      b < 16 ∧
      regOpen s (Reg.BAY_DOORBELL b) = true ∧
      freeEntries s b ≠ 0 :=
  ⟨0, 0x31005, DoorbellBeyondTheRingDisablesTheQueue1_s, by decide +kernel⟩

def DoorbellBeyondTheRingDisablesTheQueue2_s : State := fetched ((withBytes (withBytes up 0xC0 (leBytes 8 0x1000 ++ leBytes 4 0x140001 ++ leBytes 4 0)) 0x1000 (leBytes 8 1 ++ leBytes 8 0 ++ leBytes 4 16 ++ leBytes 4 0xFFFFFFFF)).modBay 0 (fun x => { x with dbWait := [0x30011] })) (.bay 0 .doorbell) true 0xC0 64
def DoorbellBeyondTheRingDisablesTheQueue2_s1 : State := (runMc (sysRead (.bay (0) .doorbell) (qdescAddr (DoorbellBeyondTheRingDisablesTheQueue2_s) (0) ((bits (0x30011) 23 16))) 64) (DoorbellBeyondTheRingDisablesTheQueue2_s)).2
def DoorbellBeyondTheRingDisablesTheQueue2_d : List Byte := okv ([]) (runMc (sysRead (.bay (0) .doorbell) (qdescAddr (DoorbellBeyondTheRingDisablesTheQueue2_s) (0) ((bits (0x30011) 23 16))) 64) (DoorbellBeyondTheRingDisablesTheQueue2_s)).1
theorem witness_DoorbellBeyondTheRingDisablesTheQueue_2 :
    ∃ (n : Nat) (b : Nat) (v : Nat) (vs : List Nat) (d : List Byte) (s : State) (s1 : State),
      (s.bay b).dbWait = v :: vs ∧
      let q := bits v 23 16
      runMc (sysRead (.bay b .doorbell) (qdescAddr s b q) 64) s = (.ok d, s1) ∧
      bit (field d 8 4) 20 = true ∧
      2 ^ bits (field d 8 4) 19 16 < (bits v 15 0 + 65536 - field d 12 2) % 65536 :=
  ⟨0, 0, 0x30011, [], DoorbellBeyondTheRingDisablesTheQueue2_d, DoorbellBeyondTheRingDisablesTheQueue2_s, DoorbellBeyondTheRingDisablesTheQueue2_s1, by decide +kernel, okPair _ (by decide +kernel), by decide +kernel⟩

def DoorbellBeyondTheRingDisablesTheQueue3_s : State := fetched ((withBytes (withBytes up 0xC0 (leBytes 8 0x1000 ++ leBytes 4 0x140001 ++ leBytes 4 0)) 0x1000 (leBytes 8 1 ++ leBytes 8 0 ++ leBytes 4 16 ++ leBytes 4 0xFFFFFFFF)).modBay 0 (fun x => { x with dbWait := [0x30005] })) (.bay 0 .doorbell) true 0xC0 64
def DoorbellBeyondTheRingDisablesTheQueue3_s1 : State := (runMc (sysRead (.bay (0) .doorbell) (qdescAddr (DoorbellBeyondTheRingDisablesTheQueue3_s) (0) ((bits (0x30005) 23 16))) 64) (DoorbellBeyondTheRingDisablesTheQueue3_s)).2
def DoorbellBeyondTheRingDisablesTheQueue3_d : List Byte := okv ([]) (runMc (sysRead (.bay (0) .doorbell) (qdescAddr (DoorbellBeyondTheRingDisablesTheQueue3_s) (0) ((bits (0x30005) 23 16))) 64) (DoorbellBeyondTheRingDisablesTheQueue3_s)).1
theorem witness_DoorbellBeyondTheRingDisablesTheQueue_3 :
    ∃ (n : Nat) (b : Nat) (v : Nat) (vs : List Nat) (d : List Byte) (s : State) (s1 : State),
      (s.bay b).dbWait = v :: vs ∧
      let q := bits v 23 16
      runMc (sysRead (.bay b .doorbell) (qdescAddr s b q) 64) s = (.ok d, s1) ∧
      bit (field d 8 4) 20 = true ∧
      (bits v 15 0 + 65536 - field d 12 2) % 65536 ≤ 2 ^ bits (field d 8 4) 19 16 :=
  ⟨0, 0, 0x30005, [], DoorbellBeyondTheRingDisablesTheQueue3_d, DoorbellBeyondTheRingDisablesTheQueue3_s, DoorbellBeyondTheRingDisablesTheQueue3_s1, by decide +kernel, okPair _ (by decide +kernel), by decide +kernel⟩

def DoorbellBeyondTheRingDisablesTheQueue4_s : State := fetched (({ withBytes up 0xC0 (leBytes 8 0x1000 ++ leBytes 4 0x040001 ++ leBytes 4 0) with nonce := 0 } : State).modBay 0 (fun x => { x with tails := [(3, some 5)] })) (.bay 0 .fetch) true 0xC0 64
def DoorbellBeyondTheRingDisablesTheQueue4_s1 : State := (runMc (sysRead (.bay (0) .fetch) (qdescAddr (DoorbellBeyondTheRingDisablesTheQueue4_s) (0) (3)) 64) (DoorbellBeyondTheRingDisablesTheQueue4_s)).2
def DoorbellBeyondTheRingDisablesTheQueue4_d : List Byte := okv ([]) (runMc (sysRead (.bay (0) .fetch) (qdescAddr (DoorbellBeyondTheRingDisablesTheQueue4_s) (0) (3)) 64) (DoorbellBeyondTheRingDisablesTheQueue4_s)).1
theorem witness_DoorbellBeyondTheRingDisablesTheQueue_4 :
    ∃ (b : Nat) (q : Nat) (tail : Nat) (d : List Byte) (s : State) (s1 : State),
      (tget none (s.bay b).tails q = some tail ∧
      s.accs.any (fun x => x.sys && x.op != .read && x.va / 64 == qdescAddr s b q / 64) = false) ∧
      runMc (sysRead (.bay b .fetch) (qdescAddr s b q) 64) s = (.ok d, s1) ∧
      bit (field d 8 4) 20 = false :=
  ⟨0, 3, 5, DoorbellBeyondTheRingDisablesTheQueue4_d, DoorbellBeyondTheRingDisablesTheQueue4_s, DoorbellBeyondTheRingDisablesTheQueue4_s1, by decide +kernel, okPair _ (by decide +kernel), by decide +kernel⟩

theorem witness_HeaderFaultsHaveTheirCodes_1 :
    ∃ (op : Nat) (eng : Nat) (len : Nat) (wait : Nat) (imm : Nat) (rsv : Nat) (tag : Nat) (rest : Nat),
      op < 2 ^ 8 ∧
      eng < 2 ^ 4 ∧
      len < 2 ^ 4 ∧
      wait < 2 ^ 8 ∧
      imm < 2 ∧
      rsv < 2 ^ 7 ∧
      tag < 2 ^ 32 :=
  ⟨255, 15, 15, 255, 1, 127, 2 ^ 32 - 1, 1, by decide +kernel⟩

theorem witness_HeaderFaultsHaveTheirCodes_2 :
    ∃ (q : SeqBlk) (c : Nat),
      7 < hEng c :=
  ⟨{}, 8 * 2 ^ 8, by decide +kernel⟩

def HeaderFaultsHaveTheirCodes3_c : Nat := 7 * 2 ^ 8 + 2 ^ 31
theorem witness_HeaderFaultsHaveTheirCodes_3 :
    ∃ (q : SeqBlk) (c : Nat),
      hEng c ≤ 7 ∧
      hRsv c ≠ 0 :=
  ⟨{}, HeaderFaultsHaveTheirCodes3_c, by decide +kernel⟩

def HeaderFaultsHaveTheirCodes4_q : SeqBlk := { listEnd := 15 }
theorem witness_HeaderFaultsHaveTheirCodes_4 :
    ∃ (q : SeqBlk) (c : Nat),
      hEng c ≤ 7 ∧
      hRsv c = 0 ∧
      q.listEnd < q.pc + hLen c :=
  ⟨HeaderFaultsHaveTheirCodes4_q, 0, by decide +kernel⟩

def HeaderFaultsHaveTheirCodes5_q : SeqBlk := { listEnd := 16 }
theorem witness_HeaderFaultsHaveTheirCodes_5 :
    ∃ (q : SeqBlk) (c : Nat),
      hEng c ≤ 7 ∧
      hRsv c = 0 ∧
      q.pc + hLen c ≤ q.listEnd :=
  ⟨HeaderFaultsHaveTheirCodes5_q, 0, by decide +kernel⟩

def HeaderFaultsHaveTheirCodes6_s : State := fetched (withBytes (busy0.modXlt 0 (fun x => { x with tlb := [{ ctx := 0, lvl := 3, run := 0, vpn := 0, leaf := 0xF }] })) 0 (leBytes 16 0x800)) (.cmd 0 0) false 0 16
def HeaderFaultsHaveTheirCodes6_s1 : State := (runMc (readCmd (0) (0x800)) (HeaderFaultsHaveTheirCodes6_s)).2
theorem witness_HeaderFaultsHaveTheirCodes_6 :
    ∃ (i : Nat) (c : Nat) (code : Nat) (r : CmdRow) (busy : State → Bool) (body : Mc Bool) (s : State) (s1 : State),
      (waitsToStart s i c r = false ∧
      mayIssue s i = true) ∧
      runMc (readCmd i c) s = (.ok true, s1) ∧
      headerFault (s1.pane i).seq c = some code :=
  ⟨0, 0x800, 1, seqRow 0, fun _ => false, pure true, HeaderFaultsHaveTheirCodes6_s, HeaderFaultsHaveTheirCodes6_s1, by decide +kernel, okPairV (by decide +kernel), by decide +kernel⟩

def HeaderFaultsHaveTheirCodes7_s : State := fetched (withBytes (busy0.modXlt 0 (fun x => { x with tlb := [{ ctx := 0, lvl := 3, run := 0, vpn := 0, leaf := 0xF }] })) 0 (leBytes 16 0x800)) (.cmd 0 0) false 0 16
def HeaderFaultsHaveTheirCodes7_s1 : State := (runMc (readCmd (0) (0x800)) (HeaderFaultsHaveTheirCodes7_s)).2
theorem witness_HeaderFaultsHaveTheirCodes_7 :
    ∃ (i : Nat) (c : Nat) (code : Nat) (s : State) (s1 : State),
      (i < 144 ∧
      s.pwr.st ≠ 5 ∧
      waitsToStart s i c (seqRow 0) = false ∧
      mayIssue s i = true) ∧
      runMc (readCmd i c) s = (.ok true, s1) ∧
      headerFault (s1.pane i).seq c = some code :=
  ⟨0, 0x800, 1, HeaderFaultsHaveTheirCodes7_s, HeaderFaultsHaveTheirCodes7_s1, by decide +kernel, okPairV (by decide +kernel), by decide +kernel⟩

theorem witness_AccessReasonsHaveTheirOrder_1 :
    ∃ (s : State) (path : Nat) (a : Nat) (wr : Bool),
      a % 4 ≠ 0 :=
  ⟨up, 1, 2, false, by decide +kernel⟩

def AccessReasonsHaveTheirOrder2_s : State := { up with boot := {} }
theorem witness_AccessReasonsHaveTheirOrder_2 :
    ∃ (s : State) (path : Nat) (a : Nat) (wr : Bool),
      a % 4 = 0 ∧
      s.boot.ready = false ∧
      answersEarly s path a wr = false :=
  ⟨AccessReasonsHaveTheirOrder2_s, 1, Reg.XE_RTMO 0, true, by decide +kernel⟩

theorem witness_AccessReasonsHaveTheirOrder_3 :
    ∃ (s : State) (path : Nat) (a : Nat) (wr : Bool),
      a % 4 = 0 ∧
      (s.boot.ready = true ∨ answersEarly s path a wr = true) ∧
      regRow (resolve s a) = none :=
  ⟨up, 1, 0xFFFFFFFC, false, by decide +kernel⟩

def AccessReasonsHaveTheirOrder4_s : State := up.modPane 142 (fun p => { p with out := true })
def AccessReasonsHaveTheirOrder4_a : Nat := 0x04000000 + 127 * 0x10000
theorem witness_AccessReasonsHaveTheirOrder_4 :
    ∃ (s : State) (path : Nat) (a : Nat) (wr : Bool),
      a % 4 = 0 ∧
      (s.boot.ready = true ∨ answersEarly s path a wr = true) ∧
      (regRow (resolve s a)).isSome = true ∧
      isAlias a = true ∧
      aliasInst s a = none :=
  ⟨AccessReasonsHaveTheirOrder4_s, 1, AccessReasonsHaveTheirOrder4_a, false, by decide +kernel⟩

def AccessReasonsHaveTheirOrder5_s : State := { up with pwr := { st := 3 } }
def AccessReasonsHaveTheirOrder5_a : Nat := Reg.PANE_SLOTSEL 0
theorem witness_AccessReasonsHaveTheirOrder_5 :
    ∃ (s : State) (path : Nat) (a : Nat),
      Addressed s path a true ∧
      writeUnavailable s path (resolve s a) = true :=
  ⟨AccessReasonsHaveTheirOrder5_s, 1, AccessReasonsHaveTheirOrder5_a, by unfold Addressed; decide +kernel, by decide +kernel⟩

theorem witness_AccessReasonsHaveTheirOrder_6 :
    ∃ (s : State) (path : Nat) (a : Nat),
      Addressed s path a true ∧
      writeUnavailable s path (resolve s a) = false ∧
      stateForbids s (resolve s a) = true :=
  ⟨up, 1, Reg.SEC_FPDATA, by unfold Addressed; decide +kernel, by decide +kernel⟩

def AccessReasonsHaveTheirOrder7_s : State := { up with dbg := { level := 2, path := 3 } }
theorem witness_AccessReasonsHaveTheirOrder_7 :
    ∃ (s : State) (path : Nat) (a : Nat),
      Addressed s path a true ∧
      writeUnavailable s path (resolve s a) = false ∧
      stateForbids s (resolve s a) = false ∧
      wrongPath s path (resolve s a) = true :=
  ⟨AccessReasonsHaveTheirOrder7_s, 1, Reg.DBG_HALT, by unfold Addressed; decide +kernel, by decide +kernel⟩

theorem witness_AccessReasonsHaveTheirOrder_8 :
    ∃ (s : State) (path : Nat) (a : Nat),
      Addressed s path a true ∧
      writeUnavailable s path (resolve s a) = false ∧
      stateForbids s (resolve s a) = false ∧
      wrongPath s path (resolve s a) = false :=
  ⟨up, 1, Reg.PWR_P1CLK, by unfold Addressed; decide +kernel, by decide +kernel⟩

def AccessReasonsHaveTheirOrder9_a : Nat := Reg.CTL_TIME_LO
theorem witness_AccessReasonsHaveTheirOrder_9 :
    ∃ (s : State) (path : Nat) (a : Nat),
      Addressed s path a false :=
  ⟨up, 3, AccessReasonsHaveTheirOrder9_a, by unfold Addressed; decide +kernel⟩

def StreamAndMigrationCommandsComplete1_c : Nat := 0x100000000000000000402
def StreamAndMigrationCommandsComplete1_s : State := setStream (engine0 4 0x100000000000000000402) 0 0 { status := 1, nbuf := 2, bufstride := 64, ndesc := 1, deliv := 1 }
def StreamAndMigrationCommandsComplete1_s1 : State := (startState (StreamAndMigrationCommandsComplete1_s) (0) (StreamAndMigrationCommandsComplete1_c) (seRow 2 16) (fun _ => false)).getD (State.reset)
theorem witness_StreamAndMigrationCommandsComplete_1 :
    ∃ (i : Nat) (c : Nat) (s : State) (s1 : State),
      (i < 144 ∧
      s.pwr.st ≠ 5) ∧
      startState s i c (seRow 2 16) (fun _ => false) = some s1 ∧
      (plainForm c 16 = true ∧
      cbits c 8 15 4 = 0 ∧
      cbits c 8 31 20 = 0 ∧
      cbytes c 12 4 = 0 ∧
      1 ≤ cbits c 8 19 16 ∧
      cbits c 8 19 16 ≤ 8) ∧
      let x := streamOf s1 i (cbits c 8 3 0)
      x.status = 1 ∧
      x.kind = 0 ∧
      x.cancel = false ∧
      x.done + cbits c 8 19 16 ≤ x.deliv :=
  ⟨0, StreamAndMigrationCommandsComplete1_c, StreamAndMigrationCommandsComplete1_s, StreamAndMigrationCommandsComplete1_s1, by decide +kernel, somePair _ (by decide +kernel), by decide +kernel, by decide +kernel⟩

def StreamAndMigrationCommandsComplete2_c : Nat := 0x100000000000000000403
def StreamAndMigrationCommandsComplete2_s : State := setStream (engine0 4 0x100000000000000000403) 0 0 { status := 1, nbuf := 2, bufstride := 64, ndesc := 1, kind := 1 }
def StreamAndMigrationCommandsComplete2_s1 : State := (startState (StreamAndMigrationCommandsComplete2_s) (0) (StreamAndMigrationCommandsComplete2_c) (seRow 3 16) (fun _ => false)).getD (State.reset)
theorem witness_StreamAndMigrationCommandsComplete_2 :
    ∃ (i : Nat) (c : Nat) (s : State) (s1 : State),
      (i < 144 ∧
      s.pwr.st ≠ 5) ∧
      startState s i c (seRow 3 16) (fun _ => false) = some s1 ∧
      (plainForm c 16 = true ∧
      cbits c 8 15 4 = 0 ∧
      cbits c 8 31 20 = 0 ∧
      cbytes c 12 4 = 0 ∧
      1 ≤ cbits c 8 19 16 ∧
      cbits c 8 19 16 ≤ 8) ∧
      let x := streamOf s1 i (cbits c 8 3 0)
      x.status = 1 ∧
      x.kind = 1 ∧
      x.cancel = false ∧
      x.done - x.deliv + cbits c 8 19 16 ≤ x.nbuf :=
  ⟨0, StreamAndMigrationCommandsComplete2_c, StreamAndMigrationCommandsComplete2_s, StreamAndMigrationCommandsComplete2_s1, by decide +kernel, somePair _ (by decide +kernel), by decide +kernel, by decide +kernel⟩

def StreamAndMigrationCommandsComplete3_s : State := setStream (engine0 4 1028) 0 0 { status := 1, nbuf := 2, bufstride := 64, ndesc := 1 }
def StreamAndMigrationCommandsComplete3_s1 : State := (startState (StreamAndMigrationCommandsComplete3_s) (0) (1028) (seRow 4 16) (fun _ => false)).getD (State.reset)
theorem witness_StreamAndMigrationCommandsComplete_3 :
    ∃ (i : Nat) (c : Nat) (s : State) (s1 : State),
      (i < 144 ∧
      s.pwr.st ≠ 5) ∧
      startState s i c (seRow 4 16) (fun _ => false) = some s1 ∧
      plainForm c 16 = true ∧
      cbits c 8 15 4 = 0 ∧
      cbits c 8 31 20 = 0 ∧
      cbytes c 12 4 = 0 ∧
      (streamOf s1 i (cbits c 8 3 0)).status = 1 :=
  ⟨0, 1028, StreamAndMigrationCommandsComplete3_s, StreamAndMigrationCommandsComplete3_s1, by decide +kernel, somePair _ (by decide +kernel), by decide +kernel⟩

def StreamAndMigrationCommandsComplete4_s : State := setStream busy0 0 0 { status := 1, nbuf := 2, bufstride := 64, ndesc := 1, descs := [(0, leBytes 16 0 ++ leBytes 4 (128 + 2 ^ 31) ++ leBytes 8 0 ++ leBytes 2 1 ++ leBytes 34 0)], blocks := [{ no := 0, desc := 0, q := 0, need := [] }] }
def StreamAndMigrationCommandsComplete4_y : SBlk := { no := 0, desc := 0, q := 0, need := [] }
def StreamAndMigrationCommandsComplete4_d : SDesc := sdesc (leBytes 16 0 ++ leBytes 4 (128 + 2 ^ 31) ++ leBytes 8 0 ++ leBytes 2 1 ++ leBytes 34 0)
theorem witness_StreamAndMigrationCommandsComplete_4 :
    ∃ (i : Nat) (st : Nat) (s : State) (y : SBlk) (d : SDesc),
      (i < 144 ∧
      st < 16 ∧
      s.pwr.st ≠ 5) ∧
      let x := streamOf (seArrived (settle s) i) i st
      openStream x = true ∧
      blockDone (seArrived (settle s) i) i st x = some y ∧
      heldDesc x y.desc = some d :=
  ⟨0, 0, StreamAndMigrationCommandsComplete4_s, StreamAndMigrationCommandsComplete4_y, StreamAndMigrationCommandsComplete4_d, by decide +kernel, by decide +kernel⟩

def StreamAndMigrationCommandsComplete5_s : State := setStream busy0 0 0 { status := 1, nbuf := 2, bufstride := 64, ndesc := 1, dry := 10, drySet := true }
theorem witness_StreamAndMigrationCommandsComplete_5 :
    ∃ (i : Nat) (st : Nat) (s : State),
      i < 144 ∧
      st < 16 ∧
      s.pwr.st ≠ 5 ∧
      (streamOf s i st).status = 1 ∧
      (streamOf s i st).kind = 0 ∧
      (streamOf s i st).cancel = false ∧
      (streamOf s i st).dry < s.devTime ∧
      (streamOf s i st).didx ≠ (streamOf s i st).ndesc :=
  ⟨0, 0, StreamAndMigrationCommandsComplete5_s, by decide +kernel⟩

theorem witness_StreamAndMigrationCommandsComplete_6 :
    ∃ (i : Nat) (s : State),
      i < 144 ∧
      regOpen s (Reg.SE_STRDATA i) = true :=
  ⟨0, up, by decide +kernel⟩

def StreamAndMigrationCommandsComplete7_s : State := { up with gx := { fq := [(0, some { st := 1, cause := 5, level := 3, write := false, ctx := 0, seq := 7, va := 0x1000, hpa := 0x2000, panes := [], bays := [], nfault := 1, time := 0, newpa := 0, tasks := [] })] } }
def StreamAndMigrationCommandsComplete7_e : FqEnt := { st := 1, cause := 5, level := 3, write := false, ctx := 0, seq := 7, va := 0x1000, hpa := 0x2000, panes := [], bays := [], nfault := 1, time := 0, newpa := 0, tasks := [] }
theorem witness_StreamAndMigrationCommandsComplete_7 :
    ∃ (v : Nat) (s : State) (e : FqEnt),
      regOpen s Reg.XLT_FRESOLVE = true ∧
      tget none s.gx.fq (bits v 7 0) = some e ∧
      e.st = 1 ∧
      e.seq % 65536 = bits v 31 16 ∧
      s.gx.noticeHeld = [] ∧
      bit v 8 = false :=
  ⟨0x70000, StreamAndMigrationCommandsComplete7_s, StreamAndMigrationCommandsComplete7_e, by decide +kernel⟩

theorem witness_StreamAndMigrationCommandsComplete_8 :
    ∃ (v : Nat) (s : State),
      regOpen s Reg.XLT_FRESOLVE = true ∧
      tget none s.gx.fq (bits v 7 0) = none :=
  ⟨0x70000, up, by decide +kernel⟩

theorem witness_StreamAndMigrationCommandsComplete_9 :
    ∃ (v : Nat) (s : State),
      regOpen s Reg.XLT_FNTAIL = true :=
  ⟨3, up, by decide +kernel⟩

theorem witness_StreamAndMigrationCommandsComplete_10 :
    ∃ (v : Nat) (s : State),
      regOpen s Reg.XLT_MPTAIL = true :=
  ⟨3, up, by decide +kernel⟩

def StreamAndMigrationCommandsComplete11_e : FqEnt := { st := 1, cause := 5, level := 3, write := false, ctx := 0, seq := 7, va := 0x1000, hpa := 0x2000, panes := [], bays := [], nfault := 1, time := 0, newpa := 0, tasks := [] }
def StreamAndMigrationCommandsComplete11_s : State := fetched ((withBytes ({ up with gx := { fq := [(0, some { st := 1, cause := 5, level := 3, write := false, ctx := 0, seq := 7, va := 0x1000, hpa := 0x2000, panes := [], bays := [], nfault := 1, time := 0, newpa := 0, tasks := [] })] } }) 0 (leBytes 8 0x3000)).setReg Reg.XLT_MPTAIL 1 |>.setReg (Reg.XLT_OTLIMIT 0) 100) (.ctl .pool) true 0 64
def StreamAndMigrationCommandsComplete11_s1 : State := (runMc (sysRead (.ctl .pool) (poolAddr (StreamAndMigrationCommandsComplete11_s)) 8) (StreamAndMigrationCommandsComplete11_s)).2
def StreamAndMigrationCommandsComplete11_bs : List Byte := okv ([]) (runMc (sysRead (.ctl .pool) (poolAddr (StreamAndMigrationCommandsComplete11_s)) 8) (StreamAndMigrationCommandsComplete11_s)).1
theorem witness_StreamAndMigrationCommandsComplete_11 :
    ∃ (k : Nat) (e : FqEnt) (bs : List Byte) (s : State) (s1 : State),
      (s.pwr.st ≠ 5 ∧
      s.gx.mig = none ∧
      oldestMigrate s = some (k, e) ∧
      poolEmpty s = false) ∧
      runMc (sysRead (.ctl .pool) (poolAddr s) 8) s = (.ok bs, s1) ∧
      poolPageOk s1 (localPa (leNat bs) / 4096 * 4096) = true :=
  ⟨0, StreamAndMigrationCommandsComplete11_e, StreamAndMigrationCommandsComplete11_bs, StreamAndMigrationCommandsComplete11_s, StreamAndMigrationCommandsComplete11_s1, by decide +kernel, okPair _ (by decide +kernel), by decide +kernel⟩

def StreamAndMigrationCommandsComplete12_m : Mig := { entry := 0, step := 3, newpa := 0x3000 }
def StreamAndMigrationCommandsComplete12_e : FqEnt := { st := 2, cause := 5, level := 3, write := false, ctx := 0, seq := 7, va := 0x1000, hpa := 0x2000, panes := [], bays := [], nfault := 1, time := 0, newpa := 0, tasks := [] }
def StreamAndMigrationCommandsComplete12_s : State := { up with gx := { fq := [(0, some { st := 2, cause := 5, level := 3, write := false, ctx := 0, seq := 7, va := 0x1000, hpa := 0x2000, panes := [], bays := [], nfault := 1, time := 0, newpa := 0, tasks := [] })], mig := some { entry := 0, step := 3, newpa := 0x3000 } }, accs := [{ acc1 with stage := .got, purpose := .mig 0 }] }
theorem witness_StreamAndMigrationCommandsComplete_12 :
    ∃ (m : Mig) (e : FqEnt) (s : State),
      s.pwr.st ≠ 5 ∧
      s.gx.mig = some m ∧
      m.step = 3 ∧
      tget none s.gx.fq m.entry = some e ∧
      (∀ a ∈ s.accs, ofMig a = true → a.stage = .got ∧ a.flt = none) :=
  ⟨StreamAndMigrationCommandsComplete12_m, StreamAndMigrationCommandsComplete12_e, StreamAndMigrationCommandsComplete12_s, by decide +kernel⟩

theorem witness_StreamAndMigrationCommandsComplete_13 :
    ∃ (v : Nat) (s : State),
      v < 2 ^ 32 ∧
      s.pwr.st ≠ 5 ∧
      s.rel.upd ≠ 3 ∧
      pathBusy s 1 = false ∧
      accessReason s 1 Reg.LOG_SEL true = 0 :=
  ⟨5, up, by decide +kernel⟩


end Sys2Proof.Tests
end

section
/-! SUPPORT. Staged copies and commits (R12, R485 to R490, R550): what one staged register's taking effect changes, what a rejected
commit and an applied one leave in the staged copies and in the registers, and the statement that follows from them. -/

namespace Sys2Proof.Machine

open Sys2Proof

/-! ### Staged copies and registers -/

@[simp] theorem putStaged_regN (s : State) (a v b : Nat) : (putStaged s a v).regN b = s.regN b := rfl
@[simp] theorem putStaged_mgmt (s : State) (a v : Nat) : (putStaged s a v).mgmt = s.mgmt := rfl
@[simp] theorem setReg_stagedN (s : State) (a v b : Nat) : stagedN (s.setReg a v) b = stagedN s b := rfl

@[simp] theorem stagedN_putStaged (s : State) (a v : Nat) : stagedN (putStaged s a v) a = v % 2 ^ 32 := by
  simp [stagedN, putStaged]

theorem stagedN_putStaged_ne (s : State) (a b v : Nat) (h : b ≠ a) : stagedN (putStaged s a v) b = stagedN s b := by
  simp [stagedN, putStaged, tget_tset_ne _ _ _ _ _ _ h]

/-- One staged register takes effect: its staged value, masked to what its row defines, in force and in the copy (R485). -/
def forceStaged (s : State) (a : Nat) : State :=
  let v := Nat.land (stagedN s a) (rowMask a)
  putStaged (s.setReg a v) a v

@[simp] theorem forceStaged_mgmt (s : State) (a : Nat) : (forceStaged s a).mgmt = s.mgmt := rfl

theorem forceStaged_self (s : State) (a : Nat) : stagedN (forceStaged s a) a = (forceStaged s a).regN a := by
  simp [forceStaged]

/-- A register whose copy equals its value in force stays so while another one, or itself, takes effect. -/
theorem forceStaged_keeps {s : State} {a : Nat} (b : Nat) (h : stagedN s a = s.regN a) :
    stagedN (forceStaged s b) a = (forceStaged s b).regN a := by
  by_cases hab : a = b
  · subst hab
    exact forceStaged_self s a
  · simp [forceStaged, stagedN_putStaged_ne _ _ _ _ hab, State.setReg_regN_ne _ _ _ _ hab, h]

theorem foldl_forceStaged_mgmt (l : List Nat) (s : State) : (l.foldl forceStaged s).mgmt = s.mgmt := by
  induction l generalizing s with
  | nil => rfl
  | cons b l ih => rw [List.foldl_cons, ih, forceStaged_mgmt]

theorem foldl_forceStaged_keeps (l : List Nat) {s : State} {a : Nat} (h : stagedN s a = s.regN a) :
    stagedN (l.foldl forceStaged s) a = (l.foldl forceStaged s).regN a :=
  l.foldlRecOn forceStaged (motive := fun t => stagedN t a = t.regN a) h (fun _ ht b _ => forceStaged_keeps b ht)

/-- After a list of staged registers has taken effect, each of them has its copy equal to its value in force. -/
theorem foldl_forceStaged_mem {l : List Nat} {s : State} {a : Nat} (h : a ∈ l) :
    stagedN (l.foldl forceStaged s) a = (l.foldl forceStaged s).regN a := by
  induction l generalizing s with
  | nil => cases h
  | cons b l ih =>
    rcases List.mem_cons.mp h with rfl | hl
    · exact foldl_forceStaged_keeps l (forceStaged_self s a)
    · exact ih hl

/-! ### The parts of an apply -/

/-- Changing each bay of a list changes the bays alone. -/
theorem foldl_modBay_bays (f : Bay → Bay) (l : List Nat) (s : State) :
    ∃ bs, l.foldl (fun s b => s.modBay b f) s = { s with bays := bs } := by
  induction l generalizing s with
  | nil => exact ⟨s.bays, rfl⟩
  | cons b l ih => exact ih (s.modBay b f)

/-- Requests of array clocks change the bays alone. -/
theorem requestClocks_bays (s : State) : ∃ bs, requestClocks s = { s with bays := bs } := by
  unfold requestClocks
  exact foldl_modBay_bays _ _ s

@[simp] theorem requestClocks_regN (s : State) (a : Nat) : (requestClocks s).regN a = s.regN a := by
  obtain ⟨bs, h⟩ := requestClocks_bays s
  rw [h]
  rfl

@[simp] theorem requestClocks_stagedN (s : State) (a : Nat) : stagedN (requestClocks s) a = stagedN s a := by
  obtain ⟨bs, h⟩ := requestClocks_bays s
  rw [h]
  rfl

@[simp] theorem requestClocks_mgmt (s : State) : (requestClocks s).mgmt = s.mgmt := by
  obtain ⟨bs, h⟩ := requestClocks_bays s
  rw [h]

/-- Where no write is held, a commit releases none. -/
theorem releaseHeld_of_nil {s : State} (h : s.mgmt.held = []) : releaseHeld s = s := by
  have hm : ({ s.mgmt with held := [] } : Mgmt) = s.mgmt := by rw [← h]
  rw [releaseHeld, h, List.foldl_nil, hm]

@[simp] theorem modBay_regN (s : State) (b a : Nat) (f : Bay → Bay) : (s.modBay b f).regN a = s.regN a := rfl
@[simp] theorem modBay_stagedN (s : State) (b a : Nat) (f : Bay → Bay) : stagedN (s.modBay b f) a = stagedN s a := rfl

@[simp] theorem keepStraps_regN (s t : State) (a : Nat) : (keepStraps s t).regN a = t.regN a := rfl
@[simp] theorem keepStraps_stagedN (s t : State) (a : Nat) : stagedN (keepStraps s t) a = stagedN t a := rfl

@[simp] theorem showCommit_staged (s : State) (k st : Nat) : (showCommit s k st).staged = s.staged := State.setReg_staged _ _ _
@[simp] theorem showCommit_stagedN (s : State) (k st a : Nat) : stagedN (showCommit s k st) a = stagedN s a := setReg_stagedN _ _ _ _
@[simp] theorem showCommit_mgmt (s : State) (k st : Nat) : (showCommit s k st).mgmt = s.mgmt := State.setReg_mgmt _ _ _
theorem showCommit_regN_ne (s : State) (k st a : Nat) (h : a ≠ Reg.CTL_COMMITST) : (showCommit s k st).regN a = s.regN a :=
  State.setReg_regN_ne _ _ _ _ h

/-- The lowest byte of CTL_COMMITST is the state that the commit shows (R490). -/
theorem bits_showCommit (s : State) (k st : Nat) (h : st < 256) : bits ((showCommit s k st).regN Reg.CTL_COMMITST) 7 0 = st := by
  simp only [showCommit, State.setReg_regN, bits]
  omega

/-- The staged slot entries of a bay's target are due at their tables' next frame boundaries (R58). -/
def dueSlots (s : State) (k : Nat) : State :=
  if k % 256 = 1 then
    s.modBay (bits k 11 8) (fun x => { x with slotDue := x.slotStaged.foldl (fun t e => tset none t e.1 e.2) x.slotDue, slotStaged := [] })
  else s

/-- The power target asks for its clocks (R505). -/
def dueClocks (s : State) (k : Nat) : State := if k % 256 = 9 then requestClocks s else s

/-- CTL_COMMITST, where it shows the commit pending, shows it applied (R490). -/
def showApplied (s : State) (k : Nat) : State :=
  if s.regN Reg.CTL_COMMITST = 1 + k % 256 * 2 ^ 8 + bits k 11 8 * 2 ^ 16 + bits k 15 12 * 2 ^ 20 then showCommit s k 2 else s

/-- The commit is pending no more. -/
def dropCommit (s : State) (k : Nat) : State := { s with mgmt := { s.mgmt with commits := s.mgmt.commits.erase k } }

@[simp] theorem dueSlots_regN (s : State) (k a : Nat) : (dueSlots s k).regN a = s.regN a := by
  unfold dueSlots
  split <;> simp

@[simp] theorem dueSlots_stagedN (s : State) (k a : Nat) : stagedN (dueSlots s k) a = stagedN s a := by
  unfold dueSlots
  split <;> simp

@[simp] theorem dueSlots_mgmt (s : State) (k : Nat) : (dueSlots s k).mgmt = s.mgmt := by
  unfold dueSlots
  split <;> simp

@[simp] theorem dueClocks_regN (s : State) (k a : Nat) : (dueClocks s k).regN a = s.regN a := by
  unfold dueClocks
  split <;> simp

@[simp] theorem dueClocks_stagedN (s : State) (k a : Nat) : stagedN (dueClocks s k) a = stagedN s a := by
  unfold dueClocks
  split <;> simp

@[simp] theorem dueClocks_mgmt (s : State) (k : Nat) : (dueClocks s k).mgmt = s.mgmt := by
  unfold dueClocks
  split <;> simp

theorem showApplied_regN_ne (s : State) (k a : Nat) (h : a ≠ Reg.CTL_COMMITST) : (showApplied s k).regN a = s.regN a := by
  unfold showApplied
  split
  · exact showCommit_regN_ne s k 2 a h
  · rfl

@[simp] theorem showApplied_stagedN (s : State) (k a : Nat) : stagedN (showApplied s k) a = stagedN s a := by
  unfold showApplied
  split
  · exact showCommit_stagedN s k 2 a
  · rfl

@[simp] theorem showApplied_mgmt (s : State) (k : Nat) : (showApplied s k).mgmt = s.mgmt := by
  unfold showApplied
  split
  · exact showCommit_mgmt s k 2
  · rfl

@[simp] theorem dropCommit_regN (s : State) (k a : Nat) : (dropCommit s k).regN a = s.regN a := rfl
@[simp] theorem dropCommit_stagedN (s : State) (k a : Nat) : stagedN (dropCommit s k) a = stagedN s a := rfl
@[simp] theorem dropCommit_held (s : State) (k : Nat) : (dropCommit s k).mgmt.held = s.mgmt.held := rfl

/-- A commit that reaches its boundary: its parts in their order, then the writes held behind it. -/
theorem commitApply_of_boundary {s : State} {k : Nat} (hc : s.mgmt.commits.contains k = true) (hb : atBoundary s k = true) :
    commitApply s k = releaseHeld (dropCommit (showApplied (dueClocks (dueSlots ((tgtRegs k).foldl forceStaged s) k) k) k) k) := by
  rw [commitApply, hc, hb]
  rfl

/-- With no write held, these parts are all of it. -/
theorem commitApply_of_held_nil {s : State} {k : Nat} (hc : s.mgmt.commits.contains k = true) (hb : atBoundary s k = true)
    (hh : s.mgmt.held = []) :
    commitApply s k = dropCommit (showApplied (dueClocks (dueSlots ((tgtRegs k).foldl forceStaged s) k) k) k) k := by
  rw [commitApply_of_boundary hc hb, releaseHeld_of_nil]
  simp [foldl_forceStaged_mgmt, hh]

/-! ### The statement -/

/-- CTL_COMMITST is no staged register: every one of them lies above it. -/
theorem ne_commitst_of_mem_tgtRegs {k a : Nat} (h : a ∈ tgtRegs k) : a ≠ Reg.CTL_COMMITST := by
  unfold tgtRegs at h
  rintro rfl
  simp only at h
  split_ifs at h <;>
    simp [Reg.CTL_COMMITST, Reg.BAY_BSHARE, Reg.MEM_CTRL, Reg.XLT_OTCTRL, Reg.XLT_OTLIMIT, Reg.DSP_SLICE, Reg.DSP_BLOCKSW,
      Reg.WIN_REPLAYTMO, Reg.XE_RTMO, bayBase, winBase, Reg.FLX_HTMO, Reg.PWR_P1CLK, Reg.DBG_TRCCTL, Reg.LOG_CTRL] at h <;> omega

/-- A commit that a check refuses, or whose target is unknown, changes no staged copy and is shown as rejected (R12, R490). -/
theorem commitNow_rejected {s : State} {v off chk : Nat} (hc : s.mgmt.commits.contains (v % 65536) = false)
    (hr : tgtKnown (v % 65536) = false ∨ commitCheck s (v % 65536) = some (off, chk)) :
    ∃ e, commitNow s v = (showCommit s (v % 65536) 3).setReg Reg.CTL_COMMITERR e := by
  unfold commitNow
  by_cases hk : tgtKnown (v % 65536) = true
  · have hchk := hr.resolve_left (by simp [hk])
    simp only [hc, hk, hchk]
    exact ⟨_, rfl⟩
  · simp only [hc, hk]
    exact ⟨_, rfl⟩

end Sys2Proof.Machine

open Sys2Proof Sys2Proof.Machine

/-- Settles O56: a rejected commit writes registers alone, and each staged register that takes effect has its copy set to the
value in force, which nothing after it in the apply changes. -/
theorem stagedCopiesFollowCommits : Obligations.StagedCopiesFollowCommits := by
  refine ⟨fun v off chk s ho hc hr => ?_, fun k a s hk h5 hc hb hh ha => ?_⟩
  · obtain ⟨e, he⟩ := commitNow_rejected (s := s.setReg Reg.CTL_COMMITSEQ ((s.regN Reg.CTL_COMMITSEQ + 1) % 2 ^ 32)) hc hr
    refine ⟨_, answer_open ho, ?_, ?_⟩ <;> rw [commitWrite, he]
    · rw [keepStraps_staged, State.setReg_staged, showCommit_staged, State.setReg_staged]
    · rw [keepStraps_regN, State.setReg_regN_ne _ _ _ _ (by decide), bits_showCommit _ _ _ (by decide)]
  · refine ⟨_, answer_on h5, ?_⟩
    rw [Nat.mod_eq_of_lt hk, commitApply_of_held_nil hc hb hh]
    simp [showApplied_regN_ne _ _ _ (ne_commitst_of_mem_tgtRegs ha), foldl_forceStaged_mem ha]

end

section
/-! SUPPORT. The array clock, doorbells and queue errors (R31, R41 to R44, R316, Table 2-12): what each of their operations does in
each of its cases, and the statement that follows from them. -/

namespace Sys2Proof.Machine

open Sys2Proof

/-! ### The outcomes through `answer` -/

theorem exec_arrayClockStep (b : Nat) (s : State) : exec (.arrayClockStep b) s = answer s (okBay b) (clockStep s b) := rfl

theorem exec_bayDoorbell (b v : Nat) (s : State) :
    exec (.bayDoorbell b v) s = answer s (okBay b) (whenOpen s (Reg.BAY_DOORBELL b) (settle (doorbell s b v))) := rfl

theorem exec_bayQerrClear (b v : Nat) (s : State) :
    exec (.bayQerrClear b v) s = answer s (okBay b) (whenOpen s (Reg.BAY_QERR b) (qerrClear s b v)) := rfl

/-! ### Doorbells -/

/-- A doorbell that finds a credit waits for its queue's descriptor (R43). -/
theorem doorbell_of_credit {s : State} {b : Nat} (v : Nat) (h : freeEntries s b ≠ 0) :
    doorbell s b v = s.modBay b (fun x => { x with dbWait := x.dbWait ++ [v] }) := if_neg h

/-- A doorbell without a credit is counted in BAY_DBSTAT with its queue, and the bay owes a credit return (R44). -/
theorem doorbell_of_no_credit {s : State} {b : Nat} (v : Nat) (h : freeEntries s b = 0) :
    doorbell s b v = (s.setReg (Reg.BAY_DBSTAT b)
      (min (bits (s.regN (Reg.BAY_DBSTAT b)) 15 0 + 1) 65535 + bits v 23 16 * 2 ^ 16)).modBay b (fun x => { x with owedCredit := true }) :=
  if_pos h

/-- A tail that has its queue's descriptor, of an enabled queue: a queue error beyond the ring, else accepted (R43). -/
theorem doorbellRead_of_enabled {b v : Nat} {s s1 : State} {d : List Byte}
    (hd : runMc (sysRead (.bay b .doorbell) (qdescAddr s b (bits v 23 16)) 64) s = (.ok d, s1)) (he : bit (field d 8 4) 20 = true) :
    runMc (doorbellRead b v) s = (.ok (), if (bits v 15 0 + 65536 - field d 12 2) % 65536 ≤ 2 ^ bits (field d 8 4) 19 16
      then s1.modBay b (fun x => { x with tails := tset none x.tails (bits v 23 16) (some (bits v 15 0)) })
      else queueError s1 b (bits v 23 16) (some d)) := by
  unfold doorbellRead
  rw [runMc_bind_ok (runMc_get s), runMc_bind_ok hd, if_pos he]
  by_cases hr : (bits v 15 0 + 65536 - field d 12 2) % 65536 ≤ 2 ^ bits (field d 8 4) 19 16
  · rw [if_neg (Nat.not_lt.mpr hr), if_pos hr, runMc_modify]
  · rw [if_pos (Nat.not_le.mp hr), if_neg hr, runMc_modify]

/-! ### Queue errors -/

/-- Clearing the highest bit of a 32-bit word leaves its lower bits. -/
theorem setBits_high_zero {n : Nat} (h : n < 2 ^ 32) : setBits n 31 31 0 = n % 2 ^ 31 := by
  simp only [setBits, bits]
  omega

/-- A write of QERR clears it and keeps the rest of BAY_QERR (Table 2-12). -/
theorem qerrClear_of_set {s : State} {v : Nat} (b : Nat) (h : bit v 31 = true) :
    qerrClear s b v = s.setReg (Reg.BAY_QERR b) (s.regN (Reg.BAY_QERR b) % 2 ^ 31) := by
  rw [qerrClear, if_pos h, State.setField, setBits_high_zero (s.regN_lt _)]

end Sys2Proof.Machine

open Sys2Proof Sys2Proof.Machine

/-- Settles O7, a clause for each operation: the clock step is the command's whole effect, a doorbell has two cases by its credit and
two by its ring, and the clearing of QERR is a write of the highest bit alone. -/
theorem queueRegistersAndDoorbells : Obligations.QueueRegistersAndDoorbells := by
  refine ⟨fun b s hb h5 => ?_, fun b v s hb ho hf => ?_, fun b v s s1 d hd he => doorbellRead_of_enabled hd he,
    fun b v s hb ho hf => ?_, fun b v s hb ho hv => ?_⟩
  · rw [exec_arrayClockStep, okBay_of_lt hb, answer_on h5]
    rfl
  · rw [exec_bayDoorbell, okBay_of_lt hb, answer_open ho, doorbell_of_credit v hf]
    rfl
  · rw [exec_bayDoorbell, okBay_of_lt hb, answer_open ho, doorbell_of_no_credit v hf]
    rfl
  · rw [exec_bayQerrClear, okBay_of_lt hb, answer_open ho, qerrClear_of_set b hv]

end

section
/-! SUPPORT. Engine commands (R50 to R53, R191, R227): what the step of a command that its engine starts answers, for the rows of each kind,
and the statement that follows from it row by row. -/

namespace Sys2Proof.Machine

open Sys2Proof

/-- A pane command of fixed length that starts and whose body ends without a stop answers its completed or its running state. -/
theorem answer_runCmd_of_start {s s1 s2 : State} {i c : Nat} {r : CmdRow} {busy : State → Bool} {body : Mc Bool} {fin : Bool}
    (h5 : s.pwr.st ≠ 5) (hi : i < 144) (hs : startState s i c r busy = some s1) (hf : plainForm c r.len = true)
    (hb : runMc body s1 = (.ok fin, s2)) :
    answer s (okPane i) (runCmd s i c r busy body) = .next (followed s (if fin then completed s2 i c r else underWay s2 i r.eng)) := by
  rw [okPane_of_lt hi, answer_on h5, runCmd_of_start hs hf hb]
  rfl

theorem exec_sash (i c : Nat) (s : State) :
    exec (.sash i c) s = answer s (okPane i)
      (settle (runCmdLen s i c (vecRow 1 128 none) (if hImm c then 144 else 128) (engBusy i 2) (sashBody i c))) := rfl

/-- A SASH that passes the checks of its row, of either length, answers its completed or its running state. -/
theorem exec_sash_of_start {s s1 s2 : State} {i c : Nat} {fin : Bool} (h5 : s.pwr.st ≠ 5) (hi : i < 144)
    (hs : startState s i c (vecRow 1 128 none) (engBusy i 2) = some s1)
    (hf : runMc (bodyChecks s1 i c (vecRow 1 128 none) (if hImm c then 144 else 128)) s1 = (.ok (), s1))
    (hb : runMc (sashBody i c) s1 = (.ok fin, s2)) :
    exec (.sash i c) s = .next (followed s (if fin then completed s2 i c (vecRow 1 128 none) else underWay s2 i 2)) := by
  rw [exec_sash, okPane_of_lt hi, answer_on h5, runCmdLen_of_start hs hf hb]
  rfl

/-- A command without immediate data has IMM clear. -/
theorem hImm_of_plain {c len : Nat} (h : plainForm c len = true) : hImm c = false := by
  simp only [plainForm, Bool.and_eq_true, Bool.not_eq_true'] at h
  exact h.2

end Sys2Proof.Machine

open Sys2Proof Sys2Proof.Machine

/-- Settles O26, row by row: a row of fixed length answers through `answer_runCmd_of_start`, SASH with the length that its IMM gives,
an NGE row advances its job as well, and a table row makes its job the engine's. -/
theorem engineCommandsRunTheirBodies : Obligations.EngineCommandsRunTheirBodies := by
  intro i c fin j s s1 s2 hi h5 after runs
  refine ⟨fun hs hf hb => ?matmul, fun hs hf hb => ?drain, fun hs hf hb => ?encode, fun hs hf hb => ?chstep, fun hs hf hb => ?sash,
    fun hs hl hm hr hb => ?sashImm, fun hs hf hb => ?reduce, fun hs hf hb => ?tabulate, fun hs hf hb => ?gather, fun hs hf hb => ?seggather,
    fun hs hf hb => ?degscan, fun hs hf hb => ?seqstage, fun hs hf hb => ?seqsoft, fun hs hf hb => ?sopen, fun hs hf hb => ?check,
    fun hs hf hb => ?tlookup, fun hs hf hb => ?tprefetch, fun hs hf hb => ?tgrad, fun hs hf hb => ?tstepApply, fun hs hf hb => ?tstepRefresh,
    fun hs hf hb => ?trepl, fun hs hf hb => ?tmigrate, fun hs hf hb => ?trowwrite⟩
  case sash => exact exec_sash_of_start h5 hi hs (by simpa [hImm_of_plain hf] using bodyChecks_of_plain hf) hb
  case sashImm => exact exec_sash_of_start h5 hi hs (bodyChecks_of_imm (by simp [hl, hm]) hm hr rfl) hb
  case gather | seggather | degscan | seqstage | seqsoft => exact runNge_of_start h5 hi hs hf hb
  case tlookup | tprefetch | tgrad | tstepApply | tstepRefresh | trepl | tmigrate | trowwrite => exact runTe_of_start h5 hi hs hf hb
  case matmul | drain | encode | chstep | reduce | tabulate | sopen | check => exact answer_runCmd_of_start h5 hi hs hf hb

end

section
/-! SUPPORT. Doorbells past their ring and disabled queues (R43): the statement that follows from what a doorbell's descriptor tells of
its tail, and from what the dispatcher finds in a queue. -/

namespace Sys2Proof.Machine

open Sys2Proof

/-- The dispatcher finds nothing in a queue whose descriptor has ENABLE clear. -/
theorem fetchable_of_disabled {b q tail : Nat} {d : List Byte} {s s1 : State} (ht : tget none (s.bay b).tails q = some tail)
    (hw : s.accs.any (fun x => x.sys && x.op != .read && x.va / 64 == qdescAddr s b q / 64) = false)
    (hd : runMc (sysRead (.bay b .fetch) (qdescAddr s b q) 64) s = (.ok d, s1)) (he : bit (field d 8 4) 20 = false) :
    runMc (fetchable b q) s = (.ok none, s1) := by
  unfold fetchable
  rw [runMc_bind_ok (runMc_get s)]
  simp only [ht, hw, Bool.false_eq_true, if_false]
  rw [runMc_bind_ok hd, he]
  rfl

end Sys2Proof.Machine

open Sys2Proof Sys2Proof.Machine

/-- Settles O57: a doorbell whose descriptor has come is served, as a queue error when its tail lies past the ring and as an accepted
tail when not, and the next one comes up. -/
theorem doorbellBeyondTheRingDisablesTheQueue : Obligations.DoorbellBeyondTheRingDisablesTheQueue := by
  refine ⟨fun b v s hb ho hf => ?_, fun n b v vs d s s1 hw hd he hr => ?_, fun n b v vs d s s1 hw hd he hr => ?_,
    fun b q tail d s s1 ht hw hd he => fetchable_of_disabled ht hw hd he⟩
  · rw [exec_bayDoorbell, okBay_of_lt hb, answer_open ho, doorbell_of_credit v hf]
    rfl
  · rw [goDoorbells_served hw (doorbellRead_of_enabled hd he), if_neg (Nat.not_le.mpr hr)]
    rfl
  · rw [goDoorbells_served hw (doorbellRead_of_enabled hd he), if_pos hr]

end

section
/-! SUPPORT. The command header (R48): where its fields stand, which headers are faulty, and what the sequencer does with a faulty one
(R580). -/

namespace Sys2Proof.Machine

open Sys2Proof

theorem headerFault_eq (q : SeqBlk) (c : Nat) :
    headerFault q c = if 7 < hEng c then some 0x01 else if hRsv c ≠ 0 then some 0x02
      else if q.listEnd < q.pc + hLen c then some 0x03 else none := by
  unfold headerFault engKnown
  by_cases h : hEng c ≤ 7
  · simp [h]
  · simp [h, Nat.lt_of_not_le h]

/-- The source that a fault of a command's header names: a reserved ENGINE shows as code 0 (R80). -/
def headerSrc (c : Nat) : FSrc :=
  { eng := if engKnown (hEng c) then hEng c else 0, op := hOp c, pos := if hEng c = 5 then cbits c 8 11 0 * 2 ^ 40 else 0, tag := hTag c }

/-- The engine code 5 is shown where the header names it, and nowhere else. -/
theorem shownEng_eq_five (c : Nat) : (if engKnown (hEng c) then hEng c else 0) = 5 ↔ hEng c = 5 := by
  unfold engKnown
  split <;> simp_all
  omega

/-- A command with a faulty header faults its task with the header's code. -/
theorem issueCmd_of_headerFault {s0 s : State} {i c len code : Nat} {r : CmdRow} {busy : State → Bool} {body : Mc Bool}
    (hh : headerFault (s.pane i).seq c = some code) : issueCmd s0 s i c r len busy body = paneFault s i code (headerSrc c) := by
  unfold issueCmd headerSrc
  rw [hh]
  simp only [stopCmd, shownEng_eq_five, and_true]

/-- A command of any row that is read from the list with a faulty header faults its task. -/
theorem runCmdLen_of_headerFault {s s1 : State} {i c len code : Nat} {r : CmdRow} {busy : State → Bool} {body : Mc Bool}
    (hu : waitsToStart s i c r = false) (hm : mayIssue s i = true) (hr : runMc (readCmd i c) s = (.ok true, s1))
    (hh : headerFault (s1.pane i).seq c = some code) : runCmdLen s i c r len busy body = paneFault s1 i code (headerSrc c) := by
  unfold runCmdLen
  rw [hu, hm, hr]
  exact issueCmd_of_headerFault hh

theorem exec_nop (i c : Nat) (s : State) :
    exec (.nop i c) s = answer s (okPane i) (runCmd s i c (seqRow 0) (fun _ => false) (pure true)) := rfl

/-- Every field of Table 2-4 stands in its bits. -/
theorem header_fields {op eng len wait imm rsv tag : Nat} (rest : Nat) (hop : op < 2 ^ 8) (heng : eng < 2 ^ 4) (hlen : len < 2 ^ 4)
    (hwait : wait < 2 ^ 8) (himm : imm < 2) (hrsv : rsv < 2 ^ 7) (htag : tag < 2 ^ 32) :
    let c := op + eng * 2 ^ 8 + len * 2 ^ 12 + wait * 2 ^ 16 + imm * 2 ^ 24 + rsv * 2 ^ 25 + tag * 2 ^ 32 + rest * 2 ^ 64
    hOp c = op ∧ hEng c = eng ∧ hLen c = 16 * (len + 1) ∧ hWait c = wait ∧ hImm c = (imm == 1) ∧ hRsv c = rsv ∧ hTag c = tag := by
  intro c
  have hbit : cbits c 0 24 24 = imm := by simp only [cbits, bits, c]; omega
  refine ⟨?_, ?_, ?_, ?_, by rw [hImm, hbit], ?_, ?_⟩ <;>
    simp only [hOp, hEng, hLen, hWait, hRsv, hTag, cbits, cbytes, bits, c] <;> omega

end Sys2Proof.Machine

open Sys2Proof Sys2Proof.Machine

/-- Settles O58: the fields by the arithmetic of Table 2-4, the codes by the three checks in their order, and the fault of the task
from the one place where a row issues what the sequencer has read. -/
theorem headerFaultsHaveTheirCodes : Obligations.HeaderFaultsHaveTheirCodes := by
  refine ⟨fun op eng len wait imm rsv tag rest => header_fields rest, fun q c he => ?_, fun q c he hr => ?_, fun q c he hr hl => ?_,
    fun q c he hr hl => ?_, fun i c code r busy body s s1 hu hm hr hh => ?_, fun i c code s s1 hi h5 hu hm hr hh => ?_⟩
  · rw [headerFault_eq, if_pos he]
  · rw [headerFault_eq, if_neg (Nat.not_lt.mpr he), if_pos hr]
  · rw [headerFault_eq, if_neg (Nat.not_lt.mpr he), if_neg (not_not.mpr hr), if_pos hl]
  · rw [headerFault_eq, if_neg (Nat.not_lt.mpr he), if_neg (not_not.mpr hr), if_neg (Nat.not_lt.mpr hl)]
  · rw [runCmd, runCmdLen_of_headerFault hu hm hr hh]
    rfl
  · rw [exec_nop, okPane_of_lt hi, answer_on h5, runCmd, runCmdLen_of_headerFault hu hm hr hh]
    rfl

end

section
/-! SUPPORT. The sequencer's own commands (R374, R376, Table 2-6): what the bodies of WAIT and TAKE do for a running task, and the
statement that follows. -/

namespace Sys2Proof.Machine

open Sys2Proof

/-- A started command whose body ends completes. -/
theorem answer_runCmd_completed {s s1 s2 : State} {i c : Nat} {r : CmdRow} {busy : State → Bool} {body : Mc Bool}
    (h5 : s.pwr.st ≠ 5) (hi : i < 144) (hs : startState s i c r busy = some s1) (hf : plainForm c r.len = true)
    (hb : runMc body s1 = (.ok true, s2)) : answer s (okPane i) (runCmd s i c r busy body) = .next (followed s (completed s2 i c r)) :=
  answer_runCmd_of_start (fin := true) h5 hi hs hf hb

/-- A started command whose body goes on stays under way. -/
theorem answer_runCmd_underWay {s s1 s2 : State} {i c : Nat} {r : CmdRow} {busy : State → Bool} {body : Mc Bool}
    (h5 : s.pwr.st ≠ 5) (hi : i < 144) (hs : startState s i c r busy = some s1) (hf : plainForm c r.len = true)
    (hb : runMc body s1 = (.ok false, s2)) : answer s (okPane i) (runCmd s i c r busy body) = .next (followed s (underWay s2 i r.eng)) :=
  answer_runCmd_of_start (fin := false) h5 hi hs hf hb

/-- The running task of a pane. -/
theorem curTask_of_running {i : Nat} {s : State} {t : Task} (h : (s.pane i).task.bind s.taskOf = some t) :
    runMc (curTask i) s = (.ok t, s) := by
  unfold curTask
  rw [runMc_bind_ok (runMc_get s), h]
  rfl

/-- When a WAIT or TAKE is to end of its own: never with a timeout of 0, else after so many units of 64 µs. -/
def waitExpiry (s : State) (c : Nat) : Option Nat := if cbytes c 10 2 = 0 then none else some (s.devTime + cbytes c 10 2 * 64000)

/-- The pane's record of the WAIT or TAKE that blocks it. -/
def waitRecOf (s : State) (c kind : Nat) : WaitRec :=
  { obj := cbytes c 8 2, kind, thr := cbytes c 12 4, expiry := waitExpiry s c, status := 0, tag := hTag c }

/-- The waiter that a WAIT or TAKE sends to the home of its object. -/
def waiterOf (s : State) (c kind : Nat) (t : Task) : Waiter :=
  { obj := cbytes c 8 2, kind, task := t.id, ctx := t.ctx, thr := cbytes c 12 4, expiry := waitExpiry s c, parked := false, tag := hTag c }

/-- A WAIT or TAKE of a running task blocks the sequencer and arrives at its object's home (R374). -/
theorem waitCmd_of_running {i c kind : Nat} {s : State} {t : Task} (h : (s.pane i).task.bind s.taskOf = some t) :
    runMc (waitCmd i c kind) s = (.ok false, arrive (s.modPane i (fun p =>
      { p with blockedAt := some s.devTime, seq := { p.seq with waits := [waitRecOf s c kind] } })) (waiterOf s c kind t)) := by
  unfold waitCmd
  rw [runMc_bind_ok (curTask_of_running h), runMc_bind_ok (runMc_modify _ _), runMc_pure]
  rfl

theorem exec_fence (i c : Nat) (s : State) : exec (.fence i c) s = answer s (okPane i) (runCmd s i c (seqRow 1) (fun _ => false) (do
    let s ← get
    if 1 < (s.pane i).seq.inflight.length then throw .wait else pure true)) := rfl

theorem exec_signal (i c : Nat) (s : State) : exec (.signal i c) s = answer s (okPane i) (runCmd s i c (seqRow 2) (fun _ => false) (do
    failIf (cbytes c 10 2 != 0) 0xA5
    modify (fun s => paneSignal s i (cbytes c 8 2) (cbytes c 12 4) true (paneWrites s i) (hTag c))
    pure false)) := rfl

/-- WAIT is of kind 0, TAKE of kind 1. -/
theorem exec_waitOrTake {kind : Nat} (h : kind < 2) (i c : Nat) (s : State) :
    exec (if kind = 0 then .wait i c else .take i c) s =
      answer s (okPane i) (runCmd s i c (seqRow (3 + kind)) (fun _ => false) (waitCmd i c kind)) := by
  obtain rfl | rfl : kind = 0 ∨ kind = 1 := by omega
  · rfl
  · rfl

theorem exec_endList (i c : Nat) (s : State) : exec (.endList i c) s = answer s (okPane i) (runCmd s i c (seqRow 5) (fun _ => false) (do
    modify (fun s => s.modPane i (fun p => { p with seq := { p.seq with ended := true } }))
    pure true)) := rfl

end Sys2Proof.Machine

open Sys2Proof Sys2Proof.Machine

/-- Settles O9: each of the six rows starts its own body, whose one run is given in its case. -/
theorem sequencerCommandsComplete : Obligations.SequencerCommandsComplete := by
  refine ⟨fun i c s s1 hi h5 hf hs => ?nop, fun i c s s1 hi h5 hf hs hq => ?fence, fun i c s s1 hi h5 hf hs hz => ?signal,
    fun i c s s1 hi h5 hf hs => ?endList, fun i c kind s s1 t hi h5 hf hk hs ht => ?wait⟩
  case nop => exact answer_runCmd_completed h5 hi hs hf (runMc_pure true s1)
  case fence =>
    rw [exec_fence]
    refine answer_runCmd_completed h5 hi hs hf ?_
    rw [runMc_bind_ok (runMc_get s1), if_neg (Nat.not_lt.mpr hq), runMc_pure]
  case signal =>
    rw [exec_signal]
    refine answer_runCmd_underWay h5 hi hs hf ?_
    have hp : (cbytes c 10 2 != 0) = false := by simp [hz]
    rw [hp, runMc_bind_ok (runMc_failIf_false _ _ s1), runMc_bind_ok (runMc_modify _ s1), runMc_pure]
    rfl
  case endList =>
    rw [exec_endList]
    exact answer_runCmd_completed h5 hi hs hf (runMc_bind_ok (runMc_modify _ s1))
  case wait =>
    rw [exec_waitOrTake hk]
    exact answer_runCmd_underWay h5 hi hs hf (waitCmd_of_running ht)

end

section
/-! SUPPORT. When a command starts (R50, R51), and its time limit (R53, R227). -/

namespace Sys2Proof.Machine

open Sys2Proof

/-- A header with a known ENGINE, no reserved bit and a LEN within the list has no fault. -/
theorem headerFault_none {q : SeqBlk} {c : Nat} (he : engKnown (hEng c) = true) (hr : hRsv c = 0) (hl : q.pc + hLen c ≤ q.listEnd) :
    headerFault q c = none := by
  rw [headerFault_eq, if_neg (by simpa [engKnown] using he), if_neg (not_not.mpr hr), if_neg (Nat.not_lt.mpr hl)]

/-- WAITMASK is met when it names no engine with an earlier command under way. -/
theorem waitMet_of_forall {q : SeqBlk} {c : Nat} (h : ∀ e ∈ q.inflight, bit (hWait c) e = false) : waitMet q c = true := by
  simpa [waitMet] using h

/-- A pane's own engine accepts without a slot. -/
theorem bayAccepts_of {s : State} {i eng : Nat} (h : 5 ≤ eng → bayAccepts s i eng = true) : bayAccepts s i eng = true := by
  by_cases h5 : 5 ≤ eng
  · exact h h5
  · simp [bayAccepts, Nat.lt_of_not_le h5]

/-- A pane's own engine uses no slot. -/
theorem taken_of_own {s : State} {i eng : Nat} (h : ¬ 5 ≤ eng) : taken s i eng = s := if_neg h

/-- A command read from the list that passes every check starts in the slot of its pane, which is used (R50, R51). -/
theorem startState_of_listed {s s' : State} {i c : Nat} {r : CmdRow} {busy : State → Bool} (hu : waitsToStart s i c r = false)
    (hm : mayIssue s i = true) (hr : runMc (readCmd i c) s = (.ok true, s')) (hh : headerFault (s'.pane i).seq c = none)
    (he : hEng c = r.eng) (ho : hOp c = r.op) (hk : opKnown r.eng r.op = true) (hw : waitMet (s'.pane i).seq c = true)
    (hq : ∀ u ∈ (s'.pane i).seq.unstarted, u.1 ≠ r.eng) (hz : busy s' = false) (hg : bayAccepts s' i r.eng = true) :
    startState s i c r busy = some (taken (issued s' i c r) i r.eng) := by
  have hq' : ((s'.pane i).seq.unstarted.any (fun u => u.1 == r.eng)) = false := by simpa using hq
  unfold startState
  rw [if_neg (by simp [hu]), if_neg (by simp [hm]), hr]
  simp only [hh, he, ho, hk, hw, hq', hz, hg, Option.isNone_none, beq_self_eq_true, Bool.not_false, Bool.and_self, if_true]

/-- What an issued command leaves in its pane: the list is past it, and it is the last of the incomplete ones. -/
theorem issued_pane (s : State) (i c : Nat) (r : CmdRow) :
    (issued s i c r).pane i = { s.pane i with
      seq := { (s.pane i).seq with pc := (s.pane i).seq.pc + hLen c, inflight := (s.pane i).seq.inflight ++ [r.eng] } } := by
  have hp : (if r.eng = 6 then s.incReg (Reg.PANE_CHSTEPS i) else s).pane i = s.pane i := by
    unfold State.pane
    split <;> simp
  rw [issued, State.modPane_pane, hp]

/-- A command issued before goes on where its engine reads for it already, and else starts in the slot of its pane. -/
theorem startState_of_waiting {s : State} {i c : Nat} {r : CmdRow} {busy : State → Bool} (hu : waitsToStart s i c r = true)
    (hz : busy s = false) (hg : 5 ≤ r.eng → reading s i r.eng = true ∨ bayAccepts s i r.eng = true) :
    startState s i c r busy = some (if reading s i r.eng then unqueued s i c r else taken (unqueued s i c r) i r.eng) := by
  unfold startState
  rw [if_pos hu, if_neg (by simp [hz])]
  cases hrd : reading s i r.eng
  case true => simp
  case false =>
    by_cases h5 : 5 ≤ r.eng
    · have ha : bayAccepts s i r.eng = true := (hg h5).resolve_left (by simp [hrd])
      simp [h5, ha]
    · simp [h5, taken_of_own]

theorem exec_commandTimeLimit (i eng : Nat) (s : State) :
    exec (.commandTimeLimit i eng) s = answer s (okPane i) (settle (timeLimit s i eng)) := rfl

/-- A bounded engine's command that still runs at its limit faults its task (R53). -/
theorem timeLimit_of_running {s : State} {i eng : Nat} (he : eng = 1 ∨ eng = 2 ∨ eng = 3 ∨ eng = 5)
    (hr : 0 < runningOf (s.pane i).seq eng) (hj : eng = 5 → ∀ j ∈ (s.bay (bayOf i)).te.jobs, j.pane = i → j.op ≠ 4 ∧ j.op ≠ 6) :
    timeLimit s i eng = paneFault s i 0x0A (runSrc s i eng) := by
  have hb : engBusy i eng s = true := decide_eq_true hr
  have hn : ¬ (eng = 5 ∧ (s.bay (bayOf i)).te.jobs.any (fun j => j.pane == i && unlimited eng j.op) = true) := by
    rintro ⟨rfl, ha⟩
    obtain ⟨j, hm, hp⟩ := List.any_eq_true.mp ha
    simp only [unlimited, Bool.and_eq_true, Bool.or_eq_true, beq_iff_eq] at hp
    obtain ⟨h4, h6⟩ := hj rfl j hm hp.1
    exact hp.2.2.elim h4 h6
  unfold timeLimit
  rw [if_neg (by simpa using by omega), if_pos hb, if_neg hn]

end Sys2Proof.Machine

open Sys2Proof Sys2Proof.Machine

/-- Settles O10: the start of a command from the list and of one that waits, each by its own lemma about `startState`, and the limit of
a command that runs. -/
theorem commandStartConditions : Obligations.CommandStartConditions := by
  refine ⟨fun i c r busy s s' hu hm hr hk hv hl he ho hop hw hq hz hg => ⟨?_, by rw [issued_pane], by rw [issued_pane]⟩,
    fun i c r busy s hu hz hg => startState_of_waiting hu hz hg, fun i eng s hi h5 he hr hj => ?_⟩
  · exact startState_of_listed hu hm hr (headerFault_none hk hv hl) he ho hop (waitMet_of_forall hw) hq hz (bayAccepts_of hg)
  · rw [exec_commandTimeLimit, okPane_of_lt hi, answer_on h5, timeLimit_of_running he hr hj]
    rfl

end

section
/-! SUPPORT. Fetching (R359 to R363): what a fetch does with a sound entry that needs no dependence record, and the statement that
follows. -/

namespace Sys2Proof.Machine

open Sys2Proof

/-- The state after the entry `e` of queue `q` has become a task: HEAD is written one further, the queue is the one last served, and
the task stands at the end of the list (R360). -/
def fetched (s : State) (b q : Nat) (d e : List Byte) : State :=
  let s3 := (sysPost s (.bay b .fetch) (qdescAddr s b q + 12) (leBytes 2 ((field d 12 2 + 1) % 65536))).modBay b
    (fun x => { x with lastQ := q })
  { s3 with tasks := s3.tasks ++ [entryTask s b q (field d 12 2 % 2 ^ bits (field d 8 4) 19 16) e], taskSeq := s3.taskSeq + 1 }

/-- An entry without a dependence record waits for nothing. -/
theorem readDep_none (b : Nat) (s : State) : runMc (readDep b 0xFFFFFFFF) s = (.ok .none, s) := rfl

/-- A sound entry without a dependence record, for any pane or for one in service, becomes a Ready task (R361). -/
theorem fetchFrom_of_sound {b q : Nat} {d e : List Byte} {s s1 : State}
    (he : runMc (sysRead (.bay b .fetch) (field d 0 8 + 64 * (field d 12 2 % 2 ^ bits (field d 8 4) 19 16)) 64) s = (.ok e, s1))
    (hf : entryFault e (field d 8 2) = none) (hd : field e 20 4 = 0xFFFFFFFF)
    (hp : bit (field e 0 4) 24 = true ∨ numberOut s1 (b * 8 + bits (field e 0 4) 23 21) = false) :
    runMc (fetchFrom b q d) s = (.ok (), makeReady (fetched s1 b q d e) s1.taskSeq) := by
  have ho : (!bit (field e 0 4) 24 && numberOut s1 (b * 8 + bits (field e 0 4) 23 21)) = false := by
    rcases hp with h | h <;> simp [h]
  unfold fetchFrom
  rw [runMc_bind_ok he, runMc_bind_ok (runMc_get s1)]
  simp only [hf, entryTask, ho, hd, Option.isSome_none, Bool.or_self, Bool.false_eq_true, if_false]
  rw [runMc_bind_ok (readDep_none b s1)]
  simp only [runMc_modify, fetched, entryTask, hd]
  rfl

/-- The queue visited first is the one served when it has an entry. -/
theorem visit_of_fetched {b q : Nat} {qs : List Nat} {d : List Byte} {s s1 s2 : State} (hf : runMc (fetchable b q) s = (.ok (some d), s1))
    (he : runMc (fetchFrom b q d) s1 = (.ok (), s2)) : visit s b (q :: qs) = dropNeeds s2 (.bay b .fetch) := by
  unfold visit
  simp only [hf, he]

theorem exec_taskFetch (b : Nat) (s : State) : exec (.taskFetch b) s =
    answer s (okBay b) (if freeEntries s b = 0 then s else settle (visit s b (visitOrder (s.bay b)))) := rfl

end Sys2Proof.Machine

open Sys2Proof Sys2Proof.Machine

/-- Settles O8: the first queue of the order has an entry, and the entry is sound. -/
theorem taskFetchTakesOneEntry : Obligations.TaskFetchTakesOneEntry := by
  intro b q qs d e s s1 s2 hb h5 hfree hv hd he hf hdep t s3 hp
  rw [exec_taskFetch, okBay_of_lt hb, answer_on h5, if_neg hfree, hv, visit_of_fetched hd (fetchFrom_of_sound he hf hdep hp)]
  rfl

end
section
/-! SUPPORT. The pane slot window (R582): what its reads deliver, and that a write of it, being a read-only register, is ignored. -/

namespace Sys2Proof.Machine

open Sys2Proof

/-- A read of PANE_SLOTDATA within the tables delivers the selected entry and moves the index on. -/
theorem paneSlotdataRead_of_le {s : State} {i : Nat} (h : bits (s.regN (Reg.PANE_SLOTSEL i)) 5 0 ≤ 33) :
    paneSlotdataRead s i =
      (tget 0 (s.pane i).slots (bits (s.regN (Reg.PANE_SLOTSEL i)) 5 0 * 256 + bits (s.regN (Reg.PANE_SLOTSEL i)) 15 8),
        s.setField (Reg.PANE_SLOTSEL i) 15 8 ((bits (s.regN (Reg.PANE_SLOTSEL i)) 15 8 + 1) % 256)) := if_neg (Nat.not_lt.mpr h)

/-- Above the last table it delivers 0 and changes nothing. -/
theorem paneSlotdataRead_of_gt {s : State} {i : Nat} (h : 33 < bits (s.regN (Reg.PANE_SLOTSEL i)) 5 0) :
    paneSlotdataRead s i = (0, s) := if_pos h

theorem exec_paneSlotdataRead (i : Nat) (s : State) : exec (.paneSlotdataRead i) s =
    answer s (okPane i) (whenOpen s (Reg.BAY_SLOTDATA (bayOf i)) ((paneSlotdataRead s i).2.readOut (paneSlotdataRead s i).1)) := rfl

/-! ### The window's address -/

theorem slotdata_addr (i : Nat) : Reg.PANE_SLOTDATA i = 0x01000000 + 0x100000 * (i / 9) + 0x10000 + 0x10000 * (i % 9) + 0x20 := rfl

/-- The window lies in the 64 KiB of its own pane. -/
theorem paneAt_slotdata {i : Nat} (hi : i < 144) : paneAt (Reg.PANE_SLOTDATA i) = some i := by
  rw [slotdata_addr]
  unfold paneAt
  rw [if_pos (by omega)]
  congr 1
  omega

theorem slotdata_low {i : Nat} (hi : i < 144) : Reg.PANE_SLOTDATA i < 0x04000000 := by rw [slotdata_addr]; omega

theorem slotdata_high (i : Nat) : 0x01000000 ≤ Reg.PANE_SLOTDATA i := by rw [slotdata_addr]; omega

theorem slotdata_offset (i : Nat) : Reg.PANE_SLOTDATA i % 0x10000 = 0x20 := by rw [slotdata_addr]; omega

/-! ### The window over a path -/

/-- A read of the window over a path, outside a reset, is a read of the loaded entry. -/
theorem readEffect_slotdata {s : State} {i path : Nat} (hi : i < 144) (hr : inReset s (Reg.PANE_SLOTDATA i) = false) :
    readEffect s path (Reg.PANE_SLOTDATA i) = (some (paneSlotdataRead s i).1, (paneSlotdataRead s i).2) := by
  have hh := slotdata_high i
  have hne : ∀ a, a < 0x01000000 → Reg.PANE_SLOTDATA i ≠ a := fun a ha he => by omega
  unfold readEffect
  simp only [hr, hne _ (show Reg.CTL_TIME_LO < 0x01000000 by decide), hne _ (show Reg.SEC_FPDATA < 0x01000000 by decide),
    hne _ (show Reg.DBG_MDATA < 0x01000000 by decide), hne _ (show Reg.DBG_TRCDATA < 0x01000000 by decide),
    hne _ (show Reg.LOG_DATA < 0x01000000 by decide), Nat.not_lt.mpr hh, paneAt_slotdata hi, slotdata_offset i, Bool.false_eq_true,
    if_false, if_true]

/-- The window is a read-only register of its pane's block. -/
theorem regRow_slotdata {i : Nat} (hi : i < 144) : regRow (Reg.PANE_SLOTDATA i) = some ⟨0x20, .ro, 0x0, 0x0⟩ := by
  have ho : Reg.PANE_SLOTDATA i % 0x100000 = 0x10000 + 0x10000 * (i % 9) + 0x20 := by rw [slotdata_addr]; omega
  have hr : regRows (Reg.PANE_SLOTDATA i) = (paneRows, 0x20) := by
    have hh := slotdata_high i
    have hl : Reg.PANE_SLOTDATA i < 0x02000000 := by rw [slotdata_addr]; omega
    unfold regRows
    rw [if_neg (by omega), if_neg (by omega), if_neg (by omega), if_neg (by omega), if_neg (by omega), if_neg (by omega),
      if_neg (by omega), if_neg (by omega), if_pos hl]
    dsimp only
    rw [ho, if_neg (by omega), if_pos (by omega), if_pos (by omega)]
    congr 1
    omega
  rw [regRow, hr]
  rfl

/-- A write of it over a path changes nothing. -/
theorem writeEffect_slotdata {i : Nat} (s : State) (path v : Nat) (hi : i < 144) : writeEffect s path (Reg.PANE_SLOTDATA i) v = s := by
  have hh := slotdata_high i
  unfold writeEffect plainWrite
  rw [if_neg (by omega), if_neg (by omega), if_neg (by omega)]
  simp [paneAt_slotdata hi, slotdata_offset i, regRow_slotdata hi]

theorem exec_smbusRead (a : Nat) (s : State) :
    exec (.smbusRead a) s = answer s (decide (a < 2 ^ 32)) (settle (rowAccess s 1 a 0 false)) := rfl

theorem exec_registerWrite (path a v : Nat) (s : State) : exec (.registerWrite path a v) s =
    answer s (decide (okPath path ∧ a < 2 ^ 32 ∧ v < 2 ^ 32)) (settle (rowAccess s path a v true)) := rfl

end Sys2Proof.Machine

open Sys2Proof Sys2Proof.Machine

/-- Settles O15: the row reads the window itself, and the two rows over a path reach it at its own address. -/
theorem paneSlotWindowMovesOn : Obligations.PaneSlotWindowMovesOn := by
  refine ⟨fun i s hi ho ht => ?_, fun i s hi ho ht => ?_, fun i s hi h5 hu hb hr ha ht => ?_, fun i path v s hi h1 h3 hv h5 hu hb ha => ?_⟩
  · rw [exec_paneSlotdataRead, okPane_of_lt hi, answer_open ho, paneSlotdataRead_of_le ht]
  · rw [exec_paneSlotdataRead, okPane_of_lt hi, answer_open ho, paneSlotdataRead_of_gt ht]
  · have hl := slotdata_low hi
    have hw : readEffect s 1 (resolve s (Reg.PANE_SLOTDATA i)) = (some 0, s) := by
      rw [resolve_low s _ hl, readEffect_slotdata hi hr, paneSlotdataRead_of_gt ht]
    rw [exec_smbusRead, decide_eq_true (by omega), answer_on h5, rowAccess_read h5 hu hb ha hw]
    rfl
  · have hl := slotdata_low hi
    have hw : writeEffect s path (resolve s (Reg.PANE_SLOTDATA i)) v = s := by
      rw [resolve_low s _ hl, writeEffect_slotdata s path v hi]
    have hn : resolve s (Reg.PANE_SLOTDATA i) ≠ Reg.DBG_FDATA := by
      have hh := slotdata_high i
      rw [resolve_low s _ hl, Reg.DBG_FDATA]
      omega
    rw [exec_registerWrite, decide_eq_true ⟨okPath_of_range h1 h3, by omega, hv⟩, answer_on h5,
      rowAccess_write h5 hu hb ha hn (by rw [hw]), hw]
    rfl

end

section
/-! SUPPORT. The steps of a context switch (Table 2-8, R65 to R71): what each of them does when it may end, and the statement that
follows. -/

namespace Sys2Proof.Machine

open Sys2Proof

theorem exec_switchDrained (i : Nat) (s : State) :
    exec (.switchDrained i) s = answer s (okPane i) (if drained s i then settle (switchDrained s i) else s) := rfl

theorem exec_switchSaveDone (i : Nat) (s : State) :
    exec (.switchSaveDone i) s = answer s (okPane i) (settle (switchSaved s i)) := rfl

theorem exec_switchRestoreDone (i : Nat) (s : State) :
    exec (.switchRestoreDone i) s = answer s (okPane i) (settle (switchRestored s i)) := rfl

/-- A drained pane stops its streams and gives up what its engines have read. -/
def quiesced (s : State) (i : Nat) : State := (List.range 8).foldl (fun s e => dropFetched s i e) (stopStreams s i)

/-- The waits of a switch's outgoing task, if it still has one, are parked (R381). -/
def parkOutgoing (s : State) (w : Switch) : State := match w.outTask with | some t => parkWaits s t | none => s

/-- Step 2 ends: the outgoing task's waits are parked and the save begins (R381). -/
theorem switchDrained_of_switch {s : State} {i : Nat} {w : Switch} (hw : ((quiesced s i).pane i).sw = some w) :
    switchDrained s i = (parkOutgoing (quiesced s i) w).modPane i (fun p => { p with sw := some { w with step := 4, laid := false } }) := by
  unfold quiesced at hw
  unfold switchDrained
  simp only [hw]
  rfl

/-- The task that a switch names and the task list holds. -/
theorem isSome_of_bind {s : State} {n : Option Nat} {t : Task} (h : n.bind s.taskOf = some t) : n.isSome = true := by
  cases n
  · cases h
  · rfl

/-- Changing a pane keeps the tasks. -/
theorem modPane_taskOf (s : State) (i : Nat) (f : Pane → Pane) : (s.modPane i f).taskOf = s.taskOf := rfl

/-- Step 4 ends: what the incoming claim overlaps leaves its owners, and the outgoing task its pane (R67, R69). -/
theorem switchSaved_of_ready {s : State} {i : Nat} {w : Switch} {t u : Task} (hr : swReady (s.pane i) 4 = true)
    (hw : (s.pane i).sw = some w) (ho : w.outTask.bind s.taskOf = some t) (hi : w.inTask.bind s.taskOf = some u) :
    switchSaved s i =
      (leaveTo (idlePane (s.modPane i (fun p => overlapSaved p u)) i false) t.id w.outState
        (saveBlk (s.modPane i (fun p => overlapSaved p u)) i)).modPane i (fun p =>
          { p with sw := p.sw.map (fun v => { v with step := 5, outTask := none, laid := false }) }) := by
  unfold switchSaved
  simp only [hw, hr, hi, modPane_taskOf, ho, isSome_of_bind hi, Bool.not_true, Bool.false_eq_true, if_false, if_true]

/-- Step 5 ends: the claim is resident, and the task runs, or its slot set comes first (R57, R69, R366). -/
theorem switchRestored_of_ready {s s1 : State} {i : Nat} {r : List Byte} {w : Switch} {t : Task} (hr : swReady (s.pane i) 5 = true)
    (hw : (s.pane i).sw = some w) (hi : w.inTask.bind s.taskOf = some t) (hs : runMc (startRecord i t.id t.ctx) s = (.ok r, s1)) :
    let u := { t with saved := t.saved.map (fun b => restoreStreams b w.got) }
    let s2 := (s1.modPane i (fun p => claimRestored p t)).modTask t.id (fun x => { x with saved := u.saved })
    switchRestored s i = if w.interrupt || (s.pane i).slotSet == some (t.ctx, slotSetAt t r)
      then resumeWaits (launch s2 i u r) i else modSw s2 i (fun v => { v with step := 6, laid := false }) := by
  intro u s2
  unfold switchRestored
  simp only [hw, hr, hi, hs, Bool.not_true, Bool.false_eq_true, if_false]
  rfl

/-- Step 6 ends as its pages have come: the slot set takes effect and the task runs (R57, R65). -/
theorem goSwitch_of_loaded {s s1 : State} {i : Nat} {r : List Byte} {w : Switch} {t : Task} (hst : (s.pane i).stalled = false)
    (hw : (s.pane i).sw = some w) (h6 : w.step = 6) (hl : w.laid = true) (hd : w.todo = []) (hp : w.page = none)
    (hi : w.inTask.bind s.taskOf = some t) (hs : runMc (startRecord i t.id t.ctx) s = (.ok r, s1)) :
    goSwitch s i = slotsLoaded s1 i t r w.got := by
  unfold goSwitch
  simp [hw, hst, h6, hl, hd, hp, hi, hs]

end Sys2Proof.Machine

open Sys2Proof Sys2Proof.Machine

/-- Settles O13, a clause for each step's end. -/
theorem contextSwitchSteps : Obligations.ContextSwitchSteps := by
  refine ⟨fun i s w hi h5 hd hw => ?_, fun i s w t u hi h5 hr hw ho hn => ?_, fun i s s1 r w t hi h5 hr hw hn hs => ?_,
    fun i s s1 r w t hst hw h6 hl hd hp hn hs => goSwitch_of_loaded hst hw h6 hl hd hp hn hs⟩
  · rw [exec_switchDrained, okPane_of_lt hi, answer_on h5, if_pos hd, switchDrained_of_switch hw]
    rfl
  · intro s1
    rw [exec_switchSaveDone, okPane_of_lt hi, answer_on h5, switchSaved_of_ready hr hw ho hn]
    rfl
  · intro u s2
    rw [exec_switchRestoreDone, okPane_of_lt hi, answer_on h5, switchRestored_of_ready hr hw hn hs]
    rfl

end

section
/-! SUPPORT. Slot tables (R46, R55 to R58, R117, R581, R582): the windows of a bay's tables, the slots of a pane's banks and ports and of
a bay engine's commands, and the end of a slot. -/

namespace Sys2Proof.Machine

open Sys2Proof

/-! ### The windows of a bay's tables -/

theorem exec_baySlotdataWrite (b v : Nat) (s : State) :
    exec (.baySlotdataWrite b v) s = answer s (okBay b) (whenOpen s (Reg.BAY_SLOTDATA b) (stageSlot s b v)) := rfl

theorem exec_baySlotdataRead (b : Nat) (s : State) : exec (.baySlotdataRead b) s =
    answer s (okBay b) (whenOpen s (Reg.BAY_SLOTDATA b) ((slotdataRead s b).2.readOut (slotdataRead s b).1)) := rfl

/-- With no commit of the bay pending a write of the window stages the selected entry and moves the index on (R581). -/
theorem stageSlot_of_free {s : State} {b v k n j : Nat} (hc : s.mgmt.commits.contains (1 + b * 2 ^ 8) = false)
    (hs : slotSel s b = some (k, n, j)) : stageSlot s b v =
      slotNext (s.modBay b (fun x => { x with slotStaged := tset none x.slotStaged (slotKey k n j) (some (v % 65536)) })) b k j := by
  rw [stageSlot, if_neg (Bool.eq_false_iff.mp hc), slotdataWrite, hs]

/-- While one is pending the control die holds the write (R486). -/
theorem stageSlot_of_pending {s : State} {b : Nat} (v : Nat) (hc : s.mgmt.commits.contains (1 + b * 2 ^ 8) = true) : stageSlot s b v =
      { s with mgmt := { s.mgmt with held := s.mgmt.held ++ [{ addr := Reg.BAY_SLOTDATA b, value := v }] } } := if_pos hc

/-- A read of the window delivers the entry in force and moves the index on. -/
theorem slotdataRead_of_sel {s : State} {b k n j : Nat} (hs : slotSel s b = some (k, n, j)) :
    slotdataRead s b = (slotEntry s b k n j, slotNext s b k j) := by
  rw [slotdataRead, hs]

/-! ### Slots of a pane's banks and ports -/

theorem exec_scratchpadBankSlot (i bank : Nat) (r : SramReq) (s : State) :
    exec (.scratchpadBankSlot i bank r) s = answer s (okPane i && decide (bank < 32)) (settle (bankSlot s i bank r)) := rfl

theorem exec_accumulatorPortSlot (i port : Nat) (r : SramReq) (s : State) :
    exec (.accumulatorPortSlot i port r) s = answer s (okPane i && decide (port < 2)) (settle (portSlot s i port r)) := rfl

/-- A slot that names the engine which asks performs its access (R55). -/
theorem localServe_of_named {s s1 s2 : State} {i table eng e j : Nat} {act : Mc Unit} (hl : localSlot s i table = (e, j, s1))
    (h7 : eng ≤ 7) (ht : (s1.pane i).task.isSome = true) (hh : holdsLocal (s1.pane i) table eng = true) (hv : bit e 4 = true)
    (he : bits e 3 0 = eng) (ha : runMc act s1 = (.ok (), s2)) : localServe s i table eng act = s2 := by
  have hn : ¬ (7 < eng ∨ (s1.pane i).task.isNone = true) := by
    rintro (h | h)
    · omega
    · rw [Option.isNone_iff_eq_none.mp h] at ht
      cases ht
  unfold localServe
  simp only [hl]
  rw [if_neg hn, if_neg (by simp [hh]), if_pos (by simp [hv, he]), ha]

/-- A bank's access in the bank itself, outside the bank's self-test, is served in the slot. -/
theorem bankSlot_of_inside {s : State} {i bank : Nat} {r : SramReq} (h7 : r.eng ≤ 7) (hb : r.addr / 64 % 32 = bank) :
    let s0 := s.modPane i (fun p => { p with spErr := eccUpset p.spErr (r.upsets.filter (fun u => u.1 / 64 % 32 == bank)) })
    bankTested s0 i bank = false → bankSlot s i bank r = localServe s0 i bank r.eng
      (if r.wr then spWrite i r.eng (r.addr / 64 * 64) (leBytes 64 r.data)
        else (do let _ ← spRead i r.eng (r.addr / 64 * 64) 64; pure ())) := by
  intro s0 ht
  unfold bankSlot
  dsimp only
  rw [if_neg (Bool.eq_false_iff.mp ht), if_neg (by omega)]

/-- A port's write, of a row in a tile that the task claims, stores the row's bytes (R117). -/
theorem portWrite_of_claimed {s : State} {i : Nat} {r : SramReq} {t : Task} (ht : (s.pane i).task.bind s.taskOf = some t)
    (ha : r.addr / 256 * 256 < 0x200000) (hm : bit t.accmask (r.addr / 256 * 256 / 0x4000) = true) (hw : r.wr = true) :
    runMc (do
      let a := r.addr / 256 * 256
      let t ← curTask i
      failIf (decide (0x200000 ≤ a) || !bit t.accmask (a / 0x4000)) 0x06
      if r.wr then modify (fun s => accStore s i ((leBytes 256 r.data).mapIdx (fun k b => (a + k, b))))
      else
        let _ ← accRead i r.eng a 256
        pure ()) s = (.ok (), accStore s i ((leBytes 256 r.data).mapIdx (fun k b => (r.addr / 256 * 256 + k, b)))) := by
  have hf : (decide (0x200000 ≤ r.addr / 256 * 256) || !bit t.accmask (r.addr / 256 * 256 / 0x4000)) = false := by simp [hm, ha]
  dsimp only
  rw [runMc_bind_ok (curTask_of_running ht), hf, runMc_bind_ok (runMc_failIf_false _ _ s), if_pos hw, runMc_modify]

/-! ### Slots of a bay engine's commands, and the end of a slot -/

theorem exec_bayEngineCommandSlot (b eng : Nat) (s : State) :
    exec (.bayEngineCommandSlot b eng) s = answer s (okBay b && decide (5 ≤ eng ∧ eng ≤ 7)) (cmdSlot s b eng) := rfl

/-- The committed entries of a table, and of no other, come in force at its frame's end (R58). -/
theorem dueNow_eq (x : Bay) (kind inst : Nat) : dueNow x kind inst = { x with
    slotIn := tsetAll none x.slotIn (x.slotDue.filter (fun e => e.1 / 2 ^ 13 == kind * 32 + inst))
    slotDue := x.slotDue.filter (fun e => e.1 / 2 ^ 13 != kind * 32 + inst) } := by
  unfold dueNow
  rw [List.partition_eq_filter_filter]
  by_cases hd : x.slotDue.filter (fun e => e.1 / 2 ^ 13 == kind * 32 + inst) = []
  · have hr : x.slotDue.filter (fun e => e.1 / 2 ^ 13 != kind * 32 + inst) = x.slotDue := by
      simpa [List.filter_eq_nil_iff, List.filter_eq_self] using hd
    simp only [hd, hr, List.isEmpty_nil, if_true]
    rfl
  · simp only [List.isEmpty_iff, hd, if_false]
    rfl

/-- Within a frame a slot's end moves the table's position on. -/
theorem frameStep_within {x : Bay} {kind inst : Nat} (h : (tget 0 x.framePos (kind * 32 + inst) + 1) % frameLen kind ≠ 0) :
    frameStep x kind inst = { x with
      framePos := tset 0 x.framePos (kind * 32 + inst) ((tget 0 x.framePos (kind * 32 + inst) + 1) % frameLen kind) } := if_neg h

/-- Past the last slot the committed entries come in force as well. -/
theorem frameStep_end {x : Bay} {kind inst : Nat} (h : (tget 0 x.framePos (kind * 32 + inst) + 1) % frameLen kind = 0) :
    frameStep x kind inst = dueNow { x with
      framePos := tset 0 x.framePos (kind * 32 + inst) ((tget 0 x.framePos (kind * 32 + inst) + 1) % frameLen kind) } kind inst := if_pos h

/-- In both cases the table's position is one further, and 0 past the last slot. -/
theorem frameStep_framePos (x : Bay) (kind inst : Nat) : (frameStep x kind inst).framePos =
    tset 0 x.framePos (kind * 32 + inst) ((tget 0 x.framePos (kind * 32 + inst) + 1) % frameLen kind) := by
  by_cases h : (tget 0 x.framePos (kind * 32 + inst) + 1) % frameLen kind = 0
  · rw [frameStep_end h, dueNow_eq]
  · rw [frameStep_within h]

end Sys2Proof.Machine

open Sys2Proof Sys2Proof.Machine

/-- Settles O14: the two windows by their cases, the two local slots by the access that they perform, the command slot by its own effect,
and a slot's end by its place in the frame. -/
theorem slotTablesAndLocalSlots : Obligations.SlotTablesAndLocalSlots := by
  refine ⟨fun b v k n j s hb ho hc hs => ?write, fun b v s hb ho hc => ?held, fun b k n j s hb ho hs => ?read,
    fun i bank r s s1 s2 e j hi hk h5 h7 ha ht hl hq hh hv he hr => ?bank,
    fun i port r s s1 e j t hi hk h5 h7 hl hq hh hv he ha hm hw => ?port,
    fun b eng s hb hlo hhi h5 => ?command, fun x kind inst => ⟨frameStep_framePos x kind inst, frameStep_within, fun h => ?due⟩⟩
  case write =>
    rw [exec_baySlotdataWrite, okBay_of_lt hb, answer_open ho, stageSlot_of_free hc hs]
    rfl
  case held => rw [exec_baySlotdataWrite, okBay_of_lt hb, answer_open ho, stageSlot_of_pending v hc]
  case read =>
    rw [exec_baySlotdataRead, okBay_of_lt hb, answer_open ho, slotdataRead_of_sel hs]
    rfl
  case bank =>
    rw [exec_scratchpadBankSlot, okPane_of_lt hi, decide_eq_true hk, Bool.and_self, answer_on h5, bankSlot_of_inside h7 ha ht,
      localServe_of_named hl h7 hq hh hv he hr]
    rfl
  case port =>
    rw [exec_accumulatorPortSlot, okPane_of_lt hi, decide_eq_true hk, Bool.and_self, answer_on h5, portSlot]
    dsimp only
    rw [localServe_of_named hl h7 (isSome_of_bind hq) hh hv he (portWrite_of_claimed hq ha hm hw)]
    rfl
  case command =>
    intro e
    rw [exec_bayEngineCommandSlot, okBay_of_lt hb, decide_eq_true ⟨hlo, hhi⟩, Bool.and_self, answer_on h5]
    rfl
  case due =>
    rw [frameStep_end h, dueNow_eq]
    exact ⟨rfl, rfl⟩

end

section
/-! SUPPORT. A slot of a memory channel (R60 to R63, R292, R302): what comes before the slot is given, what it can carry, and what each of
its three uses does. -/

namespace Sys2Proof.Machine

open Sys2Proof

/-- The slot of a channel that comes up once the disturbances have struck: index, entry, class, whether it is skipped or idle, and the
state in which the frame and its owner's step have moved on (R60, R61). -/
def chanOpened (s : State) (b ch : Nat) (ups : List (Nat × Nat)) : Nat × Nat × Nat × Bool × State :=
  nextSlot (disturb s b ch ups) b 0 ch (chanSkips ((disturb s b ch ups).bay b).mem ch)

/-- What happens before the slot is given: requests without a slot in the frame fault, and updates merge into the buffer (R59, R209). -/
def chanCleared (n : Nat × Nat × Nat × Bool × State) (b ch : Nat) : State :=
  mergeUpdates (violations n.2.2.2.2 0 n.1 ((atChan n.2.2.2.2 b ch).filter (fun a =>
    checked a && !holdsSlot n.2.2.2.2 b 0 ch (chanOwner n.2.2.2.2 a).1 (chanOwner n.2.2.2.2 a).2.1 (chanOwner n.2.2.2.2 a).2.2))) b ch

/-- What a slot with entry `e` and class `cls` can carry: accesses of its owner that are ready, and lines of updates. -/
def chanCan (s : State) (b ch e cls : Nat) : List Access :=
  ((atChan s b ch).filter (fun a => chanNames s e a && classFits cls a && accReady s a))
    ++ (updWrites s b ch).filter (fun a => chanNames s e a && classFits cls a)

/-- What the slot carries beside a served access of at most 32 bytes: the first other such one on the other pseudo-channel (R292). -/
def chanSecond (s : State) (b ch e cls : Nat) (a : Access) : Option Access :=
  firstOf s ((chanCan s b ch e cls).filter (fun x => x.id != a.id && decide (x.len ≤ 32) && x.pa / 32 % 2 != a.pa / 32 % 2))

/-- The slot serves an access, and after a short one a second. -/
def chanServed (s : State) (b ch e cls : Nat) (a : Access) : State :=
  if a.len ≤ 32 then
    match chanSecond (serveOne s b a) b ch e cls a with
    | some x => serveOne (serveOne s b a) b x
    | none => serveOne s b a
  else serveOne s b a

theorem chanServed_pair {s : State} {b ch e cls : Nat} {a x : Access} (hl : a.len ≤ 32)
    (h : chanSecond (serveOne s b a) b ch e cls a = some x) : chanServed s b ch e cls a = serveOne (serveOne s b a) b x := by
  rw [chanServed, if_pos hl, h]

theorem chanServed_single {s : State} {b ch e cls : Nat} {a : Access} (hl : a.len ≤ 32)
    (h : chanSecond (serveOne s b a) b ch e cls a = none) : chanServed s b ch e cls a = serveOne s b a := by
  rw [chanServed, if_pos hl, h]

theorem chanServed_long {s : State} {b ch e cls : Nat} {a : Access} (hl : ¬ a.len ≤ 32) : chanServed s b ch e cls a = serveOne s b a :=
  if_neg hl

/-- The slot is given to the first that it can carry; with none that waits of its owner it is idle (R62, R302). -/
def chanGiven (s : State) (b ch e cls : Nat) : State :=
  match firstOf s (chanCan s b ch e cls) with
  | none => if (atChan s b ch).any (chanNames s e) then s else idleSlot s b ch
  | some a => chanServed s b ch e cls a

theorem chanGiven_of_first {s : State} {b ch e cls : Nat} {a : Access} (h : firstOf s (chanCan s b ch e cls) = some a) :
    chanGiven s b ch e cls = chanServed s b ch e cls a := by
  unfold chanGiven
  rw [h]

theorem chanGiven_of_idle {s : State} {b ch e cls : Nat} (h : firstOf s (chanCan s b ch e cls) = none)
    (hw : (atChan s b ch).any (chanNames s e) = false) : chanGiven s b ch e cls = idleSlot s b ch := by
  unfold chanGiven
  rw [h]
  exact if_neg (Bool.eq_false_iff.mp hw)

/-- A slot of a channel is skipped or given. -/
theorem chanSlot_eq (s : State) (b ch : Nat) (ups : List (Nat × Nat)) : chanSlot s b ch ups =
    if (chanOpened s b ch ups).2.2.2.1 then chanCleared (chanOpened s b ch ups) b ch
    else chanGiven (chanCleared (chanOpened s b ch ups) b ch) b ch (chanOpened s b ch ups).2.1 (chanOpened s b ch ups).2.2.1 := by
  unfold chanSlot chanOpened chanCleared
  dsimp only
  generalize nextSlot (disturb s b ch ups) b 0 ch (chanSkips ((disturb s b ch ups).bay b).mem ch) = n
  obtain ⟨j, e, cls, skip, t⟩ := n
  rfl

theorem chanSlot_of_skipped {s : State} {b ch : Nat} {ups : List (Nat × Nat)} (h : (chanOpened s b ch ups).2.2.2.1 = true) :
    chanSlot s b ch ups = chanCleared (chanOpened s b ch ups) b ch := by
  rw [chanSlot_eq, if_pos h]

theorem chanSlot_of_given {s : State} {b ch : Nat} {ups : List (Nat × Nat)} (h : (chanOpened s b ch ups).2.2.2.1 = false) :
    chanSlot s b ch ups =
      chanGiven (chanCleared (chanOpened s b ch ups) b ch) b ch (chanOpened s b ch ups).2.1 (chanOpened s b ch ups).2.2.1 := by
  rw [chanSlot_eq, if_neg (Bool.eq_false_iff.mp h)]

theorem exec_memoryChannelSlot {s : State} {b ch : Nat} (ups : List (Nat × Nat)) (hb : b < 16) (hc : ch < 32) (h5 : s.pwr.st ≠ 5) :
    exec (.memoryChannelSlot b ch ups) s = .next (followed s (chanSlot s b ch ups)) := by
  show answer s (okBay b && decide (ch < 32)) (settle (chanSlot s b ch ups)) = _
  rw [okBay_of_lt hb, decide_eq_true hc, Bool.and_self, answer_on h5]
  rfl

end Sys2Proof.Machine

open Sys2Proof Sys2Proof.Machine

/-- Settles O16: the slot is skipped, given to the first access that it can carry, or idle. -/
theorem memoryChannelSlotServes : Obligations.MemoryChannelSlotServes := by
  intro b ch ups s hb hc h5 s1 n s2 can
  rw [exec_memoryChannelSlot ups hb hc h5]
  refine ⟨fun hk => ?skipped, fun a hk hf => ?served, fun hk hf hw => ?idle⟩
  case skipped =>
    rw [chanSlot_of_skipped hk]
    rfl
  case served =>
    have h : chanSlot s b ch ups = chanServed s2 b ch n.2.1 n.2.2.1 a := (chanSlot_of_given hk).trans (chanGiven_of_first hf)
    rw [h]
    by_cases hl : a.len ≤ 32
    · rw [if_pos hl]
      split
      case h_1 x hx => rw [chanServed_pair hl hx]
      case h_2 hx => rw [chanServed_single hl hx]
    · rw [if_neg hl, chanServed_long hl]
  case idle =>
    have h : chanSlot s b ch ups = idleSlot s2 b ch := (chanSlot_of_given hk).trans (chanGiven_of_idle hf hw)
    rw [h]

end

section
/-! SUPPORT. Slots of lintel ports (R56, R60, R519, R576) and tabulation line updates (R209): what a slot carries, and the read, the
computation and the write of a line. -/

namespace Sys2Proof.Machine

open Sys2Proof

/-! ### A slot of a port -/

/-- The slot of a port that comes up: index, entry, class, whether it is skipped or idle, and the state in which the frame has moved on. -/
def portOpened (s : State) (b l : Nat) (inward : Bool) : Nat × Nat × Nat × Bool × State :=
  nextSlot s b (if inward then 2 else 1) l (fun _ => linkSkipped s l (b * 2 + b2n inward))

/-- Before the slot is given, transfers that no slot would carry fault (R59). -/
def portCleared (n : Nat × Nat × Nat × Bool × State) (b l : Nat) (inward : Bool) : State :=
  violations n.2.2.2.2 (if inward then 2 else 1) n.1 (portViolators n.2.2.2.2 b l inward)

/-- Transfers that a slot with entry `e` and class `cls` can carry now. -/
def portCan (s : State) (b l : Nat) (inward : Bool) (e cls : Nat) : List Access :=
  (atPort s b l inward).filter (fun a => portNames e a && (ofSwitch a || a.cls == cls) && mayCross s b l inward a)

/-- The first transfer crosses, or fails its check code (R519). -/
def portCarried (s : State) (b l : Nat) (inward bad : Bool) (a : Access) : State :=
  if bad then badTransfer s b l inward a else crossPort s l a

/-- What the slot carries beside a transfer of at most 32 bytes: the first other such one. -/
def portSecond (s : State) (b l : Nat) (inward : Bool) (e cls : Nat) (a : Access) : Option Access :=
  firstOf s ((portCan s b l inward e cls).filter (fun x => x.id != a.id && decide (transferLen x ≤ 32)))

/-- The slot carries a transfer, and after a short one a second. -/
def portServed (s : State) (b l : Nat) (inward bad : Bool) (e cls : Nat) (a : Access) : State :=
  if transferLen a ≤ 32 then
    match portSecond (portCarried s b l inward bad a) b l inward e cls a with
    | some x => crossPort (portCarried s b l inward bad a) l x
    | none => portCarried s b l inward bad a
  else portCarried s b l inward bad a

theorem portServed_pair {s : State} {b l e cls : Nat} {inward bad : Bool} {a x : Access} (hl : transferLen a ≤ 32)
    (h : portSecond (portCarried s b l inward bad a) b l inward e cls a = some x) :
    portServed s b l inward bad e cls a = crossPort (portCarried s b l inward bad a) l x := by
  rw [portServed, if_pos hl, h]

theorem portServed_single {s : State} {b l e cls : Nat} {inward bad : Bool} {a : Access} (hl : transferLen a ≤ 32)
    (h : portSecond (portCarried s b l inward bad a) b l inward e cls a = none) :
    portServed s b l inward bad e cls a = portCarried s b l inward bad a := by
  rw [portServed, if_pos hl, h]

theorem portServed_long {s : State} {b l e cls : Nat} {inward bad : Bool} {a : Access} (hl : ¬ transferLen a ≤ 32) :
    portServed s b l inward bad e cls a = portCarried s b l inward bad a := if_neg hl

/-- The slot is given to the first transfer that it can carry; with none it passes. -/
def portGiven (s : State) (b l : Nat) (inward bad : Bool) (e cls : Nat) : State :=
  match firstOf s (portCan s b l inward e cls) with
  | none => s
  | some a => portServed s b l inward bad e cls a

theorem portGiven_of_first {s : State} {b l e cls : Nat} {inward : Bool} (bad : Bool) {a : Access}
    (h : firstOf s (portCan s b l inward e cls) = some a) :
    portGiven s b l inward bad e cls = portServed s b l inward bad e cls a := by
  rw [portGiven, h]

/-- A slot of a port is skipped or given. -/
theorem portSlotStep_eq (s : State) (b l : Nat) (inward bad : Bool) : portSlotStep s b l inward bad =
    if (portOpened s b l inward).2.2.2.1 then portCleared (portOpened s b l inward) b l inward
    else portGiven (portCleared (portOpened s b l inward) b l inward) b l inward bad (portOpened s b l inward).2.1
      (portOpened s b l inward).2.2.1 := by
  unfold portSlotStep portOpened portCleared
  dsimp only
  generalize nextSlot s b (if inward = true then 2 else 1) l (fun _ => linkSkipped s l (b * 2 + b2n inward)) = n
  obtain ⟨j, e, cls, skip, t⟩ := n
  rfl

theorem portSlotStep_of_first {s : State} {b l : Nat} {inward : Bool} (bad : Bool) {a : Access}
    (h : (portOpened s b l inward).2.2.2.1 = false)
    (hf : firstOf (portCleared (portOpened s b l inward) b l inward) (portCan (portCleared (portOpened s b l inward) b l inward) b l
      inward (portOpened s b l inward).2.1 (portOpened s b l inward).2.2.1) = some a) :
    portSlotStep s b l inward bad = portServed (portCleared (portOpened s b l inward) b l inward) b l inward bad
      (portOpened s b l inward).2.1 (portOpened s b l inward).2.2.1 a := by
  rw [portSlotStep_eq, if_neg (Bool.eq_false_iff.mp h), portGiven_of_first bad hf]

theorem exec_lintelPortSlot {s : State} {b l : Nat} (inward bad : Bool) (hb : b < 16) (hl : l < 4) (h5 : s.pwr.st ≠ 5) :
    exec (.lintelPortSlot b l inward bad) s = .next (followed s (portSlotStep s b l inward bad)) := by
  show answer s (okBay b && decide (l < 4)) (settle (portSlotStep s b l inward bad)) = _
  rw [okBay_of_lt hb, decide_eq_true hl, Bool.and_self, answer_on h5]
  rfl

/-! ### The update of a line -/

/-- An update that its slot serves whole, and that the controller does not refuse, has its line in the update buffer. -/
theorem serveAcc_of_update {s s1 : State} {b : Nat} {a : Access} {d : List Byte} (hu : isUpdate a = true)
    (hh : ∀ f m, a.purpose ≠ .host f m) (ht : ofAttest s a = false) (hl : a.len ≤ 64 * (a.sent + 1))
    (hr : runMc (ctxRead a.ctx (localPa a.pa) a.len (chipOf s a) a.oldOwner) s = (.ok d, s1)) :
    serveAcc s b a = s1.modMem b (fun m => { m with upd := m.upd ++ [{ acc := { a with sent := 0 }, old := d }] }) := by
  unfold serveAcc
  dsimp only
  rw [if_neg (Nat.not_lt.mpr hl)]
  split
  case h_1 f m hp => exact absurd hp (hh f m)
  case h_2 ho _ | h_3 ho _ | h_4 ho _ | h_5 ho _ => simp [isUpdate, ho] at hu
  case h_6 =>
    unfold atController
    rw [if_neg (Bool.eq_false_iff.mp ht), hr]

/-- LINE_UPDATE computes the oldest line of a channel in service, over every update merged into it. -/
theorem lineUpdate_of_oldest {s : State} {b : Nat} {u : Upd} (h : (s.bay b).mem.upd.find? (canUpdate s b) = some u) :
    lineUpdate s b = s.modMem b (fun m => { m with upd := m.upd.map (fun x =>
      if x.acc.id = u.acc.id then { x with new := some ((x.acc :: x.more).foldl (fun d a => updated a d) x.old) } else x) }) := by
  rw [lineUpdate, h]

theorem exec_lineUpdate (b : Nat) (s : State) : exec (.lineUpdate b) s = answer s (okBay b) (settle (lineUpdate s b)) := rfl

/-- Every update of a line hears of its end. -/
def answerUpd (s : State) (x : Access) : State :=
  match s.accs.find? (fun a => a.id == x.id) with
  | some a => accAnswer s a a.data none
  | none => s

/-- A computed line of which the companion holds nothing is stored whole, leaves the buffer, and every update in it is answered. -/
theorem writeUpd_of_computed {s : State} {b : Nat} {u : Upd} {d : List Byte} (hn : u.new = some d)
    (hl : u.acc.len ≤ 64 * (u.acc.sent + 1)) (hd : (linesIn (localPa u.acc.pa) u.acc.len).all (fun l => (dirLine s b l).isNone) = true) :
    writeUpd s b u = (u.acc :: u.more).foldl answerUpd ((storeBytes s (localPa u.acc.pa) d).modMem b (fun m =>
      { m with upd := m.upd.filter (fun x => x.acc.id != u.acc.id) })) := by
  have hf : (linesIn (localPa u.acc.pa) u.acc.len).find? (fun l => (dirLine s b l).isSome) = none := by
    simpa [List.find?_eq_none] using hd
  unfold writeUpd
  simp only [hf, hn]
  rw [if_neg (Nat.not_lt.mpr hl)]
  rfl

end Sys2Proof.Machine

open Sys2Proof Sys2Proof.Machine

/-- Settles O17: a port's slot by what its first transfer leaves room for, and the read, the computation and the write of a line. -/
theorem lintelSlotsAndLineUpdates : Obligations.LintelSlotsAndLineUpdates := by
  refine ⟨fun b l inward bad s a hb hl h5 => ?port, fun b s s1 a d hu hh ht hl hr => serveAcc_of_update hu hh ht hl hr,
    fun b s u hb h5 hf => ?update, fun b s u d hn hl hd => writeUpd_of_computed hn hl hd⟩
  case port =>
    intro kind n s2 can hk hf s3
    have h : portSlotStep s b l inward bad = portServed s2 b l inward bad n.2.1 n.2.2.1 a := portSlotStep_of_first bad hk hf
    rw [exec_lintelPortSlot inward bad hb hl h5, h]
    by_cases hs : transferLen a ≤ 32
    · rw [if_pos hs]
      split
      case h_1 x hx =>
        rw [portServed_pair hs hx]
        rfl
      case h_2 hx =>
        rw [portServed_single hs hx]
        rfl
    · rw [if_neg hs, portServed_long hs]
      rfl
  case update =>
    rw [exec_lineUpdate, okBay_of_lt hb, answer_on h5, lineUpdate_of_oldest hf]
    rfl

end

section
/-! SUPPORT. Array commands (R95 to R97, R118): what the body of a MATMUL leaves whenever it ends, what its result write changes, what the
body of a sound DRAIN does, and the statement that follows. -/

namespace Sys2Proof.Machine

open Sys2Proof

/-! ### What an operation leaves whenever it ends -/

/-- Whenever the operation ends without a stop, its answer and the state it leaves satisfy `Q`. -/
def Leaves {α : Type} (Q : α → State → Prop) (m : Mc α) : Prop := ∀ s a t, runMc m s = (.ok a, t) → Q a t

/-- What the last part of an operation leaves, the whole operation leaves. -/
theorem Leaves.bind {α β : Type} {Q : β → State → Prop} {m : Mc α} {f : α → Mc β} (h : ∀ a, Leaves Q (f a)) : Leaves Q (m >>= f) := by
  intro s b t hr
  rw [runMc_bind] at hr
  split at hr
  · exact h _ _ _ _ hr
  · cases hr

/-- An operation that only stops leaves nothing to say. -/
theorem Leaves.of_throw {α : Type} {Q : α → State → Prop} (e : Stop) : Leaves Q (throw e : Mc α) := by
  intro s a t hr
  cases hr

/-- A branch that stops, or else goes on, leaves what going on leaves. -/
theorem Leaves.guard {α : Type} {Q : α → State → Prop} {p : Prop} [Decidable p] {e : Stop} {k : Unit → Mc α} (h : Leaves Q (k ())) :
    Leaves Q (if p then (do let r ← throw e; k r) else k ()) := by
  split
  · exact .bind fun _ => h
  · exact h

/-- Where an operation goes on in the same way from two sources, it leaves what going on leaves. -/
theorem Leaves.join {α β : Type} {Q : β → State → Prop} {p : Prop} [Decidable p] {m n : Mc α} {k : α → Mc β} (h : ∀ a, Leaves Q (k a)) :
    Leaves Q (if p then (do let a ← m; k a) else (do let a ← n; k a)) := by
  split
  · exact .bind h
  · exact .bind h

/-! ### The body of a MATMUL -/

/-- A MATMUL with its result pending (R95): the tile, the tag, the flags and the start that the command `c` names. -/
def MatmulPending (i c : Nat) (fin : Bool) (s : State) : Prop :=
  fin = false ∧ ∃ m, (s.pane i).mat = some m ∧ m.acct = cbits c 24 6 0 ∧ m.long = (cbits c 24 7 7 == 1) ∧ m.tag = hTag c ∧
    m.flags.inprog = !(cbits c 24 10 10 == 1) ∧ m.start = !(cbits c 24 9 8 == 1)

/-- The last action of a MATMUL's body leaves the result that it is given pending. -/
theorem leaves_matmulPending {i c : Nat} {m : MatPending} (ha : m.acct = cbits c 24 6 0) (hl : m.long = (cbits c 24 7 7 == 1))
    (ht : m.tag = hTag c) (hf : m.flags.inprog = !(cbits c 24 10 10 == 1)) (hs : m.start = !(cbits c 24 9 8 == 1)) :
    Leaves (MatmulPending i c) (do modify (fun s => s.modPane i (fun p => { p with mat := some m })); pure false) := by
  intro s fin t hr
  rw [runMc_bind_ok (runMc_modify _ s), runMc_pure] at hr
  cases hr
  exact ⟨rfl, m, by rw [State.modPane_pane], ha, hl, ht, hf, hs⟩

/-- A body of a MATMUL that ends leaves its result pending: past its checks, operands, pass and counters its last action says so. -/
theorem matmulBody_leaves (i c : Nat) : Leaves (MatmulPending i c) (matmulBody i c) := by
  unfold matmulBody
  extract_lets
  iterate 3 refine .bind fun _ => ?_ -- the checks of its own form
  refine .bind fun t => ?_
  split
  case h_1 => exact .of_throw _
  case h_2 =>
    refine .bind fun _ => ?_
    extract_lets
    refine .bind fun s => ?_
    extract_lets
    iterate 5 refine .bind fun _ => ?_ -- the checks against its tile and its claims, and its two panels
    refine .bind fun checked => .guard ?_
    extract_lets
    refine .join fun old => .bind fun u => ?_
    split
    iterate 2 refine .bind fun _ => ?_ -- the use of its area, and the free values it took
    extract_lets
    iterate 5 refine .bind fun _ => ?_ -- its counters
    exact leaves_matmulPending rfl rfl rfl rfl rfl

/-! ### The result write of a MATMUL -/

theorem exec_matmulResultWrite (i : Nat) (s : State) :
    exec (.matmulResultWrite i) s = answer s (okPane i) (if mayRun s i then settle (matWrite s i) else s) := rfl

/-- The end of the overlapped reductions leaves the scratchpad and its stored-bit errors alone. -/
theorem endOverlapped_keeps (p : Pane) (acct : Nat) (long : Bool) :
    (endOverlapped p acct long).sp = p.sp ∧ (endOverlapped p acct long).spErr = p.spErr := by
  unfold endOverlapped
  dsimp only
  split
  · exact ⟨rfl, rfl⟩
  · split <;> exact ⟨rfl, rfl⟩

/-- The result write with a result pending (R95, R118). -/
theorem matWrite_of_pending {s : State} {i : Nat} {m : MatPending} (h : (s.pane i).mat = some m) :
    matWrite s i = cmdDone ((accStore s i m.acc).modPane i (fun p =>
      { setTile (if m.start then endOverlapped p m.acct m.long else p) m.acct m.long m.flags with
        mat := none
        sp := tsetAll 0 p.sp m.sp
        spErr := m.sp.foldl (fun t e => tdel t (e.1 / 4 * 4)) p.spErr })) i 1 1 m.tag := by
  unfold matWrite
  rw [h]
  cases hs : m.start
  case false => simp only [hs, Bool.false_eq_true, if_false]
  case true => simp only [hs, if_true, endOverlapped_keeps]

/-! ### DRAIN -/

/-- A DRAIN sound by the checks of its own form and of its tile's flags `f` (R96, R580). -/
structure SoundDrain (c : Nat) (f : Tile) : Prop where
  reserved : cbits c 12 31 13 = 0
  reservedTail : cbytes c 16 16 = 0
  aligned : cbits c 8 23 0 % 128 = 0
  format : cbits c 8 27 24 < 8
  unsigned : cbits c 8 31 31 = 0 ∨ cbits c 8 27 24 = 5 ∨ cbits c 8 27 24 = 6
  tile : (cbits c 12 7 7 == 1) = false ∨ cbits c 12 6 0 ≤ 5
  shift : cbits c 12 12 8 = 0 ∨ (cbits c 8 27 24 = 5 ∨ cbits c 8 27 24 = 6) ∧ f.kind % 2 = 1
  predicted : f.pred = false ∨ (cbits c 8 28 28 == 1) = true

/-- The results of a DRAIN of the elements `xs` of a tile with flags `f`, each rectified first when RECT is set (R97). -/
def drainResults (c : Nat) (f : Tile) (xs : List Nat) : List CRes :=
  xs.map (fun x => convert (cbits c 8 27 24) (cbits c 8 29 29 == 1) (cbits c 8 31 31 == 1) (cbits c 12 12 8)
    (if cbits c 8 28 28 == 1 then rectify (elemVal f.kind (cbits c 12 7 7 == 1) x) else elemVal f.kind (cbits c 12 7 7 == 1) x))

/-- The bytes that a DRAIN of the results `rs` writes, by rows or as a dense tile (R96). -/
def drainBytes (c : Nat) (rs : List CRes) : List Byte :=
  packElems (fmtBits (cbits c 8 27 24))
    ((drainOrder (cbits c 8 27 24) (cbits c 8 30 30 == 1)).map (fun k => ((rs[k]?).map CRes.out).getD 0))

/-- A task counter of a pane counted up by `n`, which for none is no change (R114). -/
def counted (s : State) (i off n : Nat) : State := if n = 0 then s else s.incReg (paneBase i + off) n

/-- A check whose condition does not hold is passed. -/
theorem runMc_bind_failIf {α : Type} {p : Bool} {code : Nat} {f : Unit → Mc α} {s : State} (h : p = false) :
    runMc (failIf p code >>= f) s = runMc (f ()) s := by
  rw [h, runMc_bind_ok (runMc_failIf_false _ _ s)]

/-- A sound DRAIN names a tile that there is, and shifts only integers to integers. -/
theorem SoundDrain.tile_and_shift {c : Nat} {f : Tile} (h : SoundDrain c f) :
    ((cbits c 12 7 7 == 1 && decide (5 < cbits c 12 6 0)) ||
      (cbits c 12 12 8 != 0 && !((cbits c 8 27 24 == 5 || cbits c 8 27 24 == 6) && f.kind % 2 == 1))) = false := by
  rw [Bool.or_eq_false_iff]
  constructor
  · rcases h.tile with hl | ha
    · simp only [hl, Bool.false_and]
    · simp only [Nat.not_lt.mpr ha, decide_false, Bool.and_false]
  · rcases h.shift with hz | ⟨hf, hk⟩
    · simp [hz]
    · rcases hf with hf | hf <;> simp [hf, hk]

/-- It names a format that there is, unsigned only where that is an integer format. -/
theorem SoundDrain.format_and_sign {c : Nat} {f : Tile} (h : SoundDrain c f) :
    (decide (8 ≤ cbits c 8 27 24) || (cbits c 8 31 31 == 1 && cbits c 8 27 24 != 5 && cbits c 8 27 24 != 6)) = false := by
  rw [Bool.or_eq_false_iff]
  constructor
  · simp only [Nat.not_le.mpr h.format, decide_false]
  · rcases h.unsigned with hs | hf | hf
    · simp [hs]
    · simp [hf]
    · simp [hf]

/-- It rectifies a tile whose values the predictor set to zero. -/
theorem SoundDrain.rectifies {c : Nat} {f : Tile} (h : SoundDrain c f) : (f.pred && !(cbits c 8 28 28 == 1)) = false := by
  rcases h.predicted with hp | hr
  · rw [hp, Bool.false_and]
  · rw [hr, Bool.not_true, Bool.and_false]

/-- A sound DRAIN of a claimed tile writes its converted elements, counts the saturated ones and the NaNs, and ends. -/
theorem drainBody_of_sound {i c : Nat} {s1 s2 s3 : State} {t : Task} {f : Tile} {xs : List Nat}
    (hf : tileFlags (s1.pane i) (cbits c 12 6 0) (cbits c 12 7 7 == 1) = f) (hd : SoundDrain c f)
    (ht : (s1.pane i).task.bind s1.taskOf = some t) (hc : inClaim t (cbits c 8 23 0) (tileBytes (cbits c 8 27 24)) = true)
    (hk : tileClaimed t (cbits c 12 6 0) (cbits c 12 7 7 == 1) = true)
    (hr : runMc (readTile i 1 (cbits c 12 6 0) (cbits c 12 7 7 == 1)) s1 = (.ok xs, s2))
    (hw : runMc (spWrite i 1 (cbits c 8 23 0) (drainBytes c (drainResults c f xs))) s2 = (.ok (), s3)) :
    runMc (drainBody i c) s1 = (.ok true, counted (counted s3 i 0x11C ((drainResults c f xs).filter CRes.sat).length) i 0x120
      ((drainResults c f xs).filter CRes.nan).length) := by
  subst hf
  unfold drainBody
  dsimp only
  rw [runMc_bind_failIf (by simp [hd.reserved, hd.reservedTail]), runMc_bind_failIf (by simp [hd.aligned]), runMc_bind_ok (runMc_get s1),
    runMc_bind_failIf hd.tile_and_shift, runMc_bind_failIf hd.format_and_sign, runMc_bind_failIf hd.rectifies,
    runMc_bind_ok (curTask_of_running ht), runMc_bind_failIf (by simp [hc, hk]), runMc_bind_ok hr]
  exact runMc_bind_ok hw

end Sys2Proof.Machine

open Sys2Proof Sys2Proof.Machine

/-- Settles O27: what the MATMUL's last action leaves, the result write of a pending result, and the body of a sound DRAIN, which
completes. -/
theorem arrayResults : Obligations.ArrayResults := by
  refine ⟨fun i c fin s s1 hr => matmulBody_leaves i c s fin s1 hr, fun i s m hi h5 hm hp => ?write,
    fun i c s s1 s2 s3 t xs hi h5 hs hf hres htail hal hfmt huns => ?drain⟩
  case write =>
    rw [exec_matmulResultWrite, okPane_of_lt hi, answer_on h5, if_pos hm, matWrite_of_pending hp]
    rfl
  case drain =>
    intro acct long rect f htile hshift hpred ht hc hk hr rs hw s4 s5
    exact answer_runCmd_completed h5 hi hs hf
      (drainBody_of_sound rfl ⟨hres, htail, hal, hfmt, huns, htile, hshift, hpred⟩ ht hc hk hr hw)

end

section
/-! SUPPORT. The tree of a tile reduction (R122, R125): what a node of `forest` leaves in each of its cases, where the nodes that it
leaves lie, that a complete node stays whatever the bound, and the statement that follows. -/

namespace Sys2Proof.Machine

open Sys2Proof

/-! ### Pending nodes and the joining of two halves -/

/-- The pending node of leaves lo to lo + n - 1, if there is one. -/
def pendingAt (pend : List Part) (lo n : Nat) : Option Part := pend.find? (fun q => q.lo == lo && q.n == n)

@[simp] theorem pendingAt_nil (lo n : Nat) : pendingAt [] lo n = none := rfl

theorem pendingAt_singleton {q : Part} {lo n : Nat} (hlo : q.lo = lo) (hn : q.n = n) : pendingAt [q] lo n = some q := by
  simp [pendingAt, hlo, hn]

theorem pendingAt_some {ps : List Part} {lo n : Nat} {q : Part} (h : pendingAt ps lo n = some q) : q ∈ ps ∧ q.lo = lo ∧ q.n = n := by
  refine ⟨List.mem_of_find?_eq_some h, ?_⟩
  simpa using List.find?_some h

theorem pendingAt_none {ps : List Part} {lo n : Nat} (h : ∀ q ∈ ps, q.lo = lo → q.n ≠ n) : pendingAt ps lo n = none := by
  simpa [pendingAt] using h

theorem pendingAt_append (ps qs : List Part) (lo n : Nat) : pendingAt (ps ++ qs) lo n = (pendingAt ps lo n).or (pendingAt qs lo n) :=
  List.find?_append

/-- What the nodes of the two halves of leaves lo to lo + n - 1 become: their node, once both halves are complete. -/
def joinParts (int : Bool) (lo n : Nat) : List Part → List Part → List Part
  | [a], [b] => if a.n = (n + 1) / 2 ∧ b.n = n - (n + 1) / 2 then [⟨lo, n, (nodeNorm int a.v b.v).1⟩] else [a, b]
  | ps, qs => ps ++ qs

theorem joinParts_of_complete {int : Bool} {lo n : Nat} {a b : Part} (ha : a.n = (n + 1) / 2) (hb : b.n = n - (n + 1) / 2) :
    joinParts int lo n [a] [b] = [⟨lo, n, (nodeNorm int a.v b.v).1⟩] := if_pos ⟨ha, hb⟩

theorem joinParts_of_not_pair {int : Bool} {lo n : Nat} {ps qs : List Part} (h : ∀ a b, ps = [a] → qs = [b] → False) :
    joinParts int lo n ps qs = ps ++ qs := joinParts.eq_2 int lo n ps qs h

/-- Two halves join into their node when both are complete, and else stand one after the other. -/
theorem joinParts_cases (int : Bool) (lo n : Nat) (ps qs : List Part) :
    (∃ a b, ps = [a] ∧ qs = [b] ∧ a.n = (n + 1) / 2 ∧ b.n = n - (n + 1) / 2 ∧
      joinParts int lo n ps qs = [⟨lo, n, (nodeNorm int a.v b.v).1⟩]) ∨ joinParts int lo n ps qs = ps ++ qs := by
  unfold joinParts
  split
  · split
    · exact .inl ⟨_, _, rfl, rfl, ‹_ ∧ _›.1, ‹_ ∧ _›.2, rfl⟩
    · exact .inr rfl
  · exact .inr rfl

/-! ### The cases of a node -/

section
variable {int : Bool} {leaf : Nat → Nat × Bool} {pend : List Part} {hi lo n fuel : Nat}

theorem forest_of_pending {q : Part} (hp : pendingAt pend lo n = some q) : (forest int pend leaf hi (fuel + 1) lo n).parts = [q] := by
  unfold pendingAt at hp
  simp only [forest, hp]

theorem forest_beyond (hp : pendingAt pend lo n = none) (h : hi ≤ lo) : (forest int pend leaf hi fuel lo n).parts = [] := by
  cases fuel with
  | zero => rfl
  | succ fuel =>
    unfold pendingAt at hp
    simp only [forest, hp, if_pos h]

theorem forest_leaf (hp : pendingAt pend lo 1 = none) (h : lo < hi) :
    (forest int pend leaf hi (fuel + 1) lo 1).parts = [⟨lo, 1, (leaf lo).1⟩] := by
  unfold pendingAt at hp
  simp only [forest, hp, if_neg (Nat.not_le.mpr h), if_true]

theorem forest_node (hp : pendingAt pend lo n = none) (h : lo < hi) (hn : n ≠ 1) :
    (forest int pend leaf hi (fuel + 1) lo n).parts = joinParts int lo n (forest int pend leaf hi fuel lo ((n + 1) / 2)).parts
      (forest int pend leaf hi fuel (lo + (n + 1) / 2) (n - (n + 1) / 2)).parts := by
  unfold pendingAt at hp
  simp only [forest, hp, if_neg (Nat.not_le.mpr h), if_neg hn]
  split
  next a b hx hy =>
    rw [hx, hy]
    split
    · exact (joinParts_of_complete ‹_ ∧ _›.1 ‹_ ∧ _›.2).symm
    · exact (if_neg ‹_›).symm
  next hne => exact (joinParts_of_not_pair hne).symm

end

/-! ### One pass over the first leaves -/

/-- A pass either completes a node of more than one leaf, from its two complete halves, or leaves what its halves leave. -/
theorem forest_node_cases (int : Bool) (leaf : Nat → Nat × Bool) (hi fuel lo : Nat) {n : Nat} (h1 : n ≠ 1) :
    (∃ a b, lo < hi ∧ (forest int [] leaf hi fuel lo ((n + 1) / 2)).parts = [a] ∧
      (forest int [] leaf hi fuel (lo + (n + 1) / 2) (n - (n + 1) / 2)).parts = [b] ∧ a.n = (n + 1) / 2 ∧ b.n = n - (n + 1) / 2 ∧
      (forest int [] leaf hi (fuel + 1) lo n).parts = [⟨lo, n, (nodeNorm int a.v b.v).1⟩]) ∨
    (forest int [] leaf hi (fuel + 1) lo n).parts = (forest int [] leaf hi fuel lo ((n + 1) / 2)).parts ++
      (forest int [] leaf hi fuel (lo + (n + 1) / 2) (n - (n + 1) / 2)).parts := by
  by_cases hlo : hi ≤ lo
  · right
    rw [forest_beyond rfl hlo, forest_beyond rfl hlo, forest_beyond rfl (Nat.le_add_right_of_le hlo), List.append_nil]
  · have hlt := Nat.lt_of_not_le hlo
    rw [forest_node rfl hlt h1]
    rcases joinParts_cases int lo n (forest int [] leaf hi fuel lo ((n + 1) / 2)).parts
      (forest int [] leaf hi fuel (lo + (n + 1) / 2) (n - (n + 1) / 2)).parts with ⟨a, b, hx, hy, ha, hb, he⟩ | he
    · exact .inl ⟨a, b, hlt, hx, hy, ha, hb, he⟩
    · exact .inr he

section
variable {int : Bool} {leaf : Nat → Nat × Bool} {g h : Nat}

/-- The nodes that a pass leaves lie within its leaves. -/
theorem forest_within {fuel lo n : Nat} (hn : 1 ≤ n) {q : Part} (hq : q ∈ (forest int [] leaf g fuel lo n).parts) :
    lo ≤ q.lo ∧ q.lo + q.n ≤ lo + n := by
  induction fuel generalizing lo n with
  | zero => cases hq
  | succ fuel ih =>
    by_cases h1 : n = 1
    · subst h1
      by_cases hlo : g ≤ lo
      · rw [forest_beyond rfl hlo] at hq
        cases hq
      · rw [forest_leaf rfl (Nat.lt_of_not_le hlo), List.mem_singleton] at hq
        subst hq
        exact ⟨Nat.le_refl _, Nat.le_refl _⟩
    · rcases forest_node_cases int leaf g fuel lo h1 with ⟨a, b, -, -, -, -, -, he⟩ | he
      · rw [he, List.mem_singleton] at hq
        subst hq
        exact ⟨Nat.le_refl _, Nat.le_refl _⟩
      · rw [he, List.mem_append] at hq
        rcases hq with hq | hq
        · have hleft := ih (by omega) hq
          omega
        · have hright := ih (by omega) hq
          omega

/-- A complete node over leaves lo to lo + n - 1 that a pass leaves stands there alone under every later bound too. -/
theorem forest_complete (hgh : g ≤ h) {fuel lo n : Nat} (hn : 1 ≤ n) {q : Part} (hq : q ∈ (forest int [] leaf g fuel lo n).parts)
    (hqn : q.n = n) : (forest int [] leaf h fuel lo n).parts = [q] := by
  induction fuel generalizing lo n q with
  | zero => cases hq
  | succ fuel ih =>
    by_cases h1 : n = 1
    · subst h1
      by_cases hlo : g ≤ lo
      · rw [forest_beyond rfl hlo] at hq
        cases hq
      · have hlt := Nat.lt_of_not_le hlo
        rw [forest_leaf rfl hlt, List.mem_singleton] at hq
        subst hq
        exact forest_leaf rfl (Nat.lt_of_lt_of_le hlt hgh)
    · rcases forest_node_cases int leaf g fuel lo h1 with ⟨a, b, hlt, hx, hy, ha, hb, he⟩ | he
      · rw [he, List.mem_singleton] at hq
        subst hq
        have hx' := ih (by omega) (hx ▸ List.mem_singleton_self a) ha
        have hy' := ih (by omega) (hy ▸ List.mem_singleton_self b) hb
        rw [forest_node rfl (Nat.lt_of_lt_of_le hlt hgh) h1, hx', hy', joinParts_of_complete ha hb]
      · rw [he, List.mem_append] at hq
        rcases hq with hq | hq
        · have hleft := forest_within (by omega) hq
          omega
        · have hright := forest_within (by omega) hq
          omega

/-! ### Passes -/

/-- Pending nodes that are, within leaves lo to lo + n - 1, those that a pass up to `g` leaves there: taking them up gives what one pass
gives (R125). -/
theorem forest_resume (hgh : g ≤ h) {fuel lo n : Nat} {pend : List Part} (hn : 1 ≤ n)
    (hp : ∀ l m, lo ≤ l → 1 ≤ m → l + m ≤ lo + n → pendingAt pend l m = pendingAt (forest int [] leaf g fuel lo n).parts l m) :
    (forest int pend leaf h fuel lo n).parts = (forest int [] leaf h fuel lo n).parts := by
  induction fuel generalizing lo n with
  | zero => rfl
  | succ fuel ih =>
    have hroot := hp lo n (Nat.le_refl _) hn (Nat.le_refl _)
    cases hr : pendingAt (forest int [] leaf g (fuel + 1) lo n).parts lo n with
    | some q =>
      obtain ⟨hq, -, hqn⟩ := pendingAt_some hr
      rw [forest_of_pending (hroot.trans hr), forest_complete hgh hn hq hqn]
    | none =>
      have hnone := hroot.trans hr
      by_cases hlo : h ≤ lo
      · rw [forest_beyond hnone hlo, forest_beyond rfl hlo]
      · have hlt := Nat.lt_of_not_le hlo
        by_cases h1 : n = 1
        · subst h1
          rw [forest_leaf hnone hlt, forest_leaf rfl hlt]
        · rcases forest_node_cases int leaf g fuel lo h1 with ⟨a, b, -, -, -, -, -, he⟩ | he
          · rw [he, pendingAt_singleton rfl rfl] at hr
            cases hr
          · rw [forest_node hnone hlt h1, forest_node rfl hlt h1, ih (by omega) (fun l m hl hm hlm => ?left),
              ih (by omega) (fun l m hl hm hlm => ?right)]
            case left =>
              have hy : pendingAt (forest int [] leaf g fuel (lo + (n + 1) / 2) (n - (n + 1) / 2)).parts l m = none :=
                pendingAt_none fun q hq => by
                  have hw := forest_within (by omega) hq
                  omega
              rw [hp l m hl hm (by omega), he, pendingAt_append, hy, Option.or_none]
            case right =>
              have hx : pendingAt (forest int [] leaf g fuel lo ((n + 1) / 2)).parts l m = none :=
                pendingAt_none fun q hq => by
                  have hw := forest_within (by omega) hq
                  omega
              rw [hp l m (by omega) hm (by omega), he, pendingAt_append, hx, Option.none_or]

end

/-! ### The whole tree -/

theorem treeSum_singleton (int : Bool) (fuel x : Nat) : (treeSum int (fuel + 1) [x]).v = x := rfl

theorem treeSum_node {int : Bool} {fuel n : Nat} {xs : List Nat} (hl : xs.length = n) (hn : 2 ≤ n) : (treeSum int (fuel + 1) xs).v =
    (nodeNorm int (treeSum int fuel (xs.take ((n + 1) / 2))).v (treeSum int fuel (xs.drop ((n + 1) / 2))).v).1 := by
  subst hl
  match xs, hn with
  | _ :: _ :: _, _ => rfl

/-- A leaf of a list is the tree over that leaf. -/
theorem forest_of_list_leaf (int : Bool) {xs : List Nat} {lo : Nat} (fuel : Nat) (hl : lo < xs.length) :
    (forest int [] (fun k => (xs.getD k 0, false)) xs.length (fuel + 1) lo 1).parts =
      [⟨lo, 1, (treeSum int (fuel + 1) ((xs.drop lo).take 1)).v⟩] := by
  rw [forest_leaf rfl hl, List.drop_eq_getElem_cons hl, List.take_succ_cons, List.take_zero, treeSum_singleton,
    List.getD_eq_getElem _ _ hl]

/-- A pass over all the leaves of a list leaves, for each run of them, the one node of the tree over that run (R122, R202). -/
theorem forest_of_list (int : Bool) (xs : List Nat) {fuel lo n : Nat} (hn : 1 ≤ n) (hf : n ≤ 2 ^ fuel) (hl : lo + n ≤ xs.length) :
    (forest int [] (fun k => (xs.getD k 0, false)) xs.length (fuel + 1) lo n).parts =
      [⟨lo, n, (treeSum int (fuel + 1) ((xs.drop lo).take n)).v⟩] := by
  induction fuel generalizing lo n with
  | zero =>
    obtain rfl : n = 1 := by omega
    exact forest_of_list_leaf int 0 hl
  | succ fuel ih =>
    by_cases h1 : n = 1
    · subst h1
      exact forest_of_list_leaf int (fuel + 1) hl
    · have hlen : ((xs.drop lo).take n).length = n := by simp only [List.length_take, List.length_drop]; omega
      have hleft : ((xs.drop lo).take n).take ((n + 1) / 2) = (xs.drop lo).take ((n + 1) / 2) := by
        rw [List.take_take, Nat.min_eq_left (by omega)]
      have hright : ((xs.drop lo).take n).drop ((n + 1) / 2) = (xs.drop (lo + (n + 1) / 2)).take (n - (n + 1) / 2) := by
        rw [List.drop_take, List.drop_drop]
      rw [forest_node rfl (by omega) h1, ih (by omega) (by omega) (by omega), ih (by omega) (by omega) (by omega),
        joinParts_of_complete rfl rfl, treeSum_node hlen (by omega), hleft, hright]

end Sys2Proof.Machine

open Sys2Proof Sys2Proof.Machine

/-- Settles O54: the nodes that a pass leaves are taken up where they stand in the tree, and a pass over a list of leaves is the
vector engine's recursion over it. -/
theorem passesDoNotChangeTheTree : Obligations.PassesDoNotChangeTheTree := by
  refine ⟨fun int leaf fuel n g h hn hgh => forest_resume hgh hn (fun _ _ _ _ _ => rfl), fun int xs h1 hx => ?_⟩
  rw [forest_of_list int xs h1 hx (Nat.le_of_eq (Nat.zero_add _)), List.drop_zero, List.take_length]

end

section
/-! SUPPORT. Chain records (R136, R419): what a record that has come does with its bytes, its signal and its queue, and the statement that
follows. -/

namespace Sys2Proof.Machine

open Sys2Proof

/-- The completion signal of a chain record (DSYNC): one, of the sender's pane, chip and context. -/
def recordSignal (m : List Byte) (task : Option Nat) : Sig :=
  { obj := field (mBody m) 2 2, amount := 1, pane := mSpane m, chip := mSchip m, ctx := mCtx m
    task, completes := false, guards := [] }

/-- A record whose bytes have all landed signals behind them and leaves its queue. -/
theorem landRecord_of_landed {s s1 : State} {b j : Nat} {w : Who} {task : Option Nat} {m : List Byte} {pop : State → State}
    (hi : s.instOf (field (mBody m) 0 1 % 128) = some j) (hc : s.ctxReset ≠ some (mCtx m))
    (hl : runMc (landBytes w j (field (mBody m) 0 1 % 128) (mCtx m) (field (mBody m) 4 4) ((mBody m).drop 8)) s = (.ok true, s1)) :
    landRecord s b w task m pop = pop (sendSignal (dropNeeds s1 w) (recordSignal m task)) := by
  simp only [landRecord, hi, if_neg hc, hl]
  rfl

/-- A record of a pane number that no pane holds is logged with event 0x07 and leaves its queue. -/
theorem landRecord_of_no_pane {s : State} {b : Nat} {w : Who} {task : Option Nat} {m : List Byte} {pop : State → State}
    (hi : s.instOf (field (mBody m) 0 1 % 128) = none) : landRecord s b w task m pop =
      pop (logE (dropNeeds s w) 0x07 2 b (field (mBody m) 4 4) (detail 0 (mCtx m)) 0x0B) := by
  simp only [landRecord, hi]

/-- CHAIN_RECORD_LAND takes up the oldest record of this device. -/
theorem chainLand_of_oldest {s : State} {b task : Nat} {m : List Byte} {q : List (Nat × List Byte)}
    (h : (s.bay b).xe.chain = (task, m) :: q) : chainLand s b = landRecord s b (.bay b (.land false)) (some task) m
      (fun s => s.modXe b (fun x => { x with chain := x.chain.drop 1 })) := by
  simp only [chainLand, h]

/-- CHREC takes up the first record of another device that nothing of its flow precedes. -/
theorem chrec_of_takeX {s s0 : State} {b : Nat} {m : List Byte} (h : takeX s b 0x0B = some (m, s0)) :
    chrec s b = landRecord s b (.bay b (.land true)) none m (fun s => s.modXe b (fun x => { x with xin := x.xin.erase m })) := by
  simp only [chrec, h]

theorem exec_chainRecordLand (b : Nat) (s : State) : exec (.chainRecordLand b) s = answer s (okBay b) (settle (chainLand s b)) := rfl

theorem exec_chrec (b : Nat) (s : State) : exec (.chrec b) s = answer s (okBay b) (settle (chrec s b)) := rfl

end Sys2Proof.Machine

open Sys2Proof Sys2Proof.Machine

/-- Settles O28: each of the two commands takes up its record, which lands or is discarded. -/
theorem chainRecordsLand : Obligations.ChainRecordsLand := by
  refine ⟨fun b task j m q s s1 hb h5 hq hi hc hl => ?own, fun b task m q s hb h5 hq hi => ?gone,
    fun b j m s s0 s1 hb h5 ht hi hc hl => ?other⟩
  case own =>
    rw [exec_chainRecordLand, okBay_of_lt hb, answer_on h5, chainLand_of_oldest hq, landRecord_of_landed hi hc hl]
    rfl
  case gone =>
    rw [exec_chainRecordLand, okBay_of_lt hb, answer_on h5, chainLand_of_oldest hq, landRecord_of_no_pane hi]
    rfl
  case other =>
    rw [exec_chrec, okBay_of_lt hb, answer_on h5, chrec_of_takeX ht, landRecord_of_landed hi hc hl]
    rfl

end

section
/-! SUPPORT. Narrow reads that come back (R160 to R164, R345) and DEGSCAN (R166): what advancing a gather leaves, what a returned read
leads to, what the body of a sound DEGSCAN lists, and the statement that follows. -/

namespace Sys2Proof.Machine

open Sys2Proof

/-! ### Advancing a gather -/

/-- A pane without a gather has none to advance. -/
theorem ngeGo_of_none {s : State} {i : Nat} (h : (s.pane i).nge = none) : ngeGo s i = s := by
  simp only [ngeGo, h]

/-- A gather that its engine may advance goes as far as it can, and completes its command when it ends. -/
theorem ngeGo_of_pumped {s s' : State} {i : Nat} {j : NgeJob} {fin : Bool} (hj : (s.pane i).nge = some j)
    (hs : (s.pane i).stalled = false) (hp : runMc (pump i (s.pane i).ctx (j.last - j.done + 1)) s = (.ok fin, s')) :
    ngeGo s i = if fin then cmdDone (dropFetched s' i 3) i 3 j.op (hTag j.cmd) else dropFetched s' i 3 := by
  cases fin
  case false => simp [ngeGo, hj, hs, hp]
  case true => simp [ngeGo, hj, hs, hp]

/-! ### NARROW_READ_RETURN -/

theorem exec_narrowReadReturn (i k : Nat) (s : State) :
    exec (.narrowReadReturn i k) s = answer s (okPane i) (settle (narrowBack s i k)) := rfl

/-- A stalled engine takes nothing (R345). -/
theorem narrowBack_of_stalled {s : State} {i k : Nat} (h : (s.pane i).stalled = true) : narrowBack s i k = s := by
  rw [narrowBack, if_pos h]

/-- With no read to take, the job goes on, unless its engine stalls. -/
theorem narrowBack_of_no_read {s : State} {i k : Nat} (hs : (s.pane i).stalled = false)
    (hf : s.accs.find? (fun a => a.purpose == .nge i k && a.stage == .got && a.flt.isNone) = none) :
    narrowBack s i k = ngeGo s i := by
  simp only [narrowBack, hs, Bool.false_eq_true, if_false, hf]

/-- A read that has come back joins its row, its access is gone, and the job goes on. -/
theorem narrowBack_of_returned {s s1 : State} {i k : Nat} {a : Access} (hs : (s.pane i).stalled = false)
    (hf : s.accs.find? (fun a => a.purpose == .nge i k && a.stage == .got && a.flt.isNone) = some a)
    (hr : runMc (narrowReturn i k a.data) (dropAcc s a.id) = (.ok (), s1)) : narrowBack s i k = ngeGo s1 i := by
  simp only [narrowBack, hs, Bool.false_eq_true, if_false, hf, hr]

/-- Without a gather and without a read to take, nothing changes. -/
theorem narrowBack_of_idle {s : State} {i k : Nat} (hj : (s.pane i).nge = none)
    (hf : s.accs.find? (fun a => a.purpose == .nge i k && a.stage == .got && a.flt.isNone) = none) : narrowBack s i k = s := by
  cases hs : (s.pane i).stalled
  case true => exact narrowBack_of_stalled hs
  case false => rw [narrowBack_of_no_read hs hf, ngeGo_of_none hj]

/-! ### DEGSCAN -/

/-- A DEGSCAN sound by the checks of its own form (Table 5-6). -/
structure SoundDegscan (c : Nat) : Prop where
  reservedBegin : cbits c 16 63 40 = 0
  reservedCount : cbits c 24 31 29 = 0
  reservedTail : cbytes c 40 8 = 0
  count : cbits c 24 23 0 ≠ 0
  threshold : badTlog (cbits c 24 28 24) = false
  aligned : cbytes c 32 8 % 64 = 0

/-- The header of the hub list of a DEGSCAN that found `hubs`: its range, its threshold, their number and that of their segments
(Table 5-7). -/
def hubHeader (c : Nat) (hubs : List (Nat × Nat × Nat)) : List Byte :=
  leBytes 8 (cbits c 16 39 0) ++ leBytes 4 (cbits c 24 23 0 + tlogOf (cbits c 24 28 24) * 2 ^ 24)
    ++ leBytes 4 hubs.length ++ leBytes 4 ((hubs.map (fun x => x.2.2)).foldl (· + ·) 0) ++ leBytes 44 0

/-- A sound DEGSCAN of vertices of its graph, whose hubs all fit in the list, posts their entries, then the header, and ends. -/
theorem degscanBody_of_sound {i c : Nat} {s1 s2 s3 s4 s5 : State} {t : Task} {ds : List Byte} {hubs : List (Nat × Nat × Nat)}
    (hc : SoundDegscan c) (ht : (s1.pane i).task.bind s1.taskOf = some t)
    (hd : runMc (readDesc i t.ctx (cbytes c 8 8)) s1 = (.ok ds, s2)) (hn : cbits c 16 39 0 + cbits c 24 23 0 ≤ (gdesc ds).nv)
    (hh : runMc (scanHubs i t.ctx (gdesc ds) (tlogOf (cbits c 24 28 24)) (cbits c 16 39 0) (cbits c 24 23 0)) s2 = (.ok hubs, s3))
    (hcap : hubs.length ≤ cbytes c 28 4)
    (he : runMc (postPart i t.ctx 0 3 0 (cbytes c 32 8 + 0x40) (hubBytes 0 hubs)) s3 = (.ok (), s4))
    (hp : runMc (postPart i t.ctx 0 3 0 (cbytes c 32 8) (hubHeader c hubs)) s4 = (.ok (), s5)) :
    runMc (degscanBody i c) s1 = (.ok true, s5) := by
  unfold hubHeader at hp
  unfold degscanBody
  dsimp only
  rw [runMc_bind_failIf (by simp [hc.reservedBegin, hc.reservedCount, hc.reservedTail]),
    runMc_bind_failIf (by simp [hc.count, hc.threshold]), runMc_bind_failIf (by simp [hc.aligned]),
    runMc_bind_ok (curTask_of_running ht), runMc_bind_ok hd, runMc_bind_failIf (by simpa using hn), runMc_bind_ok hh,
    List.take_of_length_le hcap, List.drop_of_length_le hcap, runMc_bind_ok he, runMc_bind_ok hp, runMc_pure]

end Sys2Proof.Machine

open Sys2Proof Sys2Proof.Machine

/-- Settles O29: a returned read by what advancing its job leaves, a stalled and an idle engine change nothing, and the body of a sound
DEGSCAN, which completes when its hubs all fit. -/
theorem gatherAndDegreeScan : Obligations.GatherAndDegreeScan := by
  refine ⟨fun i k fin s s1 s2 a j hi h5 hs hf hr hj hs1 hp => ?returned, fun i k s hi h5 hs => ?stalled,
    fun i k s hi h5 hj hf => ?idle,
    fun i c s s1 s2 s3 s4 s5 t ds hubs hi h5 hs hf hbeg hcnt htail hne hthr hal ht hd hn => ?degscan⟩
  case returned =>
    rw [exec_narrowReadReturn, okPane_of_lt hi, answer_on h5, narrowBack_of_returned hs hf hr, ngeGo_of_pumped hj hs1 hp]
    rfl
  case stalled =>
    rw [exec_narrowReadReturn, okPane_of_lt hi, answer_on h5, narrowBack_of_stalled hs]
    rfl
  case idle =>
    rw [exec_narrowReadReturn, okPane_of_lt hi, answer_on h5, narrowBack_of_idle hj hf]
    rfl
  case degscan =>
    intro tlog hh hcap he hp
    exact runNge_of_start (fin := true) h5 hi hs hf
      (degscanBody_of_sound ⟨hbeg, hcnt, htail, hne, hthr, hal⟩ ht hd hn hh hcap he hp)

end

section
/-! SUPPORT. SEQSOFT (R177 to R179): the bytes that each of its passes writes, what the body of a sound SEQSOFT does, and the statement
that follows. -/

namespace Sys2Proof.Machine

open Sys2Proof

/-- A SEQSOFT sound by the checks of its own form (Table 5-12, R178). -/
structure SoundSeqsoft (c : Nat) : Prop where
  reservedScores : cbits c 8 31 24 = 0
  reservedQuery : cbits c 12 31 27 = 0
  reservedKey : cbits c 16 31 24 = 0
  reservedLength : cbits c 20 31 24 = 0
  reservedWindow : cbits c 28 31 13 = 0
  reservedState : cbits c 32 31 24 = 0
  reservedTile : cbits c 36 31 24 = 0
  reservedTail : cbytes c 40 8 = 0
  mode : cbits c 12 25 24 ≠ 3
  window : cbits c 12 25 24 = 2 → cbits c 28 12 0 ≠ 0 ∧ cbits c 28 12 0 ≤ 4096
  alignedScores : cbits c 8 23 0 % 64 = 0
  scale : (f32 (cbytes c 24 4)).isFin = true
  alignedState : cbits c 32 23 0 % 64 = 0
  alignedTile : (cbits c 12 26 26 == 1) = true → cbits c 36 23 0 % 128 = 0
  length : cbits c 12 25 24 ≠ 2 → cbits c 20 23 0 < 2 ^ 20

/-- The score of row `a` and column `b` of the tile `sc`, times SCALE and rounded (R177). -/
def seqScore (c : Nat) (sc : List Byte) (a b : Nat) : Nat := scaled (cbytes c 24 4) (field sc (256 * a + 4 * b) 4)

/-- Is the pair of row `a` and column `b` of the tile masked (R177)? -/
def seqPairMasked (c a b : Nat) : Bool :=
  seqMasked (cbits c 12 25 24) (cbits c 28 12 0) (cbits c 20 23 0) (cbits c 12 23 0 + a) (cbits c 16 23 0 + b)

/-- The bytes of the probability tile, keys as depth steps and queries as lanes: zero where the pair is masked (R177). -/
def seqProbs (c : Nat) (sc st : List Byte) : List Byte :=
  (List.range 64).flatMap (fun b => (List.range 64).flatMap (fun a =>
    leBytes 2 (if seqPairMasked c a b then 0 else prob (seqScore c sc a b) (field st (4 * a) 4))))

/-- The bytes of STATE: the maximum of what `st` holds for each row and of its scores that are not masked (R177). -/
def seqMaxima (c : Nat) (sc st : List Byte) : List Byte :=
  (List.range 64).flatMap (fun a => leBytes 4 ((List.range 64).foldl
    (fun mx b => if seqPairMasked c a b then mx else pickMax true mx (seqScore c sc a b)) (field st (4 * a) 4)))

/-- What the pass that PASS names writes: the exponent pass its probabilities, the maximum pass its maxima (Table 5-12). -/
def seqsoftPass (i c : Nat) (sc st : List Byte) : Mc Unit :=
  if cbits c 12 26 26 == 1 then spWrite i 3 (cbits c 36 23 0) (seqProbs c sc st)
  else spWrite i 3 (cbits c 32 23 0) (seqMaxima c sc st)

/-- A sound SEQSOFT names a mode that there is, and in window mode a window of 1 to 4096 positions. -/
theorem SoundSeqsoft.mask {c : Nat} (h : SoundSeqsoft c) :
    (cbits c 12 25 24 == 3 || (cbits c 12 25 24 == 2 && (cbits c 28 12 0 == 0 || decide (4096 < cbits c 28 12 0)))) = false := by
  rw [Bool.or_eq_false_iff]
  constructor
  · simpa using h.mode
  · by_cases hm : cbits c 12 25 24 = 2
    · obtain ⟨h0, hw⟩ := h.window hm
      simp [h0, hw]
    · simp [hm]

/-- Its addresses are aligned, that of the probabilities where the pass writes them, and its scale is finite. -/
theorem SoundSeqsoft.operands {c : Nat} (h : SoundSeqsoft c) :
    (cbits c 8 23 0 % 64 != 0 || !(f32 (cbytes c 24 4)).isFin || cbits c 32 23 0 % 64 != 0 ||
      (cbits c 12 26 26 == 1 && cbits c 36 23 0 % 128 != 0)) = false := by
  have hp : (cbits c 12 26 26 == 1 && cbits c 36 23 0 % 128 != 0) = false := by
    cases he : cbits c 12 26 26 == 1
    case false => rfl
    case true => simp [h.alignedTile he]
  simp [h.alignedScores, h.scale, h.alignedState, hp]

/-- In modes full and causal its sequence has at most 2^20 positions (R178). -/
theorem SoundSeqsoft.positions {c : Nat} (h : SoundSeqsoft c) :
    (cbits c 12 25 24 != 2 && decide (2 ^ 20 ≤ cbits c 20 23 0)) = false := by
  by_cases hm : cbits c 12 25 24 = 2
  · simp [hm]
  · rw [decide_eq_false (Nat.not_le.mpr (h.length hm)), Bool.and_false]

/-- A sound SEQSOFT of claimed bytes reads its scores and its maxima, writes what its pass writes, and ends. -/
theorem seqsoftBody_of_sound {i c : Nat} {s1 s2 s3 s4 : State} {t : Task} {sc st : List Byte} (hc : SoundSeqsoft c)
    (ht : (s1.pane i).task.bind s1.taskOf = some t) (hs : inClaim t (cbits c 8 23 0) 16384 = true)
    (hm : inClaim t (cbits c 32 23 0) 256 = true)
    (hp : (cbits c 12 26 26 == 1) = true → inClaim t (cbits c 36 23 0) 8192 = true)
    (hrs : runMc (spRead i 3 (cbits c 8 23 0) 16384) s1 = (.ok sc, s2)) (hrm : runMc (spRead i 3 (cbits c 32 23 0) 256) s2 = (.ok st, s3))
    (hw : runMc (seqsoftPass i c sc st) s3 = (.ok (), s4)) : runMc (seqsoftBody i c) s1 = (.ok true, s4) := by
  have hclaim : (!inClaim t (cbits c 8 23 0) 16384 || !inClaim t (cbits c 32 23 0) 256 ||
      (cbits c 12 26 26 == 1 && !inClaim t (cbits c 36 23 0) 8192)) = false := by
    cases he : cbits c 12 26 26 == 1
    case false => simp [hs, hm]
    case true => simp [hs, hm, hp he]
  unfold seqsoftBody
  dsimp only
  rw [runMc_bind_failIf (by simp [hc.reservedScores, hc.reservedQuery, hc.reservedKey, hc.reservedLength, hc.reservedWindow,
      hc.reservedState, hc.reservedTile, hc.reservedTail]),
    runMc_bind_failIf hc.mask, runMc_bind_failIf hc.operands, runMc_bind_failIf hc.positions,
    runMc_bind_ok (curTask_of_running ht), runMc_bind_failIf hclaim, runMc_bind_ok hrs, runMc_bind_ok hrm]
  unfold seqsoftPass at hw
  split at hw
  case isTrue he =>
    rw [if_pos he]
    exact runMc_bind_ok hw
  case isFalse he =>
    rw [if_neg he]
    exact runMc_bind_ok hw

end Sys2Proof.Machine

open Sys2Proof Sys2Proof.Machine

/-- Settles O30: the body of a sound SEQSOFT writes what its pass writes, and the command completes. -/
theorem seqsoftRunsItsPass : Obligations.SeqsoftRunsItsPass := by
  intro i c s s1 s2 s3 s4 t sc st hi h5 hs hf hr8 hr12 hr16 hr20 hr28 hr32 hr36 htail mode win expo hmode hwin hsa hscale hsta hpa hlen
    ht hcs hcm hcp hrs hrm x masked hw
  have hc : SoundSeqsoft c := ⟨hr8, hr12, hr16, hr20, hr28, hr32, hr36, htail, hmode, hwin, hsa, hscale, hsta, hpa, hlen⟩
  exact runNge_of_start (fin := true) h5 hi hs hf (seqsoftBody_of_sound hc ht hcs hcm hcp hrs hrm hw)

end

section
/-! SUPPORT. The table engine as an owner and a requester (R229, R230, R232, R237, R238, R247): what serving a row request, a contribution
and a landed copy leaves, what a row that comes back does to a lookup, what the messages of other devices bring, the counters'
clearing, and the statement that follows. -/

namespace Sys2Proof.Machine

open Sys2Proof

/-! ### The outcomes through `answer` -/

theorem exec_rowRequest (b : Nat) (s : State) :
    exec (.rowRequest b) s = answer s (okBay b) (settleTe (serveRows b s (s.bay b).te.reqIn)) := rfl

theorem exec_contribution (b : Nat) (s : State) :
    exec (.contribution b) s = answer s (okBay b) (settleTe (serveCons b s (s.bay b).te.conIn)) := rfl

theorem exec_migrationCopyDone (b : Nat) (s : State) :
    exec (.migrationCopyDone b) s = answer s (okBay b) (settleTe (copyDone s b)) := rfl

theorem exec_rowResponse (b : Nat) (s : State) : exec (.rowResponse b) s = execRowResponse b s := rfl

theorem exec_lkreq (b : Nat) (s : State) : exec (.lkreq b) s = answer s (okBay b) (settleTe (lkreqIn s b)) := rfl

theorem exec_lkresp (b : Nat) (s : State) : exec (.lkresp b) s = answer s (okBay b) (settleTe (lkrespIn s b)) := rfl

theorem exec_grad (b : Nat) (s : State) : exec (.grad b) s = answer s (okBay b) (settleTe (gradIn s b)) := rfl

theorem exec_grack (b : Nat) (s : State) : exec (.grack b) s = answer s (okBay b) (settleTe (grackIn s b)) := rfl

theorem exec_tesvc (b : Nat) (s : State) : exec (.tesvc b) s = answer s (okBay b) (settleTe (tesvcIn s b)) := rfl

theorem exec_teCtrclr (b v : Nat) (s : State) :
    exec (.teCtrclr b v) s = answer s (okBay b) (whenOpen s (Reg.TE_CTRCLR b) (teClear s b v)) := rfl

/-- Outside P5 a table event of a bay of the package has its effect, and what follows table commands is done. -/
theorem answer_settleTe {s : State} {b : Nat} (t : State) (hb : b < 16) (h5 : s.pwr.st ≠ 5) :
    answer s (okBay b) (settleTe t) = .next (followedTe s t) := by
  rw [okBay_of_lt hb, answer_on h5]
  rfl

/-- A row that has come back from an owner of this device is taken. -/
theorem exec_rowResponse_of_front {s : State} {b : Nat} {r : RowMsg} {rs : List RowMsg} (hb : b < 16) (h5 : s.pwr.st ≠ 5)
    (hq : (s.bay b).te.rspIn = r :: rs) :
    exec (.rowResponse b) s = .next (followedTe s (takeRow (s.modTe b (fun x => { x with rspIn := rs })) b r)) := by
  rw [exec_rowResponse, execRowResponse, hq]
  exact answer_settleTe _ hb h5

/-! ### Row requests and contributions -/

/-- A request at the front that is dealt with leaves the bay's requests. -/
theorem exec_rowRequest_of_done {s s' : State} {b : Nat} {r : RowMsg} {rs : List RowMsg} (hb : b < 16) (h5 : s.pwr.st ≠ 5)
    (hq : (s.bay b).te.reqIn = r :: rs) (h : rowRequest1 s b r = (s', true)) :
    exec (.rowRequest b) s = .next (followedTe s (s'.modTe b (fun x => { x with reqIn := x.reqIn.erase r }))) := by
  rw [exec_rowRequest, hq, answer_settleTe _ hb h5]
  simp only [serveRows, h]

/-- A request whose row the owner has is answered with it (R230). -/
theorem rowRequest1_of_row {s s1 : State} {b stamp : Nat} {r : RowMsg} {data : List Byte}
    (h : runMc (serveRow (teOwn b (rowNo r)) r) s = (.ok (.row data stamp), s1)) :
    rowRequest1 s b r = (dropNeeds (answerRow s1 b { r with data, stamp }) (.te b (rowNo r)), true) :=
  holdOwner_ok (by rw [runMc_bind_ok h]; rfl)

/-- A request whose row another owner has is sent on to it (R229). -/
theorem rowRequest1_of_fwd {s s1 s2 : State} {b dst : Nat} {r : RowMsg}
    (h : runMc (serveRow (teOwn b (rowNo r)) r) s = (.ok (.fwd dst), s1)) (hf : runMc (forwardRow b dst r) s1 = (.ok (), s2)) :
    rowRequest1 s b r = (dropNeeds s2 (.te b (rowNo r)), true) :=
  holdOwner_ok (by rw [runMc_bind_ok h]; exact runMc_bind_ok hf)

/-- A request whose row the table lacks is answered absent (R230). -/
theorem rowRequest1_of_absent {s s1 : State} {b stamp : Nat} {r : RowMsg}
    (h : runMc (serveRow (teOwn b (rowNo r)) r) s = (.ok (.absent stamp), s1)) :
    rowRequest1 s b r = (dropNeeds (answerRow s1 b { r with absent := true, stamp }) (.te b (rowNo r)), true) :=
  holdOwner_ok (by rw [runMc_bind_ok h]; rfl)

/-- A contribution at the front that is dealt with leaves the bay's contributions. -/
theorem exec_contribution_of_done {s s' : State} {b : Nat} {c : Contrib} {cs : List Contrib} (hb : b < 16) (h5 : s.pwr.st ≠ 5)
    (hq : (s.bay b).te.conIn = c :: cs) (h : contribution1 s b c = (s', true)) :
    exec (.contribution b) s = .next (followedTe s (s'.modTe b (fun x => { x with conIn := x.conIn.erase c }))) := by
  rw [exec_contribution, hq, answer_settleTe _ hb h5]
  simp only [serveCons, h]

/-- A contribution that the owner takes is acknowledged (R237). -/
theorem contribution1_of_taken {s s1 s2 : State} {b : Nat} {c : Contrib}
    (h : runMc (serveCon (teOwn b (conNo c)) c) s = (.ok .taken, s1)) (ha : runMc (ackCon b c 0) s1 = (.ok (), s2)) :
    contribution1 s b c = (dropNeeds s2 (.te b (conNo c)), true) :=
  holdOwner_ok (by rw [runMc_bind_ok h]; exact runMc_bind_ok ha)

/-! ### Landed copies (R247) -/

/-- The first landed copy is dealt with, and what its row's reading brought is used up. -/
theorem copyDone_of_done {s s' : State} {b : Nat} {c : TeCopy} (hc : (s.bay b).te.copies.find? (·.landed) = some c)
    (h : runMc (copyDone1 b c) s = (.ok true, s')) : copyDone s b = dropNeeds s' (.te b (copyNo c)) := by
  simp only [copyDone, hc, holdOwner_ok h]

section
variable {s s1 s2 s3 s4 : State} {b : Nat} {c : TeCopy} {d : TDesc} {sh : Shard} {x : RowAt}

/-- A row written while it was copied is copied again, whole (Table 7-14). -/
theorem copyDone1_of_dirty {bs : List Byte} (hd : c.dirty = true) (ht : runMc (ownerTable (teOwn b (copyNo c)) c.table) s = (.ok (d, sh), s1))
    (hf : runMc (findRow (teOwn b (copyNo c)) d sh c.row) s1 = (.ok (some x), s2))
    (hr : runMc (readRecord_ (teOwn b (copyNo c)) d sh x) s2 = (.ok bs, s3)) (hs : runMc (sendCopy b c bs) s3 = (.ok (), s4)) :
    runMc (copyDone1 b c) s = (.ok true, s4.modTe b (fun t => { t with copies := t.copies.flatMap (fun k =>
      if k.table = c.table ∧ k.row = c.row then [{ k with dirty := false, landed := false }] else [k]) })) := by
  unfold copyDone1
  dsimp only
  rw [runMc_bind_ok ht]
  dsimp only
  rw [runMc_bind_ok hf]
  dsimp only
  rw [runMc_bind_ok (runMc_get s2), if_pos hd, bind_assoc, runMc_bind_ok hr, runMc_bind_ok hs]
  rfl

/-- A row that was not written, and that no apply of its table may still write, flips to its target (Table 7-14). -/
theorem copyDone1_of_clean {hd : List Byte} (hc : c.dirty = false) (hg : c.again = false)
    (ht : runMc (ownerTable (teOwn b (copyNo c)) c.table) s = (.ok (d, sh), s1))
    (hf : runMc (findRow (teOwn b (copyNo c)) d sh c.row) s1 = (.ok (some x), s2)) (ha : applying s2 b c.table sh = false)
    (hr : runMc (readRow (teOwn b (copyNo c)) d sh x) s2 = (.ok hd, s3))
    (hs : runMc (flipRow (teOwn b (copyNo c)) d x c) s3 = (.ok (), s4)) : runMc (copyDone1 b c) s = (.ok true, s4) := by
  unfold copyDone1
  dsimp only
  rw [runMc_bind_ok ht]
  dsimp only
  rw [runMc_bind_ok hf]
  dsimp only
  rw [runMc_bind_ok (runMc_get s2), hc, ha, hg]
  simp only [Bool.false_eq_true, if_false]
  rw [runMc_bind_ok hr, runMc_bind_ok hs, runMc_pure]

end

/-! ### Rows that come back -/

/-- A lookup `j` that has got the row of the answer `r`, which is no longer outstanding. -/
def lookupWith (j : TeJob) (r : RowMsg) : TeJob :=
  { j with
    sent := (j.sent.map (fun e => if e.1 = r.tag then (e.1, e.2.erase r.slot) else e)).filter (fun e => !e.2.isEmpty)
    got := j.got ++ [{ id := r.slot, absent := r.absent, owner := r.owner, stamp := r.stamp, data := r.data }] }

/-- The bay once its lookup has got a row: one older than the lookup asks for is counted (R248). -/
def lookupGot (s : State) (b : Nat) (j : TeJob) (r : RowMsg) : State :=
  let t := s.modTe b (fun x => { x with jobs := [lookupWith j r] })
  if !r.absent ∧ field r.data 0 2 < cbits j.cmd 48 15 0 then t.incReg (Reg.TE_OLDVER b) else t

/-- The bay's table engine after a change of it. -/
@[simp] theorem State.modTe_te (s : State) (b : Nat) (f : Te → Te) : ((s.modTe b f).bay b).te = f (s.bay b).te := by
  simp [State.modTe]

/-- Counting leaves the bays alone. -/
@[simp] theorem State.incReg_bay (s : State) (a n b : Nat) : (s.incReg a n).bay b = s.bay b := rfl

/-- Staging rows leaves the bay's table commands alone. -/
@[simp] theorem setStaged_jobs (s : State) (b area : Nat) (rows : List (Nat × Nat × List Byte)) :
    ((setStaged s b area rows).bay b).te.jobs = (s.bay b).te.jobs := by
  simp [setStaged]

/-- A bay whose lookup has got a row runs that lookup. -/
@[simp] theorem lookupGot_jobs (s : State) (b : Nat) (j : TeJob) (r : RowMsg) : ((lookupGot s b j r).bay b).te.jobs = [lookupWith j r] := by
  unfold lookupGot
  dsimp only
  split <;> simp

/-- A row that a lookup waits for reaches it, and is staged when the lookup's staging area is to hold it (R229, R232, R233). -/
theorem takeRow_of_lookup {s : State} {b : Nat} {r : RowMsg} {j : TeJob}
    (hj : (s.bay b).te.jobs.find? (fun j => j.sent.any (fun e => e.1 == r.tag && e.2.contains r.slot)) = some j) (hc : r.code = 0)
    (ho : j.op = 1) :
    ∃ area rows, takeRow s b r =
      if j.stg.contains r.slot then setStaged (lookupGot s b j r) b area rows else lookupGot s b j r := by
  unfold takeRow
  rw [hj]
  dsimp only
  rw [if_neg (not_not.mpr hc), if_neg (by simp [ho]), if_pos (.inl ho), if_neg (by simp [ho])]
  exact ⟨_, _, rfl⟩

/-- A lookup that a row has reached is the bay's table command, and holds the row. -/
theorem takeRow_jobs_of_lookup {s : State} {b : Nat} {r : RowMsg} {j : TeJob}
    (hj : (s.bay b).te.jobs.find? (fun j => j.sent.any (fun e => e.1 == r.tag && e.2.contains r.slot)) = some j) (hc : r.code = 0)
    (ho : j.op = 1) : ((takeRow s b r).bay b).te.jobs = [lookupWith j r] := by
  obtain ⟨area, rows, h⟩ := takeRow_of_lookup hj hc ho
  rw [h]
  split <;> simp

/-! ### Messages of other devices (Table 12-11) -/

/-- An acknowledgement without a failure ends what its TAG has outstanding. -/
theorem ackLocal_of_sent {s : State} {b tag : Nat} {j : TeJob}
    (hj : (s.bay b).te.jobs.find? (fun j => j.sent.any (fun e => e.1 == tag)) = some j) :
    ackLocal s b tag 0 = s.modTe b (fun x => { x with jobs := x.jobs.map (fun k => { k with sent := k.sent.filter (fun e => e.1 != tag) }) }) := by
  simp only [ackLocal, hj, if_true]

/-! ### TE_CTRCLR (R253) -/

/-- What a register holds after a list of registers has been cleared. -/
theorem clearRegs_reg (f : Nat → Nat) (a : Nat) (ks : List Nat) (s : State) :
    (ks.foldl (fun t k => t.setReg (f k) 0) s).reg a = if a ∈ ks.map f then 0 else s.reg a := by
  induction ks generalizing s with
  | nil => simp
  | cons k ks ih =>
    rw [List.foldl_cons, ih]
    by_cases h : a = f k
    · subst h
      simp
    · simp [h, State.setReg_reg_ne]

/-- A write of TE_CTRCLR with bit 0 set clears the table engine's eighteen counters. -/
theorem teClear_of_bit {b v : Nat} (s : State) (h : bit v 0 = true) :
    teClear s b v = (List.range 18).foldl (fun t k => t.setReg (Reg.TE_LOOKUP b + 4 * k) 0) s := if_pos h

/-- A counter of the table engine reads 0 once they have been cleared. -/
theorem teClear_counter {b v k : Nat} (s : State) (h : bit v 0 = true) (hk : k < 18) : (teClear s b v).reg (Reg.TE_LOOKUP b + 4 * k) = 0 := by
  rw [teClear_of_bit s h, clearRegs_reg (fun k => Reg.TE_LOOKUP b + 4 * k),
    if_pos (List.mem_map.mpr ⟨k, List.mem_range.mpr hk, rfl⟩)]

/-- A register that is none of the counters keeps its value. -/
theorem teClear_reg_of_ne {a b v : Nat} (s : State) (h : bit v 0 = true) (ha : ∀ k, k < 18 → a ≠ Reg.TE_LOOKUP b + 4 * k) :
    (teClear s b v).reg a = s.reg a := by
  rw [teClear_of_bit s h, clearRegs_reg (fun k => Reg.TE_LOOKUP b + 4 * k), if_neg]
  intro hm
  obtain ⟨k, hk, e⟩ := List.mem_map.mp hm
  exact ha k (List.mem_range.mp hk) e.symm

/-- A write of TE_CTRCLR leaves the bays, the panes and the memory alone. -/
theorem teClear_frame (s : State) (b v : Nat) :
    (teClear s b v).bays = s.bays ∧ (teClear s b v).panes = s.panes ∧ (teClear s b v).dram = s.dram := by
  unfold teClear
  split
  · exact List.foldlRecOn (motive := fun (t : State) => t.bays = s.bays ∧ t.panes = s.panes ∧ t.dram = s.dram) _ _ ⟨rfl, rfl, rfl⟩
      fun _ h _ _ => h
  · exact ⟨rfl, rfl, rfl⟩

end Sys2Proof.Machine

open Sys2Proof Sys2Proof.Machine

/-- Settles O31: what comes to the table engine of a bay, taken kind by kind. -/
theorem tableEngineServes : Obligations.TableEngineServes := by
  refine ⟨fun b stamp r rs data s s1 hb h5 hq h => exec_rowRequest_of_done hb h5 hq (rowRequest1_of_row h),
    fun b dst r rs s s1 s2 hb h5 hq h hf => exec_rowRequest_of_done hb h5 hq (rowRequest1_of_fwd h hf),
    fun b stamp r rs s s1 hb h5 hq h => exec_rowRequest_of_done hb h5 hq (rowRequest1_of_absent h),
    fun b c cs s s1 s2 hb h5 hq h ha => exec_contribution_of_done hb h5 hq (contribution1_of_taken h ha),
    fun b r rs s hb h5 hq => exec_rowResponse_of_front hb h5 hq,
    fun b c d sh x bs s s1 s2 s3 s4 hb h5 hl hd ht hf hr hs => ?dirty,
    fun b c d sh x hd s s1 s2 s3 s4 hb h5 hl hc hg ht hf ha hr hs => ?flips,
    fun b r s j hj hc ho => ⟨lookupWith j r, takeRow_jobs_of_lookup hj hc ho, rfl, rfl⟩,
    fun b m s s1 hb h5 ht hn0 hn hl hc => ?lkreq, fun b m s s1 hb h5 ht hs hl => ?lkresp, fun b m s s1 hb h5 ht hl hc => ?grad,
    fun b m s s1 j hb h5 ht hs hj => ?grack, fun b m s s1 hb h5 ht hs hc => ?tesvc, fun b v s hb ho hv => ?clear⟩
  case dirty =>
    rw [exec_migrationCopyDone, answer_settleTe _ hb h5, copyDone_of_done hl (copyDone1_of_dirty hd ht hf hr hs)]
  case flips =>
    rw [exec_migrationCopyDone, answer_settleTe _ hb h5, copyDone_of_done hl (copyDone1_of_clean hc hg ht hf ha hr hs)]
  case lkreq =>
    rw [exec_lkreq, answer_settleTe _ hb h5]
    simp [lkreqIn, ht, hl, hc, hn0.ne', Nat.not_lt.mpr hn]
  case lkresp =>
    rw [exec_lkresp, answer_settleTe _ hb h5]
    simp [lkrespIn, ht, hs, Nat.not_lt.mpr hl]
  case grad =>
    rw [exec_grad, answer_settleTe _ hb h5]
    simp [gradIn, ht, hc, Nat.not_lt.mpr hl]
  case grack =>
    rw [exec_grack, answer_settleTe _ hb h5]
    simp only [grackIn, ht, hs, if_true, ackLocal_of_sent hj]
  case tesvc =>
    rw [exec_tesvc, answer_settleTe _ hb h5]
    simp [tesvcIn, ht, hs, hc]
  case clear =>
    refine ⟨keepStraps s (teClear s b v), ?_, fun k hk => ?_, fun a ha => teClear_reg_of_ne s hv ha, teClear_frame s b v⟩
    · rw [exec_teCtrclr, okBay_of_lt hb, answer_open ho]
    · rw [keepStraps_regN, State.regN, teClear_counter s hv hk]
      rfl

end

section
/-! SUPPORT. Streams (R262 to R273, R277): what their commands and their events do to one stream, and the statement that follows row by
row. -/

namespace Sys2Proof.Machine

open Sys2Proof

/-! ### What leaves a stream alone -/

@[simp] theorem streamOf_setReg (s : State) (a v i st : Nat) : streamOf (s.setReg a v) i st = streamOf s i st := rfl
@[simp] theorem streamOf_incReg (s : State) (a n i st : Nat) : streamOf (s.incReg a n) i st = streamOf s i st := rfl
@[simp] theorem streamOf_incReg64 (s : State) (lo hi n i st : Nat) : streamOf (s.incReg64 lo hi n) i st = streamOf s i st := rfl
/-- A signal of a pane only waits to be applied. -/
@[simp] theorem streamOf_paneSignal (s : State) (j obj amount : Nat) (completes : Bool) (guards : List Nat) (tag i st : Nat) :
    streamOf (paneSignal s j obj amount completes guards tag) i st = streamOf s i st := rfl
@[simp] theorem streamOf_dropReads (s : State) (j k i st : Nat) : streamOf (dropReads s j k) i st = streamOf s i st := rfl

/-! ### Commands of a stream -/

/-- An operation at a stream that answers does so in the state that it leaves; only its faults name the stream. -/
theorem runMc_atStream {α : Type} {st : Nat} {m : Mc α} {s t : State} {a : α} (h : runMc m s = (.ok a, t)) :
    runMc (atStream st m) s = (.ok a, t) := by
  have hm : m s = (.ok a, t) := h
  show (tryCatch m _ : Mc α) s = _
  simp only [tryCatch, tryCatchThe, MonadExceptOf.tryCatch, ExceptT.tryCatch, ExceptT.mk, bind, StateT.bind, hm]
  rfl

/-- The fields that a command on an open stream must have (R263): a stream and a count, and nothing else set. -/
structure StreamFields (c : Nat) : Prop where
  plain : plainForm c 16 = true
  low : cbits c 8 15 4 = 0
  high : cbits c 8 31 20 = 0
  rest : cbytes c 12 4 = 0

section

variable {i c op : Nat} {counted : Bool} {m : Stream → Nat → Mc Stream} {s s1 : State} {y : Stream}

/-- A sound command on an open stream puts back the stream that its own part makes of it. -/
theorem streamCmd_of_sound (hc : StreamFields c) (hn : counted = true → 1 ≤ cbits c 8 19 16 ∧ cbits c 8 19 16 ≤ 8)
    (ho : openStream (streamOf s i (cbits c 8 3 0)) = true)
    (hm : runMc (m (streamOf s i (cbits c 8 3 0)) (cbits c 8 19 16)) s = (.ok y, s)) :
    runMc (streamCmd i c counted m) s = (.ok true, setStream s i (cbits c 8 3 0) y) := by
  have hcount : (counted && (cbits c 8 19 16 == 0 || decide (8 < cbits c 8 19 16))) = false := by
    cases hk : counted
    · rfl
    · obtain ⟨h1, h8⟩ := hn hk
      simp [Nat.not_lt.mpr h8, Nat.one_le_iff_ne_zero.mp h1]
  refine runMc_bind_ok (a := ()) (runMc_atStream ?_)
  rw [runMc_bind_failIf (by simp [hc.low, hc.high, hc.rest, hcount]), runMc_bind_ok (runMc_get s),
    runMc_bind_failIf (by simp [ho]), runMc_bind_ok hm]
  rfl

/-- When it starts, it completes with that stream. -/
theorem runSe_of_start (hs : startState s i c (seRow op 16) (fun _ => false) = some s1) (hc : StreamFields c)
    (hn : counted = true → 1 ≤ cbits c 8 19 16 ∧ cbits c 8 19 16 ≤ 8) (ho : openStream (streamOf s1 i (cbits c 8 3 0)) = true)
    (hm : runMc (m (streamOf s1 i (cbits c 8 3 0)) (cbits c 8 19 16)) s1 = (.ok y, s1)) :
    runCmdLen s i c (seRow op 16) 16 (fun _ => false) (streamCmd i c counted m) =
      completed (setStream s1 i (cbits c 8 3 0) y) i c (seRow op 16) :=
  runCmdLen_of_start hs (bodyChecks_of_plain hc.plain) (streamCmd_of_sound hc hn ho hm)

end

/-- A stream that takes up, or hands over, `n` more blocks. -/
def movedStream (x : Stream) (n : Nat) : Stream := { x with done := x.done + n }

/-- What a counted command leaves of its stream before the stream may end. -/
def afterMove (s : State) (i c op : Nat) : State :=
  completed (setStream s i (cbits c 8 3 0) (movedStream (streamOf s i (cbits c 8 3 0)) (cbits c 8 19 16))) i c (seRow op 16)

@[simp] theorem streamOf_afterMove (s : State) (i c op : Nat) : streamOf (afterMove s i c op) i (cbits c 8 3 0) =
    movedStream (streamOf s i (cbits c 8 3 0)) (cbits c 8 19 16) := by
  rw [afterMove, streamOf_completed, streamOf_setStream]

/-- A stream whose blocks were taken up or handed over keeps its count of them, also when that ends it. -/
theorem streamOf_finishStream_afterMove (s : State) (i c op : Nat) :
    (streamOf (finishStream (afterMove s i c op) i (cbits c 8 3 0)) i (cbits c 8 3 0)).done =
        (streamOf s i (cbits c 8 3 0)).done + cbits c 8 19 16 ∧
      (streamOf (finishStream (afterMove s i c op) i (cbits c 8 3 0)) i (cbits c 8 3 0)).deliv = (streamOf s i (cbits c 8 3 0)).deliv := by
  obtain ⟨hdeliv, hdone⟩ := streamOf_finishStream (afterMove s i c op) i (cbits c 8 3 0)
  rw [hdeliv, hdone, streamOf_afterMove]
  exact ⟨rfl, rfl⟩

section

variable {i c : Nat} {s s1 : State} (hi : i < 144) (h5 : s.pwr.st ≠ 5) (hc : StreamFields c)
  (hn : 1 ≤ cbits c 8 19 16 ∧ cbits c 8 19 16 ≤ 8)
include hi h5 hc hn

/-- A counted command that moves its stream on completes, and ends a stream that has nothing left. -/
theorem answer_seCmd_of_start {op : Nat} {m : Stream → Nat → Mc Stream} (hs : startState s i c (seRow op 16) (fun _ => false) = some s1)
    (ho : openStream (streamOf s1 i (cbits c 8 3 0)) = true)
    (hm : runMc (m (streamOf s1 i (cbits c 8 3 0)) (cbits c 8 19 16)) s1 =
      (.ok (movedStream (streamOf s1 i (cbits c 8 3 0)) (cbits c 8 19 16)), s1)) :
    answer s (okPane i) (seCmd s i c op true m) = .next (followed s (finishStream (afterMove s1 i c op) i (cbits c 8 3 0))) := by
  have hr : runCmdLen s i c (seRow op 16) 16 (fun _ => false) (streamCmd i c true m) = afterMove s1 i c op :=
    runSe_of_start hs hc (fun _ => hn) ho hm
  have ho' : openStream (streamOf (afterMove s1 i c op) i (cbits c 8 3 0)) = true := by
    rw [streamOf_afterMove]
    exact ho
  rw [okPane_of_lt hi, answer_on h5]
  unfold seCmd
  rw [hr]
  dsimp only
  rw [if_pos ho']
  rfl

/-- A sound SRELEASE of an open load gives its delivered buffers back (R263). -/
theorem exec_srelease_of_start (hs : startState s i c (seRow 2 16) (fun _ => false) = some s1) {x : Stream}
    (hx : streamOf s1 i (cbits c 8 3 0) = x) (ho : openStream x = true) (hk : x.kind = 0) (hq : x.cancel = false)
    (hd : x.done + cbits c 8 19 16 ≤ x.deliv) :
    exec (.srelease i c) s = .next (followed s (finishStream (afterMove s1 i c 2) i (cbits c 8 3 0))) := by
  subst hx
  refine answer_seCmd_of_start hi h5 hc hn hs ho ?_
  rw [runMc_bind_failIf (by simp [hk, hq, Nat.not_lt.mpr hd])]
  rfl

/-- A sound SPOST of an open store hands filled buffers over (R263). -/
theorem exec_spost_of_start (hs : startState s i c (seRow 3 16) (fun _ => false) = some s1) {x : Stream}
    (hx : streamOf s1 i (cbits c 8 3 0) = x) (ho : openStream x = true) (hk : x.kind = 1) (hq : x.cancel = false)
    (hd : x.done - x.deliv + cbits c 8 19 16 ≤ x.nbuf) :
    exec (.spost i c) s = .next (followed s (finishStream (afterMove s1 i c 3) i (cbits c 8 3 0))) := by
  subst hx
  refine answer_seCmd_of_start hi h5 hc hn hs ho ?_
  rw [runMc_bind_failIf (by simp [hk, hq, Nat.not_lt.mpr hd])]
  rfl

end

/-! ### Cancelling a stream (R273) -/

/-- A stream marked cancelled: only the blocks that are being written stay. -/
def cancelledStream (x : Stream) : Stream :=
  { x with cancel := true, blocks := x.blocks.filter (·.writing), done := if x.kind = 0 then x.deliv else x.done, keep := [] }

/-- What a completed SCANCEL leaves of its stream before it discards anything. -/
def afterCancel (s : State) (i c : Nat) : State :=
  completed (setStream s i (cbits c 8 3 0) (cancelledStream (streamOf s i (cbits c 8 3 0)))) i c (seRow 4 16)

@[simp] theorem streamOf_afterCancel (s : State) (i c : Nat) :
    streamOf (afterCancel s i c) i (cbits c 8 3 0) = cancelledStream (streamOf s i (cbits c 8 3 0)) := by
  rw [afterCancel, streamOf_completed, streamOf_setStream]

/-- What the first SCANCEL of a stream leaves: its reads are dropped, and what it discards is counted. -/
def afterDiscard (s s1 : State) (i c : Nat) : State :=
  (dropReads (afterCancel s1 i c) i (cbits c 8 3 0)).incReg (Reg.SE_DISCARD i)
    (undelivered (streamOf s i (cbits c 8 3 0)) - ((streamOf s i (cbits c 8 3 0)).blocks.filter (·.writing)).length)

@[simp] theorem streamOf_afterDiscard (s s1 : State) (i c : Nat) :
    streamOf (afterDiscard s s1 i c) i (cbits c 8 3 0) = cancelledStream (streamOf s1 i (cbits c 8 3 0)) := by
  rw [afterDiscard, streamOf_incReg, streamOf_dropReads, streamOf_afterCancel]

/-- A sound SCANCEL of an open stream marks it; the first one discards, and may end the stream. -/
theorem exec_scancel_of_start {i c : Nat} {s s1 : State} (hi : i < 144) (h5 : s.pwr.st ≠ 5) (hc : StreamFields c)
    (hs : startState s i c (seRow 4 16) (fun _ => false) = some s1) (ho : openStream (streamOf s1 i (cbits c 8 3 0)) = true) :
    exec (.scancel i c) s = .next (followed s (if (streamOf s i (cbits c 8 3 0)).cancel then afterCancel s1 i c
      else finishStream (afterDiscard s s1 i c) i (cbits c 8 3 0))) := by
  have hr : runCmdLen s i c (seRow 4 16) 16 (fun _ => false) (streamCmd i c false (fun x _ => pure (cancelledStream x))) = afterCancel s1 i c :=
    runSe_of_start hs hc (fun h => absurd h Bool.false_ne_true) ho (runMc_pure _ s1)
  have hk : cancelStream s i c = if (streamOf s i (cbits c 8 3 0)).cancel then afterCancel s1 i c
      else finishStream (afterDiscard s s1 i c) i (cbits c 8 3 0) := by
    unfold cancelStream
    unfold cancelledStream at hr
    simp only [hr, streamOf_afterCancel]
    cases (streamOf s i (cbits c 8 3 0)).cancel <;> rfl
  show answer s (okPane i) (settle (cancelStream s i c)) = _
  rw [okPane_of_lt hi, answer_on h5, hk]
  rfl

/-- A cancelled stream that is ended has its blocks written, and stays cancelled or ends with status Cancelled (R273). -/
theorem streamOf_finishStream_cancelled {s : State} {i st : Nat} {x : Stream} (h : streamOf s i st = cancelledStream x) :
    (∀ y ∈ (streamOf (finishStream s i st) i st).blocks, y.writing = true) ∧
      ((streamOf (finishStream s i st) i st).cancel = true ∨ (streamOf (finishStream s i st) i st).status = 4) := by
  unfold finishStream
  rw [h]
  dsimp only
  rw [if_pos (show (cancelledStream x).cancel = true from rfl)]
  split
  · unfold seDone
    rw [streamOf_cmdDone, streamOf_setStream]
    exact ⟨fun y hy => absurd hy List.not_mem_nil, .inr rfl⟩
  · rw [h]
    exact ⟨fun y hy => (List.mem_filter.mp hy).2, .inl rfl⟩

/-! ### Opening a stream (R262) -/

/-- Buffers that a SOPEN asks for: none named are two. -/
def sopenBufs (c : Nat) : Nat := if cbits c 8 9 6 = 0 then 2 else cbits c 8 9 6

/-- The stream as a SOPEN opens it, at a device time. -/
def openedStream (c now : Nat) : Stream :=
  { status := 1, kind := cbits c 8 5 4, nbuf := sopenBufs c, syncen := cbits c 8 10 10 == 1, sync := cbits c 8 31 16
    bufaddr := cbits c 12 23 0, bufstride := cbits c 16 23 0, dlist := cbytes c 24 8, ndesc := cbits c 20 23 0, tag := hTag c, dry := now }

/-- What a SOPEN checks besides the stream and the claim: reserved bits, the ring, the descriptor list. -/
structure SoundOpen (c : Nat) : Prop where
  flags : cbits c 8 15 11 = 0
  bufRsv : cbits c 12 31 24 = 0
  strideRsv : cbits c 16 31 24 = 0
  countRsv : cbits c 20 31 24 = 0
  kind : cbits c 8 5 4 ≠ 3
  bufs : cbits c 8 9 6 ≤ 8
  bufAligned : cbits c 12 23 0 % 64 = 0
  strideAligned : cbits c 16 23 0 % 64 = 0
  stride : cbits c 16 23 0 ≠ 0
  listAligned : cbytes c 24 8 % 64 = 0
  count : cbits c 20 23 0 ≠ 0

/-- A sound SOPEN of a closed stream opens it, and stays incomplete. -/
theorem sopenBody_of_sound {i c : Nat} {s : State} {t : Task} (hc : SoundOpen c)
    (ho : openStream (streamOf s i (cbits c 8 3 0)) = false) (ht : (s.pane i).task.bind s.taskOf = some t)
    (hr : inClaim t (cbits c 12 23 0) (sopenBufs c * cbits c 16 23 0) = true) :
    runMc (sopenBody i c) s = (.ok false, setStream s i (cbits c 8 3 0) (openedStream c s.devTime)) := by
  have hrsv : (cbits c 8 15 11 != 0 || cbits c 12 31 24 != 0 || cbits c 16 31 24 != 0 || cbits c 20 31 24 != 0) = false := by
    simp [hc.flags, hc.bufRsv, hc.strideRsv, hc.countRsv]
  have hring : (cbits c 8 5 4 == 3 || decide (8 < cbits c 8 9 6) || cbits c 12 23 0 % 64 != 0 || cbits c 16 23 0 % 64 != 0 ||
      cbits c 16 23 0 == 0) = false := by
    simp [hc.kind, hc.bufs, hc.bufAligned, hc.strideAligned, hc.stride]
  have hlist : (cbytes c 24 8 % 64 != 0 || cbits c 20 23 0 == 0) = false := by simp [hc.listAligned, hc.count]
  have hclaim : (!inClaim t (cbits c 12 23 0) ((if cbits c 8 9 6 = 0 then 2 else cbits c 8 9 6) * cbits c 16 23 0)) = false := by
    rw [Bool.not_eq_false']
    exact hr
  refine runMc_bind_ok (a := ()) (runMc_atStream ?_)
  rw [runMc_bind_failIf hrsv, runMc_bind_ok (runMc_get s), runMc_bind_failIf ho, runMc_bind_failIf hring, runMc_bind_failIf hlist,
    runMc_bind_ok (curTask_of_running ht), runMc_bind_failIf hclaim]
  rfl

/-! ### Delivered blocks (R260, R265, R270, R271, R277) -/

/-- A stream once its demand block `y` of descriptor `d` is delivered. -/
def deliveredStream (x : Stream) (y : SBlk) (d : SDesc) (now : Nat) : Stream :=
  let last := y.q + 1 == d.total
  let cur := if last then (0, [0, 0, 0, 0]) else cursor d (y.q + 1)
  { x with
    deliv := x.deliv + 1
    done := if x.kind = 2 then x.deliv + 1 else x.done
    didx := if last then x.didx + 1 else x.didx
    q := if last then 0 else x.q + 1
    curb := cur.1
    cur := cur.2
    blocks := x.blocks.filter (fun z => z.no != y.no)
    slipped := false
    dry := if d.rate = 0 then noDry else min noDry (max x.dry now + rateTime (sblkBytes d y.q) d.rate)
    descs := if last && x.status != 5 then x.descs.filter (fun e => e.1 != y.desc) else x.descs
    keep := if last then x.keep.filter (fun e => decide (y.desc ≤ e.1)) else x.keep }

/-- The counters of a delivered block: its bytes, itself, and a descriptor that it finishes. -/
def countDelivered (s : State) (i : Nat) (y : SBlk) (d : SDesc) : State :=
  let t := (s.incReg64 (Reg.SE_BYTES_LO i) (Reg.SE_BYTES_HI i) (sblkBytes d y.q)).incReg (Reg.SE_BLOCKS i)
  if y.q + 1 == d.total then t.incReg (Reg.SE_DESC i) else t

/-- The largest slip of a pane, moved by a slipped stream that is `late` by so many ns (R271). -/
def noteLate (s : State) (i : Nat) (slipped : Bool) (late : Nat) : State :=
  if slipped = true ∧ s.regN (Reg.SE_SLIPMAX i) < late then s.setReg (Reg.SE_SLIPMAX i) (min late (2 ^ 32 - 1)) else s

/-- What a delivered block leaves before its stream may end: the stream moved on, the counters, the signal that it asks for. -/
def afterDelivery (s : State) (i st : Nat) (y : SBlk) (d : SDesc) : State :=
  let x := streamOf s i st
  let t := noteLate (countDelivered (setStream s i st (deliveredStream x y d s.devTime)) i y d) i x.slipped (s.devTime - x.dry)
  if x.syncen then paneSignal t i x.sync 1 false [] else t

@[simp] theorem streamOf_countDelivered (s : State) (j : Nat) (y : SBlk) (d : SDesc) (i st : Nat) :
    streamOf (countDelivered s j y d) i st = streamOf s i st := by
  unfold countDelivered
  dsimp only
  split <;> simp

@[simp] theorem streamOf_noteLate (s : State) (j : Nat) (slipped : Bool) (late i st : Nat) :
    streamOf (noteLate s j slipped late) i st = streamOf s i st := by
  unfold noteLate
  split <;> simp

/-- A delivered block leaves its stream moved on. -/
theorem streamOf_afterDelivery (s : State) (i st : Nat) (y : SBlk) (d : SDesc) :
    streamOf (afterDelivery s i st y d) i st = deliveredStream (streamOf s i st) y d s.devTime := by
  unfold afterDelivery
  dsimp only
  split <;> simp [streamOf_setStream]

/-- A complete demand block of an open stream whose descriptor is held is delivered. -/
theorem deliverBlock_of_done {s : State} {i st : Nat} {y : SBlk} {d : SDesc}
    (ho : openStream (streamOf (seArrived s i) i st) = true) (hy : blockDone (seArrived s i) i st (streamOf (seArrived s i) i st) = some y)
    (hd : heldDesc (streamOf (seArrived s i) i st) y.desc = some d) :
    deliverBlock s i st = finishStream (afterDelivery (seArrived s i) i st y d) i st := by
  unfold deliverBlock
  dsimp only
  rw [if_neg (by simp [ho]), hy]
  dsimp only
  rw [hd]
  rfl

theorem exec_blockDelivered {i st : Nat} {s : State} (hi : i < 144) (hst : st < 16) (h5 : s.pwr.st ≠ 5) :
    exec (.blockDelivered i st) s = .next (followed s (deliverBlock (settle s) i st)) := by
  show answer s (decide (i < 144 ∧ st < 16)) _ = _
  rw [decide_eq_true ⟨hi, hst⟩, answer_on h5]
  rfl

/-! ### Slips (R271) -/

theorem exec_streamSlip {i st : Nat} {s : State} (hi : i < 144) (hst : st < 16) (h5 : s.pwr.st ≠ 5) :
    exec (.streamSlip i st) s = .next (keepStraps s (streamSlip s i st)) := by
  show answer s (decide (i < 144 ∧ st < 16)) _ = _
  rw [decide_eq_true ⟨hi, hst⟩, answer_on h5]

/-- A running stream whose run-dry time has passed with its next block undelivered slips. -/
theorem streamSlip_of_late {s : State} {i st : Nat} {x : Stream} (hx : streamOf s i st = x) (ho : x.status = 1 ∨ x.status = 2)
    (hc : x.cancel = false) (hs : x.slipped = false) (hd : x.dry < s.devTime) (hn : x.didx ≠ x.ndesc)
    (hk : x.kind ≠ 1 ∨ x.done = x.deliv + x.nbuf) :
    streamSlip s i st = (setStream s i st { x with slipped := true }).incReg (Reg.SE_SLIP i) := by
  subst hx
  exact if_pos (by simp [ho, hc, hs, hd, hn, hk])

/-- A stream that has slipped does not slip again. -/
theorem streamSlip_of_slipped {s : State} {i st : Nat} (h : (streamOf s i st).slipped = true) : streamSlip s i st = s :=
  if_neg (by simp [h])

/-! ### The stream window (R277) -/

/-- A new word of SE_STRSEL leaves the stream that is selected. -/
theorem bits_setBits_word (n v : Nat) (h : n < 2 ^ 32) :
    bits (setBits n 7 4 v % 2 ^ 32) 3 0 = bits n 3 0 ∧ bits (setBits n 7 4 v % 2 ^ 32) 7 4 = v % 16 := by
  simp only [setBits, bits]
  omega

@[simp] theorem State.readOut_regN (s : State) (v a : Nat) : (s.readOut v).regN a = s.regN a := rfl

/-- A read of the window changes the selector's word alone. -/
theorem strdataRead_state (s : State) (i : Nat) :
    (strdataRead s i).2 = s.setField (Reg.SE_STRSEL i) 7 4 ((bits (s.regN (Reg.SE_STRSEL i)) 7 4 + 1) % 16) := rfl

/-- The selector after a read of the window. -/
theorem strdataRead_sel (s : State) (i : Nat) : (strdataRead s i).2.regN (Reg.SE_STRSEL i) =
    setBits (s.regN (Reg.SE_STRSEL i)) 7 4 ((bits (s.regN (Reg.SE_STRSEL i)) 7 4 + 1) % 16) % 2 ^ 32 := by
  rw [strdataRead_state, State.setField, State.setReg_regN]

theorem exec_seStrdataRead {i : Nat} {s : State} (hi : i < 144) (ho : regOpen s (Reg.SE_STRDATA i) = true) :
    exec (.seStrdataRead i) s = .next (keepStraps s ((strdataRead s i).2.readOut (strdataRead s i).1)) := by
  show answer s (okPane i) (whenOpen s (Reg.SE_STRDATA i) _) = _
  rw [okPane_of_lt hi, answer_open ho]

end Sys2Proof.Machine

open Sys2Proof Sys2Proof.Machine

/-- Settles O32, row by row: SOPEN through its body, SRELEASE and SPOST as counted commands, SCANCEL as the first of its stream, and the
three events. -/
theorem streamsFollowTheirCommandsAndEvents : Obligations.StreamsFollowTheirCommandsAndEvents := by
  refine ⟨fun i c s s1 t hi h5 hs hf hfl hb hsr hcr => ?sopen, fun i c s s1 hi h5 hs hf hl hh hr => ?srelease,
    fun i c s s1 hi h5 hs hf hl hh hr => ?spost, fun i c s s1 hi h5 hs hf hl hh hr => ?scancel,
    fun i st s y d hi hst h5 => ?delivered, fun i st s hi hst h5 => ?slip, fun i st s hi hst h5 hsl => ?slipped,
    fun i s hi ho => ?window⟩
  case sopen =>
    intro st nbuf ho hk hn hba hsa hs0 hla hc0 ht hcl
    exact answer_runCmd_underWay h5 hi hs hf (sopenBody_of_sound ⟨hfl, hb, hsr, hcr, hk, hn, hba, hsa, hs0, hla, hc0⟩ ho ht hcl)
  case srelease =>
    intro st n x h1 h8 ho hk hc hd
    exact exec_srelease_of_start hi h5 ⟨hf, hl, hh, hr⟩ ⟨h1, h8⟩ hs rfl ho hk hc hd
  case spost =>
    intro st n x h1 h8 ho hk hc hd
    exact exec_spost_of_start hi h5 ⟨hf, hl, hh, hr⟩ ⟨h1, h8⟩ hs rfl ho hk hc hd
  case scancel =>
    intro st x ho hc
    have h := exec_scancel_of_start hi h5 ⟨hf, hl, hh, hr⟩ hs ho
    rw [hc] at h
    exact h
  case delivered =>
    intro s1 x ho hy hd
    rw [exec_blockDelivered hi hst h5, deliverBlock_of_done ho hy hd]
    unfold afterDelivery noteLate countDelivered
    rfl
  case slip =>
    intro x ho hc hs hd hn hk
    rw [exec_streamSlip hi hst h5, streamSlip_of_late rfl ho hc hs hd hn hk]
  case slipped => rw [exec_streamSlip hi hst h5, streamSlip_of_slipped hsl]
  case window => exact exec_seStrdataRead hi ho

end

section
/-! SUPPORT. Resolutions, tails and migrations of the translation unit (R346 to R350, R358), the log's selector over SMBus (R544), and the
statement about completions that follows from them and from the laws of streams. -/

namespace Sys2Proof.Machine

open Sys2Proof

/-! ### What a log entry and a posted write leave of the translation unit -/

theorem sendHost_gx (s : State) (b vc : Nat) (m : List Byte) : (s.sendHost b vc m).gx = s.gx := by
  unfold State.sendHost
  split <;> rfl

theorem sendMsi_gx (s : State) (v : Nat) : (sendMsi s v).gx = s.gx := by
  unfold sendMsi
  generalize (if v < 48 then v % 16 else 0) = b
  dsimp only
  split
  · exact sendHost_gx s b 0 _
  · rfl

theorem raiseIrq_gx (s : State) (v : Nat) : (raiseIrq s v).gx = s.gx := by
  unfold raiseIrq
  split
  · exact sendMsi_gx (s.setReg _ _) v
  · rfl

theorem logEvt_gx (s : State) (ev verdict dkind inst addr d0 d1 : Nat) : (logEvt s ev verdict dkind inst addr d0 d1).gx = s.gx := by
  unfold logEvt
  dsimp only
  split
  · exact raiseIrq_gx { s with rel := _ } 49
  · rfl

theorem sysPost_gx (s : State) (w : Who) (pa : Nat) (bs : List Byte) (put : Purpose) : (sysPost s w pa bs put).gx = s.gx := by
  unfold sysPost
  refine List.foldlRecOn (motive := fun (t : State) => t.gx = s.gx) _ _ rfl fun t ht l _ => ?_
  dsimp only
  split
  · exact (logEvt_gx t ..).trans ht
  · exact ht

/-- An entry of the fault queue that is set, or cleared, changes the entry alone. -/
theorem setFq_gx (s : State) (k : Nat) (e : Option FqEnt) : (setFq s k e).gx = { s.gx with fq := tset none s.gx.fq k e } := by
  unfold setFq
  dsimp only
  rw [sysPost_gx]
  split <;> rfl

/-! ### Resolutions (R348, R358) -/

/-- A resolution without a code that names a pending entry, with no notice to be written, wakes its waiters. -/
theorem fresolve_of_pending {s : State} {v : Nat} {e : FqEnt} (he : tget none s.gx.fq (bits v 7 0) = some e) (hp : e.st = 1)
    (hq : e.seq % 65536 = bits v 31 16) (hn : s.gx.noticeHeld = []) (hb : bit v 8 = false) :
    fresolve s v = freeWake s (bits v 7 0) e := by
  unfold fresolve freeWhenTold freeEnt
  simp only [he, hp, hq, hn, hb, and_self, if_true, List.any_nil, Bool.false_eq_true, if_false]

/-- A resolution of an entry that is free is stale. -/
theorem fresolve_of_free {s : State} {v : Nat} (he : tget none s.gx.fq (bits v 7 0) = none) :
    fresolve s v = s.incReg Reg.XLT_STALERES := by
  unfold fresolve
  dsimp only
  rw [he]

theorem exec_xltFresolve {v : Nat} {s : State} (ho : regOpen s Reg.XLT_FRESOLVE = true) :
    exec (.xltFresolve v) s = .next (followed s (fresolve s v)) := answer_open ho

theorem exec_xltFntailWrite {v : Nat} {s : State} (ho : regOpen s Reg.XLT_FNTAIL = true) :
    exec (.xltFntailWrite v) s = .next (followed s (retryStalls (s.setReg Reg.XLT_FNTAIL (v % 512)))) := answer_open ho

theorem exec_xltMptailWrite {v : Nat} {s : State} (ho : regOpen s Reg.XLT_MPTAIL = true) :
    exec (.xltMptailWrite v) s = .next (keepStraps s (s.setReg Reg.XLT_MPTAIL (v % 1024))) := answer_open ho

/-! ### Migrations (R350) -/

/-- A step of a migration changes the migration alone. -/
@[simp] theorem migAt_mig (s : State) (m : Mig) (n : Nat) : (migAt s m n).gx.mig = some { m with step := n } := rfl
@[simp] theorem migAt_fq (s : State) (m : Mig) (n : Nat) : (migAt s m n).gx.fq = s.gx.fq := rfl
@[simp] theorem dropMig_gx (s : State) : (dropMig s).gx = s.gx := rfl
@[simp] theorem dropNeeds_gx (s : State) (w : Who) : (dropNeeds s w).gx = s.gx := rfl

theorem exec_migrationStart {s : State} (h5 : s.pwr.st ≠ 5) : exec .migrationStart s = .next (followed s (migStart s)) := answer_on h5

theorem exec_migrationStepDone {s : State} (h5 : s.pwr.st ≠ 5) : exec .migrationStepDone s = .next (followed s (migStep s)) := answer_on h5

/-- The state in which a migration of entry `k` to a page of the pool has begun. -/
def migBegun (s : State) (k : Nat) (e : FqEnt) (page : Nat) : State :=
  migAt ((setFq (dropNeeds s (.ctl .pool)) k (some { e with st := 2, newpa := page })).setReg Reg.XLT_MPHEAD
    ((s.regN Reg.XLT_MPHEAD + 1) % 1024)) { entry := k, step := 2, newpa := page } 2

/-- The oldest entry that asks for a migration takes a usable page of the pool. -/
theorem migStart_of_page {s s1 : State} {k : Nat} {e : FqEnt} {bs : List Byte} (hm : s.gx.mig = none) (he : oldestMigrate s = some (k, e))
    (hp : poolEmpty s = false) (hr : runMc (sysRead (.ctl .pool) (poolAddr s) 8) s = (.ok bs, s1))
    (hk : poolPageOk s1 (localPa (leNat bs) / 4096 * 4096) = true) : migStart s = migBegun s1 k e (localPa (leNat bs) / 4096 * 4096) := by
  have hne : s.regN Reg.XLT_MPHEAD ≠ s.regN Reg.XLT_MPTAIL := fun h => by simp [poolEmpty, h] at hp
  unfold migStart
  simp only [hm, he]
  rw [if_neg hne, if_neg (by simp [hp]), hr]
  dsimp only
  rw [if_pos hk]
  rfl

/-- A migration that has begun is the device's, at its first step. -/
theorem migBegun_mig (s : State) (k : Nat) (e : FqEnt) (page : Nat) :
    (migBegun s k e page).gx.mig = some { entry := k, step := 2, newpa := page } := migAt_mig _ _ _

/-- Its entry holds the page, and is no longer pending. -/
theorem migBegun_entry (s : State) (k : Nat) (e : FqEnt) (page : Nat) :
    tget none (migBegun s k e page).gx.fq k = some { e with st := 2, newpa := page } := by
  rw [migBegun, migAt_fq, State.setReg_gx, setFq_gx]
  dsimp only
  rw [tget_tset_self]

theorem dropOwnerAll_gx (s : State) (page : Nat) : (dropOwnerAll s page).gx = s.gx :=
  List.foldlRecOn (motive := fun (t : State) => t.gx = s.gx) _ _ rfl fun _ h _ _ => h

theorem migReads_gx (s : State) (b hpa : Nat) : (migReads s b hpa).gx = s.gx :=
  List.foldlRecOn (motive := fun (t : State) => t.gx = s.gx) _ _ rfl fun _ h _ _ => h

/-- Once the owner entry is written, every bay forgets the owner and the page is read. -/
theorem migStep_of_owned {s : State} {m : Mig} {e : FqEnt} (hm : s.gx.mig = some m) (h3 : m.step = 3)
    (he : tget none s.gx.fq m.entry = some e) (ha : ∀ a ∈ s.accs, ofMig a = true → a.stage = .got ∧ a.flt = none) :
    migStep s = migAt (migReads (dropOwnerAll (dropMig s) (m.newpa / 4096)) (bayOfPa s m.newpa) e.hpa) m 4 := by
  have hall : ∀ a ∈ s.accs.filter ofMig, a.stage = .got ∧ a.flt = none := fun a h =>
    ha a (List.mem_filter.mp h).1 (List.mem_filter.mp h).2
  have hbad : (s.accs.filter ofMig).any (fun a => a.stage == .got && a.flt.isSome) = false :=
    List.any_eq_false.mpr fun a h => by simp [(hall a h).2]
  have hopen : (s.accs.filter ofMig).any (fun a => a.stage != .got) = false :=
    List.any_eq_false.mpr fun a h => by simp [(hall a h).1]
  unfold migStep
  simp only [hm, he]
  simp [h3, hbad, hopen]

/-! ### LOG_SEL over SMBus -/

/-- LOG_SEL is a plain register: a write sets the bits that it has. -/
theorem writeEffect_logSel (s : State) (path v : Nat) :
    writeEffect s path Reg.LOG_SEL v = s.setReg Reg.LOG_SEL (Nat.land v (rowMask Reg.LOG_SEL)) := rfl

theorem exec_smbusWrite (a v : Nat) (s : State) :
    exec (.smbusWrite a v) s = answer s (decide (a < 2 ^ 32 ∧ v < 2 ^ 32)) (settle (rowAccess s 1 a v true)) := rfl

end Sys2Proof.Machine

open Sys2Proof Sys2Proof.Machine

/-- Settles O60, clause by clause: the stream's positions through what ends a stream keeps, the translation unit's through what a posted
write leaves of it. -/
theorem streamAndMigrationCommandsComplete : Obligations.StreamAndMigrationCommandsComplete := by
  refine ⟨fun i c s s1 hi h5 hs hf hl hh hr h1 h8 => ?srelease, fun i c s s1 hi h5 hs hf hl hh hr h1 h8 => ?spost,
    fun i c s s1 hi h5 hs hf hl hh hr ho => ?scancel, fun i st s y d hi hst h5 => ?delivered,
    fun i st s hi hst h5 ho hk hc hd hn => ?slip, fun i s hi ho => ?window, fun v s e ho he hp hq hn hb => ?resolved,
    fun v s ho he => ?stale, fun v s ho => ⟨_, exec_xltFntailWrite ho, rfl⟩, fun v s ho => ?mptail,
    fun k e bs s s1 h5 hm he hp hr hk => ?migStart, fun m e s h5 hm h3 he ha => ?migStep, fun v s hv h5 hu hb ha => ?logSel⟩
  case srelease =>
    intro x ho hk hc hd
    exact ⟨_, exec_srelease_of_start hi h5 ⟨hf, hl, hh, hr⟩ ⟨h1, h8⟩ hs rfl (by simp [openStream, x, ho]) hk hc hd,
      streamOf_finishStream_afterMove s1 i c 2⟩
  case spost =>
    intro x ho hk hc hd
    exact ⟨_, exec_spost_of_start hi h5 ⟨hf, hl, hh, hr⟩ ⟨h1, h8⟩ hs rfl (by simp [openStream, x, ho]) hk hc hd,
      streamOf_finishStream_afterMove s1 i c 3⟩
  case scancel =>
    refine ⟨_, exec_scancel_of_start hi h5 ⟨hf, hl, hh, hr⟩ hs (by simp [openStream, ho]), ?_⟩
    split
    · rw [streamOf_afterCancel]
      exact ⟨fun y hy => (List.mem_filter.mp hy).2, .inl rfl⟩
    · exact streamOf_finishStream_cancelled (streamOf_afterDiscard s s1 i c)
  case delivered =>
    intro x ho hy hd
    rw [exec_blockDelivered hi hst h5, deliverBlock_of_done ho hy hd]
    refine ⟨_, rfl, ?_⟩
    rw [(streamOf_finishStream _ i st).1, streamOf_afterDelivery]
    rfl
  case slip =>
    refine ⟨_, exec_streamSlip hi hst h5, ?_⟩
    cases hs : (streamOf s i st).slipped
    · rw [streamSlip_of_late rfl (.inl ho) hc hs hd hn (.inl (by simp [hk])), streamOf_incReg, streamOf_setStream]
    · rw [streamSlip_of_slipped hs, hs]
  case window =>
    have hb := bits_setBits_word (s.regN (Reg.SE_STRSEL i)) ((bits (s.regN (Reg.SE_STRSEL i)) 7 4 + 1) % 16) (s.regN_lt _)
    refine ⟨_, exec_seStrdataRead hi ho, ?_⟩
    rw [keepStraps_regN, State.readOut_regN, strdataRead_sel, hb.1, hb.2, Nat.mod_mod, keepStraps_panes, keepStraps_bays, State.readOut_panes,
      State.readOut_bays, strdataRead_state, State.setField_panes, State.setField_bays]
    exact ⟨rfl, rfl, rfl, rfl⟩
  case resolved => rw [exec_xltFresolve ho, fresolve_of_pending he hp hq hn hb]
  case stale => rw [exec_xltFresolve ho, fresolve_of_free he]
  case mptail =>
    refine ⟨_, exec_xltMptailWrite ho, ?_, rfl, rfl, rfl, rfl, rfl⟩
    rw [keepStraps_regN, State.setReg_regN]
    omega
  case migStart =>
    refine ⟨_, ?_, migBegun_mig s1 k e _, migBegun_entry s1 k e _⟩
    rw [exec_migrationStart h5, migStart_of_page hm he hp hr hk]
  case migStep =>
    rw [exec_migrationStepDone h5, migStep_of_owned hm h3 he ha]
    exact ⟨_, rfl, migAt_mig _ _ _, by rw [migAt_fq, migReads_gx, dropOwnerAll_gx, dropMig_gx]⟩
  case logSel =>
    have hl : resolve s Reg.LOG_SEL = Reg.LOG_SEL := resolve_low s _ (by decide)
    rw [exec_smbusWrite, decide_eq_true ⟨by decide, hv⟩, answer_on h5, rowAccess_write h5 hu hb ha (by rw [hl]; decide) (by rw [hl]; rfl),
      hl, writeEffect_logSel]
    rfl

end

section
/-! SUPPORT. A device at rest (R269, R521): each part of what follows a step changes nothing where it finds nothing to do. -/

namespace Sys2Proof.Machine

open Sys2Proof

/-- Steps that each leave a state alone leave it alone together. -/
theorem foldl_keeps {α : Type} {f : State → α → State} {l : List α} {s : State} (h : ∀ a ∈ l, f s a = s) : l.foldl f s = s :=
  List.foldlRecOn (motive := fun t => t = s) l f rfl fun _ ht a ha => ht ▸ h a ha

/-- No domain reset is due: none runs. -/
theorem runResets_at_rest {s : State} (h : ∀ e ∈ s.rel.doms, e.2.due = 0) : runResets s = s := by
  have hn : s.rel.doms.filter (fun e => e.2.due != 0) = [] := List.filter_eq_nil_iff.mpr fun e he => by simp [h e he]
  unfold runResets
  rw [hn]
  rfl

/-- No stream is open: none advances. -/
theorem goStreams_at_rest {s : State} (h : ∀ e ∈ s.panes, (s.pane e.1).seq.streams.all (fun x => !openStream x.2) = true) :
    goStreams s = s := foldl_keeps fun e he => if_pos (h e he)

/-- No pane switches: no switch advances. -/
theorem goSwitches_at_rest {s : State} (h : ∀ e ∈ s.panes, (s.pane e.1).sw = none) : goSwitches s = s :=
  foldl_keeps fun e he => if_neg (by simp [h e he])

/-- The units of the bays have nothing to send and no doorbell to serve. -/
theorem goUnits_at_rest {s : State} (h : ∀ b, b < 16 → (s.bay b).tfHeld = [] ∧ (s.bay b).mem.held = [] ∧ (s.bay b).dbWait = [])
    (hn : s.gx.noticeHeld = []) : goUnits s = s := by
  unfold goUnits
  dsimp only
  rw [foldl_keeps, hn]
  · rfl
  · intro b hb
    obtain ⟨htf, hret, hdb⟩ := h b (List.mem_range.mp hb)
    simp [htf, hret, goDoorbells_none hdb]

/-- No task is listed: no dispatcher decides. -/
theorem decideAll_at_rest {s : State} (h : s.tasks = []) : decideAll s = s := if_pos (by simp [h])

end Sys2Proof.Machine

open Sys2Proof Sys2Proof.Machine

/-- Settles O50: the parts of `settle` in their order, each at rest. -/
theorem settleAtRestChangesNothing : Obligations.SettleAtRestChangesNothing := by
  intro s hdoms hstreams hsw hunits hnotices haccs htasks
  unfold settle
  rw [runResets_at_rest hdoms, goStreams_at_rest hstreams, goSwitches_at_rest hsw, goUnits_at_rest hunits hnotices]
  dsimp only
  rw [if_pos (by simp [haccs]), decideAll_at_rest htasks]

end

section
/-! SUPPORT. The address map (R289, R290): the place of an address within its region and the page that lies at a place, that the ranges of
channel offsets of different regions lie apart, that every mapped address is the one whose home is its place, and the obligation, which
the removal of a channel refutes. -/

namespace Sys2Proof.Machine

open Sys2Proof

/-! ### Within a region -/

/-- Stack, quarter of the stack and granule index of the byte at `off` of a region (R290). -/
def placeIn (r : Region) (off : Nat) : Nat × Nat × Nat :=
  let pn := off / 4096
  if r.kind = 0 then (Nat.xor (pn % 16) (pn / 64 % 16), Nat.xor (pn / 16 % 4) (pn / 1024 % 4), pn / 64)
  else if r.kind = 1 then
    let part := off / (r.size / 16)
    let pp := pn - part * (r.size / 65536)
    (part, Nat.xor (pp % 4) (pp / 4 % 4), pp / 4)
  else (r.stack, Nat.xor (pn % 4) (pn / 4 % 4), pn / 4)

/-- The page of a region that lies at a stack, a quarter of it and a granule index (the inverse of R290). -/
def pageAt (r : Region) (st q j : Nat) : Nat :=
  if r.kind = 0 then j * 64 + Nat.xor q (j / 16 % 4) * 16 + Nat.xor st (j % 16)
  else if r.kind = 1 then st * (r.size / 65536) + j * 4 + Nat.xor q (j % 4)
  else j * 4 + Nat.xor q (j % 4)

/-- The range of channel offsets of a region in a stack (R289). -/
def Region.holds (r : Region) (rs : List Region) (st off : Nat) : Bool :=
  chBase st r.base rs ≤ off && off < chBase st r.base rs + extentIn r st

/-- An address that maps lies in a region of the map, at the place that the region gives it. -/
theorem mapAddr_eq_some {s : State} {pa : Nat} {p : Nat × Nat × Nat} (h : mapAddr s pa = some p) :
    ∃ r ∈ s.regions, r.base ≤ pa ∧ pa < r.base + r.size ∧
      p = ((placeIn r (pa - r.base)).1, 8 * (placeIn r (pa - r.base)).2.1 + (pa - r.base) / 512 % 8,
        chBase (placeIn r (pa - r.base)).1 r.base s.regions + 512 * (placeIn r (pa - r.base)).2.2 + (pa - r.base) % 512) := by
  unfold mapAddr at h
  split at h
  · cases h
  · rename_i r hr
    have hin := List.find?_some hr
    rw [Bool.and_eq_true, decide_eq_true_eq, decide_eq_true_eq] at hin
    exact ⟨r, List.mem_of_find?_eq_some hr, hin.1, hin.2, (Option.some.inj h).symm⟩

/-- The address at home at a channel offset lies in the region whose range holds it. -/
theorem homeAt_of_find {s : State} {st off : Nat} {r : Region} (ch : Nat) (h : s.regions.find? (fun x => x.holds s.regions st off) = some r) :
    homeAt s st ch off = some (r.base + pageAt r st (ch / 8) ((off - chBase st r.base s.regions) / 512) * 4096 + ch % 8 * 512 +
      (off - chBase st r.base s.regions) % 512) := by
  unfold Region.holds at h
  unfold homeAt
  rw [h]
  rfl

/-- A number and its partner in an exclusive or, taken with the partner again. -/
theorem xor_xor_self (a b : Nat) : Nat.xor (Nat.xor a b) b = a := Nat.xor_xor_cancel_right a b

theorem xor_lt_four {a b : Nat} (ha : a < 4) (hb : b < 4) : Nat.xor a b < 4 := Nat.xor_lt_two_pow (n := 2) ha hb

/-- The quarter of a stack is one of four. -/
theorem placeIn_quarter_lt (r : Region) (off : Nat) : (placeIn r off).2.1 < 4 := by
  have hx (a b : Nat) : Nat.xor (a % 4) (b % 4) < 4 := xor_lt_four (by omega) (by omega)
  unfold placeIn
  dsimp only
  split_ifs <;> exact hx _ _

/-- The bytes of one sixteenth of a bay-local region of `m` units, and the pages before them. -/
theorem sixteenth (m off : Nat) (hm : 0 < m) :
    off / (0x40000 * m / 16) * (0x40000 * m / 65536) ≤ off / 4096 ∧
      off / 4096 - off / (0x40000 * m / 16) * (0x40000 * m / 65536) < 4 * m := by
  have h16 : 0x40000 * m / 16 = 16384 * m := by omega
  have h64k : 0x40000 * m / 65536 = 4 * m := by omega
  rw [h16, h64k]
  have hlo : off / (16384 * m) * (16384 * m) ≤ off := Nat.div_mul_le_self _ _
  have hhi : off < off / (16384 * m) * (16384 * m) + 16384 * m := by
    have := Nat.lt_div_mul_add (a := off) (b := 16384 * m) (by omega)
    omega
  have e1 : off / (16384 * m) * (16384 * m) = 16384 * (off / (16384 * m) * m) := by ring
  have e2 : off / (16384 * m) * (4 * m) = 4 * (off / (16384 * m) * m) := by ring
  rw [e1] at hlo hhi
  rw [e2]
  generalize off / (16384 * m) * m = n at *
  omega

/-- The place of a byte lies within the extent of its region, and its page is found at it. -/
theorem pageAt_placeIn {r : Region} {off : Nat} (hs : r.size % 0x40000 = 0) (hk : r.kind ≤ 2) (ho : off < r.size) :
    pageAt r (placeIn r off).1 (placeIn r off).2.1 (placeIn r off).2.2 = off / 4096 ∧
      512 * (placeIn r off).2.2 + 512 ≤ extentIn r (placeIn r off).1 := by
  obtain ⟨m, hm⟩ := Nat.dvd_of_mod_eq_zero hs
  unfold placeIn pageAt extentIn
  by_cases h0 : r.kind = 0
  · have hj : off / 4096 / 64 / 16 = off / 4096 / 1024 := Nat.div_div_eq_div_mul ..
    simp only [h0, OfNat.zero_ne_ofNat, if_true, if_false, hj, xor_xor_self]
    omega
  by_cases h1 : r.kind = 1
  · have hpage := sixteenth m off (by omega)
    rw [← hm] at hpage
    simp only [h1, one_ne_zero, OfNat.one_ne_ofNat, if_true, if_false, xor_xor_self]
    omega
  · have h2 : r.kind = 2 := by omega
    simp only [h2, OfNat.ofNat_ne_zero, OfNat.ofNat_ne_one, if_false, if_true, xor_xor_self]
    omega

/-! ### Regions apart -/

/-- The extent of the first region of a map lies below the channel bases of the others. -/
theorem extentIn_le_chBase {r y : Region} (rs : List Region) (st : Nat) (h : r.base ≠ y.base) : extentIn r st ≤ chBase st y.base (r :: rs) := by
  rw [chBase, if_neg h]
  omega

/-- The ranges of channel offsets of two regions of a map lie apart (R289). -/
theorem chBase_apart {rs : List Region} (st : Nat) (hd : rs.Pairwise (fun x y => x.base ≠ y.base)) {x y : Region} (hx : x ∈ rs) (hy : y ∈ rs)
    (hne : x.base ≠ y.base) :
    chBase st x.base rs + extentIn x st ≤ chBase st y.base rs ∨ chBase st y.base rs + extentIn y st ≤ chBase st x.base rs := by
  induction rs with
  | nil => cases hx
  | cons z rs ih =>
    obtain ⟨hz, hrs⟩ := List.pairwise_cons.mp hd
    rcases List.mem_cons.mp hx with rfl | hx
    · left
      rw [chBase, if_pos rfl, Nat.zero_add]
      exact extentIn_le_chBase rs st hne
    rcases List.mem_cons.mp hy with rfl | hy
    · right
      rw [chBase, if_pos rfl, Nat.zero_add]
      exact extentIn_le_chBase rs st hne.symm
    · simp only [chBase, if_neg (hz x hx), if_neg (hz y hy)]
      have := ih hrs hx hy
      omega

/-- The regions of a legal map have bases of their own. -/
theorem bases_apart {s : State} (h : MapLegal s) : s.regions.Pairwise (fun x y => x.base ≠ y.base) := by
  obtain ⟨hr, hd⟩ := h
  refine hd.imp_of_mem fun {x y} hx hy hxy => ?_
  have := (hr x hx).2.2.1
  have := (hr y hy).2.2.1
  omega

/-- A region of a legal map whose range holds a channel offset is the one that is found there. -/
theorem find_holds {s : State} (h : MapLegal s) {r : Region} (hr : r ∈ s.regions) {st off : Nat} (ho : r.holds s.regions st off = true) :
    s.regions.find? (fun x => x.holds s.regions st off) = some r := by
  obtain ⟨x, hx⟩ := Option.isSome_iff_exists.mp (List.find?_isSome (p := fun x : Region => x.holds s.regions st off) |>.mpr ⟨r, hr, ho⟩)
  have hxo := List.find?_some hx
  have hxm := List.mem_of_find?_eq_some hx
  have hb : x.base = r.base := by
    by_contra hne
    have := chBase_apart st (bases_apart h) hxm hr hne
    simp only [Region.holds, Bool.and_eq_true, decide_eq_true_eq] at ho hxo
    omega
  rw [hx, List.inj_on_of_nodup_map (List.pairwise_map.mpr (bases_apart h)) hxm hr hb]

/-! ### The map and its inverse -/

/-- An address that maps is the one at home at its place (R290). -/
theorem homeAt_of_mapAddr {s : State} {pa st ch off : Nat} (hl : MapLegal s) (h : mapAddr s pa = some (st, ch, off)) :
    homeAt s st ch off = some pa := by
  obtain ⟨r, hr, hlo, hhi, hp⟩ := mapAddr_eq_some h
  obtain ⟨-, hsize, -, hkind, -⟩ := hl.1 r hr
  obtain ⟨hpage, hext⟩ := pageAt_placeIn (off := pa - r.base) hsize hkind (by omega)
  have hq := placeIn_quarter_lt r (pa - r.base)
  generalize placeIn r (pa - r.base) = p at *
  obtain ⟨st', q, j⟩ := p
  simp only [Prod.mk.injEq] at hp
  obtain ⟨rfl, rfl, rfl⟩ := hp
  dsimp only at hpage hext hq
  have hin : r.holds s.regions st (chBase st r.base s.regions + 512 * j + (pa - r.base) % 512) = true := by
    simp only [Region.holds, Bool.and_eq_true, decide_eq_true_eq]
    omega
  rw [homeAt_of_find _ (find_holds hl hr hin)]
  have hq' : (8 * q + (pa - r.base) / 512 % 8) / 8 = q := by omega
  have hj : (chBase st r.base s.regions + 512 * j + (pa - r.base) % 512 - chBase st r.base s.regions) / 512 = j := by omega
  rw [hq', hj, hpage]
  congr 1
  omega

/-- No two addresses of a legal map share a place. -/
theorem mapAddr_inj {s : State} {x y : Nat} {p : Nat × Nat × Nat} (hl : MapLegal s) (hx : mapAddr s x = some p) (hy : mapAddr s y = some p) :
    x = y :=
  Option.some.inj ((homeAt_of_mapAddr hl hx).symm.trans (homeAt_of_mapAddr hl hy))

/-- The offset finds its address again, unless its stack has lost the channel, or keeps a band of a lost channel at it (R311). -/
theorem addrAt_of_mapAddr {s : State} {pa st ch off : Nat} (hl : MapLegal s)
    (hr : ∀ r, (s.bay st).mem.removed = some r → ch ≠ r ∧ off < 31 * bandBytes) (h : mapAddr s pa = some (st, ch, off)) :
    addrAt s st ch off = some pa := by
  unfold addrAt
  split
  · rename_i r hrem
    obtain ⟨hch, hoff⟩ := hr r hrem
    rw [if_neg hch, if_neg (Nat.not_le.mpr hoff)]
    exact homeAt_of_mapAddr hl h
  · exact homeAt_of_mapAddr hl h

/-- A removed channel holds no address (R311). -/
theorem addrAt_removed {s : State} {st ch : Nat} (off : Nat) (h : (s.bay st).mem.removed = some ch) : addrAt s st ch off = none := by
  unfold addrAt
  rw [h]
  exact if_pos rfl

end Sys2Proof.Machine

open Sys2Proof Sys2Proof.Machine

/-- Refutes O53. Its second clause is `mapAddr_inj`; its first holds away from a removed channel (`addrAt_of_mapAddr`), and not at one:
`mapAddr` gives the place of R290, which a removal does not change, `addrAt` what the channel offset holds now, and a removed channel
holds nothing (R311). Here address 0 maps to channel 0 of stack 0, which is removed. -/
theorem not_addressMapIsOneToOne : ¬ Obligations.AddressMapIsOneToOne := by
  rintro ⟨hfind, -⟩
  let s : State := ({ State.reset with regions := [{ base := 0, size := 0x40000, kind := 2, stack := 0 }] } : State).modMem 0
    (fun m => { m with removed := some 0 })
  have hl : MapLegal s := by
    unfold MapLegal
    decide
  have hm : mapAddr s 0 = some (0, 0, 0) := by decide
  have hr : (s.bay 0).mem.removed = some 0 := by decide
  have := hfind s 0 0 0 0 hl hm
  rw [addrAt_removed 0 hr] at this
  cases this

end

section
/-! SUPPORT. Bytes of local memory (R294, R298): what a list of writes leaves at each address, that a store clears the errors of every
word it touches, and that it is delivered as it was stored. -/

namespace Sys2Proof.Machine

open Sys2Proof

/-- What consecutive writes from `a` on leave at each address: the new byte in their range, the old one elsewhere. -/
theorem tget_rawWrite (d : Byte) (t : Tbl Byte) (a x : Nat) (bs : List Byte) :
    tget d (rawWrite t d a bs) x = if a ≤ x ∧ x < a + bs.length then bs.getD (x - a) 0 else tget d t x := by
  unfold rawWrite tsetAll
  induction bs generalizing t a with
  | nil => rw [if_neg (by simp)]; rfl
  | cons b bs ih =>
    have hshift : (b :: bs).mapIdx (fun k b => (a + k, b)) = (a, b) :: bs.mapIdx (fun k b => (a + 1 + k, b)) := by
      simp [List.mapIdx_cons, Nat.add_assoc, Nat.add_comm 1]
    rw [hshift, List.foldl_cons, ih, tget_tset, List.length_cons]
    by_cases hx : x = a
    · subst hx
      rw [if_neg (by omega), if_pos rfl, if_pos (by omega), Nat.sub_self]
      rfl
    · by_cases hin : a + 1 ≤ x ∧ x < a + 1 + bs.length
      · have hk : x - a = x - (a + 1) + 1 := by omega
        rw [if_pos hin, if_pos (by omega), hk]
        rfl
      · rw [if_neg hin, if_neg hx, if_neg (by omega)]

/-- Removing entries leaves unlisted what was so. -/
theorem tget_foldl_tdel_zero {ws : List Nat} {t : Tbl Nat} {w : Nat} (h : w ∈ ws ∨ tget 0 t w = 0) : tget 0 (ws.foldl tdel t) w = 0 := by
  induction ws generalizing t with
  | nil => exact h.resolve_left (by simp)
  | cons k ws ih =>
    refine ih ?_
    by_cases hk : w = k
    · subst hk
      exact .inr (tget_absent 0 w _ mem_tdel_ne)
    · rw [tget_tdel_ne 0 t k w hk]
      exact h.imp_left fun hw => (List.mem_cons.mp hw).resolve_left hk

/-- The word of each byte of a range is one that the range touches. -/
theorem word_mem_wordsIn {a n k : Nat} (h : k < n) : (a + k) / 4 * 4 ∈ wordsIn a n := by
  unfold wordsIn
  rw [if_neg (by omega), List.mem_map]
  exact ⟨(a + k) / 4 - a / 4, List.mem_range.mpr (by omega), by omega⟩

/-- A write clears the errors of the words it covers (R298). -/
theorem tget_eccClear {errs : Tbl Nat} {a n k : Nat} (h : k < n) : tget 0 (eccClear errs a n) ((a + k) / 4 * 4) = 0 :=
  tget_foldl_tdel_zero (.inl (word_mem_wordsIn h))

/-- Bytes whose words hold no error are delivered as they are stored. -/
theorem eccBytes_of_no_error {t : Tbl Byte} {errs : Tbl Nat} {a n : Nat} (h : ∀ k < n, tget 0 errs ((a + k) / 4 * 4) = 0) :
    eccBytes t errs a n = rawRead t 0 a n :=
  List.map_congr_left fun k hk => if_pos (h k (List.mem_range.mp hk))

/-- What was written is read back. -/
theorem rawRead_rawWrite (t : Tbl Byte) (a : Nat) (bs : List Byte) : rawRead (rawWrite t 0 a bs) 0 a bs.length = bs := by
  refine List.ext_getElem (by simp [rawRead]) fun k _ hk => ?_
  simp only [rawRead, List.getElem_map, List.getElem_range, tget_rawWrite]
  rw [if_pos (by omega), Nat.add_sub_cancel_left, List.getD_eq_getElem]

end Sys2Proof.Machine

open Sys2Proof Sys2Proof.Machine

/-- Settles O51: a store writes its bytes one by one, and clears the errors of each word that one of them lies in. -/
theorem memoryReadsBackWhatIsStored : Obligations.MemoryReadsBackWhatIsStored := by
  refine fun s pa bs => ⟨fun x => tget_rawWrite 0 s.dram pa x bs, ?_⟩
  exact (eccBytes_of_no_error fun _ hk => tget_eccClear hk).trans (rawRead_rawWrite s.dram pa bs)

end

section
/-! SUPPORT. The check code (R297): the syndrome and the parity of two patterns of flipped bits together, and the syndromes of single
bits, which differ. -/

namespace Sys2Proof.Machine

open Sys2Proof

/-- A bit of an exclusive or. -/
theorem bit_xor (x y k : Nat) : bit (x ^^^ y) k = (bit x k ^^ bit y k) := by
  have htest (n : Nat) : bit n k = n.testBit k := (Nat.testBit_eq_decide_div_mod_eq).symm
  rw [htest, htest, htest, Nat.testBit_xor]

/-- The parity of two patterns together. -/
theorem popcount_xor (w x y : Nat) : popcount w (x ^^^ y) % 2 = (popcount w x + popcount w y) % 2 := by
  induction w generalizing x y with
  | zero => rfl
  | succ w ih =>
    have hlow : (x ^^^ y) % 2 = (x + y) % 2 := Nat.xor_mod_two_eq
    have hrest := ih (x / 2) (y / 2)
    simp only [popcount, Nat.xor_div_two]
    omega

/-- The exclusive or of the positions of the flipped data bits, for two patterns together. -/
theorem foldl_positions_xor (x y : Nat) (l : List (Nat × Nat)) (a b : Nat) :
    l.foldl (fun a p => if bit (x ^^^ y) p.2 then Nat.xor a p.1 else a) (a ^^^ b) =
      l.foldl (fun a p => if bit x p.2 then Nat.xor a p.1 else a) a ^^^ l.foldl (fun a p => if bit y p.2 then Nat.xor a p.1 else a) b := by
  induction l generalizing a b with
  | nil => rfl
  | cons p l ih =>
    have hstep : (if bit (x ^^^ y) p.2 then Nat.xor (a ^^^ b) p.1 else a ^^^ b) =
        (if bit x p.2 then Nat.xor a p.1 else a) ^^^ (if bit y p.2 then Nat.xor b p.1 else b) := by
      have hx (m n : Nat) : Nat.xor m n = m ^^^ n := rfl
      rw [bit_xor]
      cases bit x p.2 <;> cases bit y p.2
      · rfl
      · exact Nat.xor_assoc a b p.1
      · exact Nat.xor_right_comm a b p.1
      · show a ^^^ b = (a ^^^ p.1) ^^^ (b ^^^ p.1)
        rw [Nat.xor_comm b, Nat.xor_assoc, Nat.xor_xor_cancel_left]
    rw [List.foldl_cons, List.foldl_cons, List.foldl_cons, hstep, ih]

/-- The exclusive or of the positions of the flipped data bits (R297). -/
def flippedPositions (flips : Nat) : Nat :=
  codePos.zipIdx.foldl (fun a p => if bit flips p.2 then Nat.xor a p.1 else a) 0

theorem flippedPositions_xor (x y : Nat) : flippedPositions (x ^^^ y) = flippedPositions x ^^^ flippedPositions y :=
  foldl_positions_xor x y codePos.zipIdx 0 0

/-- The syndrome is the positions of the flipped data bits and the flipped check bits together. -/
theorem syndrome_eq (flips : Nat) : syndrome flips = flippedPositions flips ^^^ flips / 2 ^ 32 % 2 ^ 6 := rfl

/-- The syndrome of two patterns together. -/
theorem syndrome_xor (x y : Nat) : syndrome (x ^^^ y) = syndrome x ^^^ syndrome y := by
  rw [syndrome_eq, syndrome_eq, syndrome_eq, flippedPositions_xor, Nat.xor_div_two_pow, Nat.xor_mod_two_pow]
  ac_rfl

/-- An even number of flipped bits that leaves a syndrome cannot be corrected. -/
theorem eccRead_of_even {n : Nat} (hp : popcount 39 n % 2 = 0) (hs : syndrome n ≠ 0) : eccRead n = none := by
  unfold eccRead
  dsimp only
  rw [if_pos hp, if_neg hs]

/-- Two different bits, as a pattern. -/
theorem two_pow_add_two_pow {i j : Nat} (h : i < j) : 2 ^ i + 2 ^ j = 2 ^ i ^^^ 2 ^ j := by
  have hor := Nat.two_pow_add_eq_or_of_lt (Nat.pow_lt_pow_right Nat.one_lt_two h) 1
  rw [Nat.mul_one] at hor
  rw [Nat.add_comm, hor]
  refine Nat.eq_of_testBit_eq fun k => ?_
  simp only [Nat.testBit_or, Nat.testBit_xor, Nat.testBit_two_pow]
  by_cases hi : i = k
  · simp [hi, show j ≠ k by omega]
  · simp [hi]

/-- Each of the 39 stored bits has a syndrome of its own. -/
theorem syndrome_two_pow_inj {i j : Nat} (hi : i < 39) (hj : j < 39) (h : syndrome (2 ^ i) = syndrome (2 ^ j)) : i = j := by
  have hn : ((List.range 39).map (fun i => syndrome (2 ^ i))).Nodup := by decide +kernel
  exact List.inj_on_of_nodup_map hn (List.mem_range.mpr hi) (List.mem_range.mpr hj) h

theorem popcount_two_pow : ∀ i < 39, popcount 39 (2 ^ i) = 1 := by decide +kernel

/-- One flipped bit is corrected: a data bit by its position, a check bit by its power of two or, c6, by no syndrome. -/
theorem eccRead_two_pow : ∀ i < 39, eccRead (2 ^ i) = some (0, true) := by decide +kernel

end Sys2Proof.Machine

open Sys2Proof Sys2Proof.Machine

/-- Settles O52: the bits of a pair have even parity together, and their syndromes, being different, leave one. -/
theorem checkCodeCorrectsSingleErrors : Obligations.CheckCodeCorrectsSingleErrors := by
  refine ⟨eccRead_two_pow, by decide, fun i j hij hj => ?_⟩
  have hi : i < 39 := hij.trans hj
  rw [two_pow_add_two_pow hij]
  refine eccRead_of_even ?_ fun h0 => hij.ne ?_
  · rw [popcount_xor, popcount_two_pow i hi, popcount_two_pow j hj]
  · rw [syndrome_xor, Nat.xor_eq_zero_iff] at h0
    exact syndrome_two_pow_inj hi hj h0

end

section
/-! SUPPORT. A stack's controller (R303 to R315): its retirement records and the removal of a channel, its shutters, and what a reading of the
stack's temperature sets; and the two statements that follow from them. -/

namespace Sys2Proof.Machine

open Sys2Proof

/-! ### The outcomes through `answer` -/

theorem exec_memRqtailWrite (b v : Nat) (s : State) :
    exec (.memRqtailWrite b v) s = answer s (okBay b) (whenOpen s (Reg.MEM_RQTAIL b) (settle (rqtailWrite s b v))) := rfl

theorem exec_memRack (b v : Nat) (s : State) :
    exec (.memRack b v) s = answer s (okBay b) (whenOpen s (Reg.MEM_RACK b) (settle (rack s b v))) := rfl

theorem exec_memSvcDeclareFailed (b ch : Nat) (s : State) : exec (.memSvcDeclareFailed b ch) s =
    answer s (okBay b && decide (ch < 32)) (whenOpen s (Reg.MEM_SVC b) (settle (channelGone s b ch))) := rfl

theorem exec_evacuationCopyDone (b : Nat) (s : State) : exec (.evacuationCopyDone b) s = answer s (okBay b) (settle (evacDone s b)) := rfl

theorem exec_marginMonitorLow (b ch : Nat) (s : State) :
    exec (.marginMonitorLow b ch) s = answer s (okBay b && decide (ch < 32)) (askShutter s b ch 0) := rfl

theorem exec_memSvcRetrain (b ch : Nat) (s : State) : exec (.memSvcRetrain b ch) s =
    answer s (okBay b && decide (ch < 32)) (whenOpen s (Reg.MEM_SVC b) (askShutter s b ch 0)) := rfl

theorem exec_memSvcSelfTest (b ch : Nat) (s : State) : exec (.memSvcSelfTest b ch) s =
    answer s (okBay b && decide (ch < 32)) (whenOpen s (Reg.MEM_SVC b) (settle (strike s (.dramLane b ch) ch 1 false))) := rfl

theorem exec_shutterStart (b : Nat) (s : State) : exec (.shutterStart b) s = answer s (okBay b) (settle (shutterStart s b)) := rfl

theorem exec_shutterEnd (b : Nat) (s : State) : exec (.shutterEnd b) s = answer s (okBay b) (settle (shutterEnd s b)) := rfl

theorem exec_retrainingFailure (b : Nat) (s : State) : exec (.retrainingFailure b) s = answer s (okBay b) (settle (retrainFails s b)) := rfl

theorem exec_stackTemperatureRead (b : Nat) (ts : List Nat) (s : State) : exec (.stackTemperatureRead b ts) s =
    answer s (okBay b) (if !s.baysOn || s.pwr.st == 5 then s
      else if 110 ≤ (hottest (ts.take 12)).1 then thermalTrip s else settle (stackTemp s b ts)) := rfl

/-- The operands of a command on a channel of a stack. -/
theorem okChannel_of_lt {b ch : Nat} (hb : b < 16) (hc : ch < 32) : (okBay b && decide (ch < 32)) = true := by simp [okBay_of_lt hb, hc]

/-! ### What leaves the bays alone, and the controller of a bay -/

/-- A message to the companion adds an access. -/
theorem sendHost_changes (s : State) (b vc : Nat) (m : List Byte) :
    ∃ accs accSeq, s.sendHost b vc m = { s with accs := accs, accSeq := accSeq } := by
  unfold State.sendHost
  split <;> exact ⟨_, _, rfl⟩

/-- An MSI changes registers and adds an access. -/
theorem sendMsi_changes (s : State) (v : Nat) : ∃ regs accs accSeq, sendMsi s v = { s with regs := regs, accs := accs, accSeq := accSeq } := by
  unfold sendMsi
  generalize (if v < 48 then v % 16 else 0) = b
  dsimp only
  split
  · generalize s.hostMsg b 0x31 0 0 0 _ = m
    obtain ⟨accs, accSeq, h⟩ := sendHost_changes s b 0 m
    rw [h]
    exact ⟨_, _, _, rfl⟩
  · exact ⟨_, _, _, rfl⟩

/-- So does an interrupt. -/
theorem raiseIrq_changes (s : State) (v : Nat) : ∃ regs accs accSeq, raiseIrq s v = { s with regs := regs, accs := accs, accSeq := accSeq } := by
  unfold raiseIrq
  split
  · obtain ⟨regs, accs, accSeq, h⟩ := sendMsi_changes (s.setReg (Reg.FLX_MSICTL v) (s.regN (Reg.FLX_MSICTL v) % 2 + 2)) v
    exact ⟨_, _, _, h⟩
  · exact ⟨_, _, _, rfl⟩

/-- A log entry changes the log, and with the interrupt that it may raise registers and accesses. -/
theorem logEvt_changes (s : State) (ev verdict dkind inst addr d0 d1 : Nat) :
    ∃ regs accs accSeq rel, logEvt s ev verdict dkind inst addr d0 d1 = { s with regs := regs, accs := accs, accSeq := accSeq, rel := rel } := by
  unfold logEvt
  dsimp only
  split
  · obtain ⟨regs, accs, accSeq, h⟩ := raiseIrq_changes { s with rel := _ } 49
    exact ⟨_, _, _, _, h⟩
  · exact ⟨_, _, _, _, rfl⟩

theorem setReg_bay (s : State) (a v b : Nat) : (s.setReg a v).bay b = s.bay b := rfl

@[simp] theorem logE_bay (s : State) (ev dkind inst addr d0 d1 b : Nat) : (logE s ev dkind inst addr d0 d1).bay b = s.bay b := by
  obtain ⟨regs, accs, accSeq, rel, h⟩ := logEvt_changes s ev 0 dkind inst addr d0 d1
  rw [logE, h]
  rfl

@[simp] theorem modMem_mem (s : State) (b : Nat) (f : MemCtl → MemCtl) : ((s.modMem b f).bay b).mem = f (s.bay b).mem := by
  simp [State.modMem]

/-- The same change of a controller by two functions that agree on it. -/
theorem modMem_congr {s : State} {b : Nat} {f g : MemCtl → MemCtl} (h : f (s.bay b).mem = g (s.bay b).mem) : s.modMem b f = s.modMem b g := by
  simp only [State.modMem, State.modBay, h]

/-! ### Records and removal (R305 to R314) -/

/-- Acknowledging a RETIRE record uses it up and refuses its page (R306, R307). -/
theorem rack_retire {s : State} {b v : Nat} {r : RetRec} (hr : tget none (s.bay b).mem.ring (v % 256) = some r) (ht : r.typ = 1) :
    rack s b v = refusePage (s.modMem b (fun m => { m with ring := tset none m.ring (v % 256) none })) b r.ch r.page 1 := by
  simp only [rack, hr, ht, if_true]

/-- Acknowledging the VACATE record of a removal under way uses it up and starts the evacuation (R306, R311). -/
theorem rack_vacate {s : State} {b v ch : Nat} {l c : Bool} {r : RetRec} (hr : tget none (s.bay b).mem.ring (v % 256) = some r) (ht : r.typ = 3)
    (he : (s.bay b).mem.evac = some (ch, l, c)) :
    rack s b v = logE ((s.modMem b (fun m => { m with ring := tset none m.ring (v % 256) none })).modMem b
      (fun m => { m with evac := some (ch, l, true) })) 0x0B 3 b 0 0 3 := by
  simp [rack, hr, ht, he]

/-- What the failure of a channel that cannot be read adds: its loss, recorded and logged (R313). -/
def loseIf (gone : Bool) (s : State) (b ch : Nat) : State :=
  if gone then logE ((postRet s b (retRec s b 4 ch 0)).modMem b (fun m => { m with lost := m.lost ++ [ch] })) 0x0C 3 b ch 0 4 else s

/-- The first channel of a whole stack that fails is vacated, and lost as well when it cannot be read (R311, R313). -/
theorem channelFails_of_whole {s : State} {b : Nat} (ch : Nat) (readable : Bool) (he : (s.bay b).mem.evac = none)
    (hr : (s.bay b).mem.removed = none) (hl : (s.bay b).mem.lost = []) :
    channelFails s b ch readable = postRet ((loseIf (!readable) s b ch).modMem b (fun m => { m with evac := some (ch, !readable, false) })) b
      (retRec (loseIf (!readable) s b ch) b 3 ch 0) := by
  cases readable <;> simp [channelFails, he, hr, hl, loseIf]

/-- With no channel shuttered, a readable channel's evacuation copies what is left and ends in the removal (R311, R312). -/
theorem evacDone_of_readable {s : State} {b ch : Nat} (he : (s.bay b).mem.evac = some (ch, false, true)) (hs : (s.bay b).mem.shut = none) :
    evacDone s b =
      let s1 := ((evacBad s b ch).foldl (fun s off => evacLine s b ch off) s).modMem b
        (fun m => { m with evac := none, removed := some ch, evacPos := evacLines, evacHeld := false })
      logE (postRet s1 b (retRec s1 b 5 ch 0)) 0x0C 3 b ch 0 5 := by
  simp [evacDone, he, hs]

/-! ### Shutters (R308 to R310) -/

/-- A channel of the map for which the shutter does not wait already has it asked for. -/
theorem askShutter_of_new {s : State} {b ch cause : Nat} (hr : (s.bay b).mem.removed ≠ some ch) (hl : (s.bay b).mem.lost.contains ch = false)
    (hq : (s.bay b).mem.shutQ.contains (ch, cause) = false) :
    askShutter s b ch cause = s.modMem b (fun m => { m with shutQ := m.shutQ ++ [(ch, cause)] }) :=
  modMem_congr (if_neg (by simp only [hr, hl, hq, Bool.false_eq_true, or_self, not_false_eq_true]))

/-- The oldest shutter asked for starts when no channel is shuttered. -/
theorem shutterStart_of_free {s : State} {b ch cause : Nat} {q : List (Nat × Nat)} (hs : (s.bay b).mem.shut = none)
    (hq : (s.bay b).mem.shutQ = (ch, cause) :: q) (hc : cause ≠ 3) :
    shutterStart s b = (s.modMem b (fun m => { m with shut := some { ch, cause, start := s.devTime }, shutQ := q })).incReg (Reg.MEM_SHUTCNT b) := by
  simp only [shutterStart, hs, hq, hc, if_false]

/-- The end of a retraining clears the failures of its channel and notes the temperature at which it trained. -/
theorem shutterEnd_of_retraining {s : State} {b : Nat} {sh : Shutter} (hs : (s.bay b).mem.shut = some sh) (hc : sh.cause = 0) :
    shutterEnd s b =
      let s1 := logE (noteShut (s.modMem b (fun m => { m with shut := none })) b (s.devTime - sh.start)) 0x08 3 b sh.ch 0 (s.devTime - sh.start)
      s1.modMem b (fun m => { m with
        trainFails := tset 0 m.trainFails sh.ch 0, trainTemp := tset 0 m.trainTemp sh.ch (s1.regN (Reg.MEM_TEMP b) % 256 + 1) }) := by
  simp only [shutterEnd, hs, hc, if_true]

/-- A retraining that fails is asked for again until the third failure in a row (R309). -/
theorem retrainFails_of_retraining {s : State} {b : Nat} {sh : Shutter} (hs : (s.bay b).mem.shut = some sh) (hc : sh.cause = 0) :
    retrainFails s b =
      let n := tget 0 (s.bay b).mem.trainFails sh.ch + 1
      let s1 := logE (noteShut (s.modMem b (fun m => { m with shut := none, trainFails := tset 0 m.trainFails sh.ch n })) b
        (s.devTime - sh.start)) 0x17 3 b sh.ch 0 n
      if n < 3 then askShutter s1 b sh.ch 0 else channelGone s1 b sh.ch := by
  simp [retrainFails, hs, hc]

/-! ### Temperature (R315) -/

/-- What Table 9-11 has a stack's controller hold of the hottest reading: throttling, memory hold and the flag of 90 °C. -/
def MemCtl.heat (m : MemCtl) : Bool × Bool × Bool := (m.throttle, m.hold, m.hot)

theorem askShutter_heat (s : State) (b ch cause : Nat) : ((askShutter s b ch cause).bay b).mem.heat = (s.bay b).mem.heat := by
  rw [askShutter, modMem_mem]
  split_ifs <;> rfl

theorem modMem_trainTemp_heat (s : State) (b : Nat) (f : MemCtl → Tbl Nat) :
    ((s.modMem b (fun m => { m with trainTemp := f m })).bay b).mem.heat = (s.bay b).mem.heat := by
  rw [modMem_mem]
  rfl

theorem ite_heat {c d : Prop} [Decidable c] [Decidable d] {x y z : MemCtl} {h : Bool × Bool × Bool} (hx : x.heat = h) (hy : y.heat = h)
    (hz : z.heat = h) : (if c then x else if d then y else z).heat = h := by
  split_ifs
  · exact hx
  · exact hy
  · exact hz

/-- Retrainings asked for channel by channel leave it, when there are any. -/
theorem ite_foldl_heat {b : Nat} {c : Prop} [Decidable c] {f : State → Nat → State} {l : List Nat} {s : State}
    (hf : ∀ s k, ((f s k).bay b).mem.heat = (s.bay b).mem.heat) :
    ((if c then l.foldl f s else s).bay b).mem.heat = (s.bay b).mem.heat := by
  split
  · exact List.foldlRecOn (motive := fun t => (t.bay b).mem.heat = (s.bay b).mem.heat) l f rfl fun t ht k _ => (hf t k).trans ht
  · rfl

theorem ite_logE_bay {c : Prop} [Decidable c] (s : State) (ev dkind inst addr d0 d1 b : Nat) :
    (if c then logE s ev dkind inst addr d0 d1 else s).bay b = s.bay b := by
  split
  · exact logE_bay ..
  · rfl

/-- A reading of a stack's temperatures acts by its hottest one (Table 9-11): the clock's limit, the log entry and the retrainings that
follow leave that as it is. -/
theorem stackTemp_heat (s : State) (b : Nat) (ts : List Nat) :
    ((stackTemp s b ts).bay b).mem.heat =
      (decide (93 ≤ (hottest (ts.take 12)).1) || ((s.bay b).mem.throttle && decide (90 ≤ (hottest (ts.take 12)).1)),
       decide (95 ≤ (hottest (ts.take 12)).1) || ((s.bay b).mem.hold && decide (93 ≤ (hottest (ts.take 12)).1)),
       decide (90 ≤ (hottest (ts.take 12)).1) || ((s.bay b).mem.hot && decide (88 ≤ (hottest (ts.take 12)).1))) := by
  unfold stackTemp
  generalize hottest (ts.take 12) = p
  obtain ⟨t, d⟩ := p
  rw [← setReg_bay s (Reg.MEM_TEMP b) (t % 256 + d * 2 ^ 8 + max t (bits (s.regN (Reg.MEM_TEMP b)) 23 16) % 256 * 2 ^ 16) b]
  dsimp only
  rw [ite_foldl_heat ?retraining, ite_logE_bay, modMem_mem]
  case retraining =>
    intro s' ch
    split_ifs
    · exact modMem_trainTemp_heat s' b _
    · exact askShutter_heat s' b ch 0
    · rfl
  exact ite_heat rfl rfl rfl

end Sys2Proof.Machine

open Sys2Proof Sys2Proof.Machine

/-- Settles O18, a clause for each operation: the tail's register, the two records that an acknowledgement acts on, the failure of the first channel
of a whole stack with the free choice of whether it can be read, and the end of an evacuation. -/
theorem retirementAndRemoval : Obligations.RetirementAndRemoval := by
  refine ⟨fun b v s hb ho => ?tail, fun b v s r hb ho hr ht => ?retire, fun b v ch l c s r hb ho hr ht he => ?vacate,
    fun b ch s hb hc ho he hr hl => ?declared, fun b ch s hb h5 he hs => ?evacuated⟩
  case tail =>
    rw [exec_memRqtailWrite, okBay_of_lt hb, answer_open ho]
    rfl
  case retire =>
    rw [exec_memRack, okBay_of_lt hb, answer_open ho, rack_retire hr ht]
    rfl
  case vacate =>
    rw [exec_memRack, okBay_of_lt hb, answer_open ho, rack_vacate hr ht he]
    rfl
  case declared =>
    rw [exec_memSvcDeclareFailed, okChannel_of_lt hb hc, answer_open ho, channelGone]
    dsimp only
    rw [channelFails_of_whole (s := (s.pick 2).2) ch _ he hr hl]
    rfl
  case evacuated =>
    rw [exec_evacuationCopyDone, okBay_of_lt hb, answer_on h5, evacDone_of_readable he hs]
    rfl

/-- Settles O19, a clause for each operation; the limits of Table 9-11 are what a reading leaves of the three flags. -/
theorem shuttersAndTemperature : Obligations.ShuttersAndTemperature := by
  refine ⟨fun b ch s hb hc h5 hr hl hq => ?margin, fun b ch s hb hc ho hr hl hq => ?retrain, fun b ch s hb hc ho => ?selfTest,
    fun b ch cause q s hb h5 hs hq hc => ?start, fun b sh s hb h5 hs hc => ?ends, fun b sh s hb h5 hs hc => ?failure,
    fun b ts s hb h5 hon ht => ?reading, fun b ts s hb h5 hon ht => ?trip, fun b ts s => ?limits⟩
  case margin => rw [exec_marginMonitorLow, okChannel_of_lt hb hc, answer_on h5, askShutter_of_new hr hl hq]
  case retrain => rw [exec_memSvcRetrain, okChannel_of_lt hb hc, answer_open ho, askShutter_of_new hr hl hq]
  case selfTest =>
    rw [exec_memSvcSelfTest, okChannel_of_lt hb hc, answer_open ho]
    rfl
  case start =>
    rw [exec_shutterStart, okBay_of_lt hb, answer_on h5, shutterStart_of_free hs hq hc]
    rfl
  case ends =>
    rw [exec_shutterEnd, okBay_of_lt hb, answer_on h5, shutterEnd_of_retraining hs hc]
    rfl
  case failure =>
    rw [exec_retrainingFailure, okBay_of_lt hb, answer_on h5, retrainFails_of_retraining hs hc]
    rfl
  case reading =>
    rw [exec_stackTemperatureRead, okBay_of_lt hb, answer_on h5, if_neg (by simp [hon, h5]), if_neg (Nat.not_le.mpr ht)]
    rfl
  case trip => rw [exec_stackTemperatureRead, okBay_of_lt hb, answer_on h5, if_neg (by simp [hon, h5]), if_pos ht]
  case limits =>
    have h := stackTemp_heat s b ts
    simp only [MemCtl.heat, Prod.mk.injEq] at h
    exact h

end

section
/-! SUPPORT. Page-table walks and the companion's replies (R321, R328, R329, R334), invalidations (R332 to R334, R339), and what the fault
queue and a migration do at each step (R345 to R350, R358); and the three statements that follow from them. -/

namespace Sys2Proof.Machine

open Sys2Proof

/-! ### The outcomes of a bay's rows -/

/-- A row of a bay outside P5 has its effect. -/
theorem answer_bay {s t : State} {b : Nat} (hb : b < 16) (h5 : s.pwr.st ≠ 5) : answer s (okBay b) t = .next (keepStraps s t) := by
  rw [okBay_of_lt hb, answer_on h5]

/-- A write that a register of a bay serves has its effect. -/
theorem answer_bay_open {s t : State} {a b : Nat} (hb : b < 16) (ho : regOpen s a = true) :
    answer s (okBay b) (whenOpen s a t) = .next (keepStraps s t) := by
  rw [okBay_of_lt hb, answer_open ho]

theorem exec_pageWalkLine {b k : Nat} {s : State} (hb : b < 16) (h5 : s.pwr.st ≠ 5) :
    exec (.pageWalkLine b k) s = .next (followed s (walkReturns s b k)) := answer_bay hb h5

/-- WALKRSP takes up the first reply of the companion to its bay. -/
theorem exec_walkrsp {b : Nat} {e : Nat × List Byte} {s s1 : State} (hb : b < 16) (h5 : s.pwr.st ≠ 5) (h : takeFin s b 0x2E = some (e, s1)) :
    exec (.walkrsp b) s = .next (followed s (walkReply s1 b e.2)) := by
  refine (answer_bay hb h5).trans ?_
  rw [h]
  rfl

theorem exec_companionWalkTimeout {b k : Nat} {s : State} (hb : b < 16) (h5 : s.pwr.st ≠ 5) :
    exec (.companionWalkTimeout b k) s = .next (followed s (walkTimeout s b k)) := answer_bay hb h5

/-- INVAL takes up the first invalidation of the companion to its bay. -/
theorem exec_inval {b : Nat} {e : Nat × List Byte} {s s1 : State} (hb : b < 16) (h5 : s.pwr.st ≠ 5) (h : takeFin s b 0x2F = some (e, s1)) :
    exec (.inval b) s = .next (followed s (inval s1 b (32 + e.1) e.2)) := by
  refine (answer_bay hb h5).trans ?_
  rw [h]
  rfl

theorem exec_invack {b : Nat} {s : State} (hb : b < 16) (h5 : s.pwr.st ≠ 5) : exec (.invack b) s = .next (keepStraps s (invack s b)) :=
  answer_bay hb h5

theorem exec_xltFlushTlb {b : Nat} {s : State} (hb : b < 16) (ho : regOpen s (Reg.XLT_FLUSH b) = true) :
    exec (.xltFlushTlb b) s = .next (keepStraps s (flushTlb s b)) := answer_bay_open hb ho

theorem exec_xltFlushOwner {b : Nat} {s : State} (hb : b < 16) (ho : regOpen s (Reg.XLT_FLUSH b) = true) :
    exec (.xltFlushOwner b) s = .next (keepStraps s (flushOwner s b)) := answer_bay_open hb ho

/-! ### Walks (R321, R328, R329, R334) -/

/-- A walk goes on with the word it waits for once the line that holds it has come. -/
theorem walkReturns_of_came {s : State} {b k : Nat} {w : Walk} {a : Access} (hw : (localWalks s b)[k]? = some w)
    (ha : s.came (walkNeed s b w) = some a) (hf : a.flt = none) :
    walkReturns s b k = walkWord s b w (field a.data (walkAddr s b w % 64) 8) := by
  simp only [walkReturns, hw, ha, hf]

/-- A non-leaf entry takes the walk to its table, through the walk cache unless an invalidation marked the walk. -/
theorem walkWord_of_table {s : State} {b e t : Nat} {w : Walk} (hr : w.root = false) (he : walkEntry w.lvl e = .table t) :
    walkWord s b w e = nextLine (if w.stale then s else wcFill s b w.ctx w.lvl w.va e) b w { w with lvl := w.lvl + 1, tbl := t } := by
  simp only [walkWord, hr, he, Bool.false_eq_true, if_false]

/-- A leaf fills the TLB and ends the walk; a marked walk starts again instead. -/
theorem walkWord_of_leaf {s : State} {b e leaf : Nat} {w : Walk} (hr : w.root = false) (he : walkEntry w.lvl e = .leaf leaf) :
    walkWord s b w e = if w.stale then restartWalk s b w else dropWalk (tlbFill s b w.ctx w.lvl w.va leaf) b w := by
  simp only [walkWord, hr, he, Bool.false_eq_true, if_false]

/-- A page fault ends the walk; a marked walk starts again instead. -/
theorem walkWord_of_page {s : State} {b e cause hpa : Nat} {w : Walk} (hr : w.root = false) (he : walkEntry w.lvl e = .page cause hpa) :
    walkWord s b w e = if w.stale then restartWalk s b w else pageWalk s b w cause w.lvl hpa := by
  simp only [walkWord, hr, he, Bool.false_eq_true, if_false]

/-- A good reply with a leaf fills the TLB with it and ends the walk that its TAG names. -/
theorem walkReply_of_leaf {s : State} {b : Nat} {m : List Byte} {w : Walk} (hw : walkOfTag s b (mTag m) = some w) (hs : mStatus m = 0)
    (ho : replyOk (mBody m) = true) (hres : field (mBody m) 9 1 = 0)
    (hm : malformed (field (mBody m) 8 1) (field (mBody m) 0 8) = false) (hst : w.stale = false) :
    walkReply s b m = dropWalk (tlbFill s b w.ctx (field (mBody m) 8 1) w.va (field (mBody m) 0 8)) b w := by
  simp [walkReply, hw, hs, ho, hres, hm, hst]

/-- A companion walk that has no reply in time fails. -/
theorem walkTimeout_of_walk {s : State} {b k : Nat} {w : Walk} (hw : ((s.bay b).xlt.walks.filter (fun w => w.host.isSome))[k]? = some w) :
    walkTimeout s b k = failWalk s b w { code := 0x94, addr := w.va } := by
  simp only [walkTimeout, hw]

/-- An address of more than 48 bits faults before the TLB is looked at (R321). -/
theorem runMc_xlate_of_wide {w : Who} {b ctx va : Nat} {wr : Bool} {s : State} (h : 2 ^ 48 ≤ va) :
    runMc (xlate w b ctx va wr) s = (.error (.flt { code := 0x90, addr := va }), s) := by
  rw [xlate, if_pos h, runMc_fault]

/-! ### Invalidations (R332 to R334, R339) -/

@[simp] theorem modXlt_xlt (s : State) (b : Nat) (f : BayXlt → BayXlt) : ((s.modXlt b f).bay b).xlt = f (s.bay b).xlt := by
  simp [State.modXlt]

/-- An invalidation of a known kind is done once it has dropped what it names. -/
theorem inval_of_known {s : State} {b port : Nat} {m : List Byte} (h : field (mBody m) 0 1 ≤ 3) :
    inval s b port m =
      invalidate s b port (mTag m) (field (mBody m) 0 1) (mCtx m) (field (mBody m) 4 8) (4096 * field (mBody m) 12 8) := if_pos h

/-- One of an unknown kind is logged as well. -/
theorem inval_of_unknown {s : State} {b port : Nat} {m : List Byte} (h : 3 < field (mBody m) 0 1) :
    inval s b port m =
      logE (invalidate s b port (mTag m) (field (mBody m) 0 1) (mCtx m) (field (mBody m) 4 8) (4096 * field (mBody m) 12 8)) 0x07 2 b
        (field (mBody m) 4 8) 0 0x2F := if_neg (Nat.not_le.mpr h)

/-- The owner-cache lines that the newest invalidation names. -/
theorem invalidate_own (s : State) (b port tag kind ctx base n : Nat) :
    ((invalidate s b port tag kind ctx base n).bay b).xlt.invs.getLast?.map (·.own) =
      some (if kind = 3 then some (base, n) else if 3 < kind then some (0, 2 ^ 52) else none) := by
  rw [invalidate, modXlt_xlt, List.getLast?_concat]
  rfl

/-- An unknown kind hits every TLB entry. -/
theorem invalidate_tlb_of_unknown (s : State) (b port tag ctx base n : Nat) {kind : Nat} (h : 3 < kind) :
    ((invalidate s b port tag kind ctx base n).bay b).xlt.tlb = [] := by
  rw [invalidate, modXlt_xlt]
  exact List.filter_eq_nil_iff.mpr fun t _ => by simp [h]

/-- Dropping the owner-cache lines that an invalidation names leaves the supply die and its straps as they are. -/
theorem ownersGo_sup (s : State) (b : Nat) (v : Inv) : (ownersGo s b v).sup = s.sup := by
  unfold ownersGo
  split <;> rfl

/-- A message to the companion carries the chip ID of the straps, and nothing else of the state. -/
theorem hostMsg_of_sup {s t : State} (h : t.sup = s.sup) (b mtype ctx tag status : Nat) (body : List Byte) :
    t.hostMsg b mtype ctx tag status body = s.hostMsg b mtype ctx tag status body := by
  simp only [State.hostMsg, State.chip, h]

/-- Once no access that the oldest invalidation waits for is left, it is answered, and the owner-cache lines that it names go. -/
theorem invack_of_done {s : State} {b : Nat} {v : Inv} {vs : List Inv} (hv : (s.bay b).xlt.invs = v :: vs)
    (hw : ∀ k ∈ v.waits, ∀ a ∈ s.accs, a.id ≠ k) :
    invack s b = (replyHost (ownersGo (s.modXlt b (fun x => { x with invs := vs })) b v) b (v.port - 32) 1
      (s.hostMsg b 0x30 0 v.tag 0 [])).incReg (Reg.XLT_INVAL b) := by
  have hnone : v.waits.any (fun k => s.accs.any (fun a => a.id == k)) = false :=
    List.any_eq_false.mpr fun k hk => by simpa using hw k hk
  simp only [invack, hv, hnone, Bool.false_eq_true, if_false]
  rw [hostMsg_of_sup (ownersGo_sup (s.modXlt b (fun x => { x with invs := vs })) b v), hostMsg_of_sup (State.modXlt_sup s b _)]

/-! ### Resolutions and notices (R345 to R348, R358) -/

theorem freeEnt_wakes {s : State} {k : Nat} {e : FqEnt} (he : tget none s.gx.fq k = some e) : freeEnt s k none = freeWake s k e := by
  simp only [freeEnt, he]

theorem freeEnt_fails {s : State} {k : Nat} {e : FqEnt} (he : tget none s.gx.fq k = some e) (code : Nat) :
    freeEnt s k (some code) = freeFail s k e code := by
  simp only [freeEnt, he]

/-- An entry with no notice to be written is freed at once. -/
theorem freeWhenTold_of_told {s : State} {k : Nat} {e : FqEnt} (code : Option Nat) (h : s.gx.noticeHeld.any (noticeOf k e) = false) :
    freeWhenTold s k e code = freeEnt s k code := if_neg (by simp [h])

/-- An entry with a notice to be written is freed by that notice. -/
theorem freeWhenTold_of_untold {s : State} {k : Nat} {e : FqEnt} (code : Option Nat) (h : s.gx.noticeHeld.any (noticeOf k e) = true) :
    freeWhenTold s k e code = { s with gx := { s.gx with noticeHeld := s.gx.noticeHeld.map (fun n =>
      if noticeOf k e n then { n with frees := some (k, code) } else n) } } := if_pos h

/-- A resolution whose SEQ is that of the pending entry that it names frees the entry: its waiters wake, or fault with 0x91. -/
theorem fresolve_of_match {s : State} {v : Nat} {e : FqEnt} (he : tget none s.gx.fq (bits v 7 0) = some e) (hp : e.st = 1)
    (hq : e.seq % 65536 = bits v 31 16) : fresolve s v = freeWhenTold s (bits v 7 0) e (if bit v 8 then some 0x91 else none) := by
  unfold fresolve
  simp only [he, hp, hq, and_self, if_true]

/-- Any other resolution is stale. -/
theorem fresolve_of_stale {s : State} {v : Nat}
    (h : ∀ e, tget none s.gx.fq (bits v 7 0) = some e → e.st = 1 → e.seq % 65536 ≠ bits v 31 16) :
    fresolve s v = s.incReg Reg.XLT_STALERES := by
  cases he : tget none s.gx.fq (bits v 7 0) with
  | none => exact fresolve_of_free he
  | some e =>
    unfold fresolve
    simp only [he]
    exact if_neg fun hpq => h e he hpq.1 hpq.2

/-- The end notice of a migration, once written, counts the migration and wakes the waiters of its entry. -/
theorem noticeWritten_of_migrated {s : State} {n : Notice} {ns : List Notice} {k : Nat} (hn : s.gx.noticeHeld = n :: ns)
    (ht : field n.bytes 1 1 = 2) (hk : n.frees = some (k, none)) :
    let s1 := raiseIrq (({ s with gx := { s.gx with noticeHeld := ns } } : State).setReg Reg.XLT_FNHEAD ((s.regN Reg.XLT_FNHEAD + 1) % 512)) 48
    noticeWritten s = freeEnt (({ s1 with gx := { s1.gx with mig := none } } : State).incReg Reg.XLT_MIGCNT) k none := by
  simp only [noticeWritten, hn, ht, hk, if_true, show (2 : Nat) ≠ 1 by decide, if_false]
  rfl

/-! ### The steps of a migration (R350, Table 10-9) -/

/-- With its owner entry's word at hand, a migration posts the page's new owner and waits for the write. -/
theorem migStep_of_page {s s1 : State} {m : Mig} {e : FqEnt} (hm : s.gx.mig = some m) (h2 : m.step = 2)
    (he : tget none s.gx.fq m.entry = some e) (hr : runMc (ownerWrite .pool (m.newpa / 4096) e.ctx) s = (.ok (), s1)) :
    migStep s = migAt (dropNeeds s1 (.ctl .pool)) m 3 := by
  unfold migStep
  simp only [hm, he, h2, if_true, migWrite, hr]

/-- What no access of the running migration satisfies. -/
theorem any_ofMig_eq_false {s : State} {p : Access → Bool} (h : ∀ a ∈ s.accs, ofMig a = true → p a = false) :
    (s.accs.filter ofMig).any p = false :=
  List.any_eq_false.mpr fun a ha => by simp [h a (List.mem_filter.mp ha).1 (List.mem_filter.mp ha).2]

/-- Once the mirror leaf is written, a migration posts the notice that ends it. -/
theorem migStep_of_mapped {s : State} {m : Mig} {e : FqEnt} (hm : s.gx.mig = some m) (h6 : m.step = 6)
    (he : tget none s.gx.fq m.entry = some e) (ha : ∀ a ∈ s.accs, ofMig a = true → a.stage = .got ∧ a.flt = none) :
    migStep s = migAt (postNotice (dropMig s) m.entry 2 { e with newpa := m.newpa } (some none)) m 7 := by
  have hbad : (s.accs.filter ofMig).any (fun a => a.stage == .got && a.flt.isSome) = false :=
    any_ofMig_eq_false fun a h hm => by simp [(ha a h hm).2]
  have hopen : (s.accs.filter ofMig).any (fun a => a.stage != .got) = false :=
    any_ofMig_eq_false fun a h hm => by simp [(ha a h hm).1]
  have hnotice : migNotice (dropMig s) m 2 = migAt (postNotice (dropMig s) m.entry 2 { e with newpa := m.newpa } (some none)) m 7 := by
    simp only [migNotice, dropMig_gx, he, if_true]
  rw [← hnotice]
  simp [migStep, hm, he, h6, hbad, hopen]

end Sys2Proof.Machine

open Sys2Proof Sys2Proof.Machine

/-- Settles O20: a walk by the entry that it has read, a companion walk by its reply or for want of one, and an address by its width. -/
theorem walksAdvanceAndEnd : Obligations.WalksAdvanceAndEnd := by
  refine ⟨fun b k t s w a hb h5 hw hr ha hf => ?table, fun b k leaf s w a hb h5 hw hr ha hf he => ?leaf,
    fun b k cause hpa s w a hb h5 hw hr ha hf he => ?page, fun b e s s1 w hb h5 h hw hs ho hres hm hst => ?reply,
    fun b k s w hb h5 hw => ?timeout, fun w b ctx va wr s h => runMc_xlate_of_wide h⟩
  case table =>
    intro e he
    rw [exec_pageWalkLine hb h5, walkReturns_of_came hw ha hf, walkWord_of_table hr he]
  case leaf => rw [exec_pageWalkLine hb h5, walkReturns_of_came hw ha hf, walkWord_of_leaf hr he]
  case page => rw [exec_pageWalkLine hb h5, walkReturns_of_came hw ha hf, walkWord_of_page hr he]
  case reply => rw [exec_walkrsp hb h5 h, walkReply_of_leaf hw hs ho hres hm hst]
  case timeout => rw [exec_companionWalkTimeout hb h5, walkTimeout_of_walk hw]

/-- Settles O21: an invalidation by its kind, what it names and drops, its answer, and the two flushes. -/
theorem invalidationsAreServed : Obligations.InvalidationsAreServed := by
  refine ⟨fun b e s s1 hb h5 h hk => ?known, fun b e s s1 hb h5 h hk => ?unknown, fun b port tag kind ctx base n s hb hk => ?names,
    fun b v vs s hb h5 hv hw => ?answer, fun b s hb ho => exec_xltFlushTlb hb ho, fun b s hb ho => exec_xltFlushOwner hb ho⟩
  case known => rw [exec_inval hb h5 h, inval_of_known hk]
  case unknown => rw [exec_inval hb h5 h, inval_of_unknown hk]
  case names =>
    refine ⟨?_, invalidate_tlb_of_unknown s b port tag ctx base n⟩
    rw [invalidate_own]
    by_cases h3 : kind = 3
    · simp only [h3, if_true]
    · simp only [h3, if_false, if_pos (show 3 < kind by omega)]
  case answer => rw [exec_invack hb h5, invack_of_done hv hw]

/-- Settles O22, a clause for each operation: a resolution by the entry that it names, the two tails, the parts of a migration, and the
writing of the notice that ends it. -/
theorem faultQueueAndMigration : Obligations.FaultQueueAndMigration := by
  refine ⟨fun v s e ho he hp hq hn => ?freed, fun v s e ho he hp hq hn => ?held, fun v s ho h => ?stale,
    fun v s ho => exec_xltFntailWrite ho, fun v s ho => exec_xltMptailWrite ho, fun k e bs s s1 h5 hm he hp hr => ?starts,
    fun m e s s1 h5 hm h2 he hr => ?owner, fun m e s h5 hm h3 he ha => ?reads, fun m e s h5 hm h6 he ha => ?ends,
    fun n ns k s hn ht hk => noticeWritten_of_migrated hn ht hk⟩
  case freed =>
    rw [exec_xltFresolve ho, fresolve_of_match he hp hq, freeWhenTold_of_told _ hn]
    cases bit v 8
    · simp only [Bool.false_eq_true, if_false, freeEnt_wakes he]
    · simp only [if_true, freeEnt_fails he]
  case held => rw [exec_xltFresolve ho, fresolve_of_match he hp hq, freeWhenTold_of_untold _ hn]
  case stale => rw [exec_xltFresolve ho, fresolve_of_stale h]
  case starts =>
    intro pa hk m
    rw [exec_migrationStart h5, migStart_of_page hm he hp hr hk]
    rfl
  case owner => rw [exec_migrationStepDone h5, migStep_of_page hm h2 he hr]
  case reads => rw [exec_migrationStepDone h5, migStep_of_owned hm h3 he ha]
  case ends => rw [exec_migrationStepDone h5, migStep_of_mapped hm h6 he ha]

end

section
/-! SUPPORT. How a task ends or gives its pane away and how its fault record goes to the ring (R365, R368, R370, R371), what signals, SYN_CTRL
and timeouts do to a sync object (R373 to R380, R389), and when a context reset runs (R372); and the three statements that follow from them. -/

namespace Sys2Proof.Machine

open Sys2Proof

/-! ### The outcomes of the rows of dispatch -/

/-- A row of a pane outside P5 has its effect. -/
theorem answer_pane {s t : State} {i : Nat} (hi : i < 144) (h5 : s.pwr.st ≠ 5) : answer s (okPane i) t = .next (keepStraps s t) := by
  rw [okPane_of_lt hi, answer_on h5]

/-- TASK_COMPLETE completes a task that is done. -/
theorem exec_taskComplete_of_done {i : Nat} {s : State} (hi : i < 144) (h5 : s.pwr.st ≠ 5) (hd : taskDone (s.pane i) = true) :
    exec (.taskComplete i) s = .next (followed s (completeTask s i)) := by
  refine (answer_pane hi h5).trans ?_
  rw [if_pos hd]
  rfl

theorem exec_sliceExpiry {i : Nat} {s : State} (hi : i < 144) (h5 : s.pwr.st ≠ 5) :
    exec (.sliceExpiry i) s = .next (followed s (sliceExpiry s i)) := answer_pane hi h5

theorem exec_blockedSwitch {i : Nat} {s : State} (hi : i < 144) (h5 : s.pwr.st ≠ 5) :
    exec (.blockedSwitch i) s = .next (followed s (blockedSwitch s i)) := answer_pane hi h5

theorem exec_dspTftailWrite {b v : Nat} {s : State} (hb : b < 16) (ho : regOpen s (Reg.DSP_TFTAIL b) = true) :
    exec (.dspTftailWrite b v) s = .next (followed s (tftailWrite s b v)) := answer_bay_open hb ho

/-! ### Completion, slices and blocked switches (R365, R368, R370) -/

/-- The task that a pane runs completes: its signal, its count, the pane idle, its entry free. -/
theorem completeTask_of_task {s : State} {i : Nat} {t : Task} (ht : (s.pane i).task.bind s.taskOf = some t) :
    completeTask s i = freeEntry ((idlePane ((if t.doneen then paneSignal s i t.donesync t.doneadd false (paneWrites s i) else s).incReg
      (Reg.DSP_TASKS t.bay)) i false).modPane i (fun p => { p with sw := p.sw.map (fun w => { w with outTask := none }) })) t.id := by
  unfold completeTask
  simp only [ht]

/-- A blocked task gives its pane to the candidate and waits. -/
theorem blockedSwitch_of_candidate {s : State} {i : Nat} {c : Task} (hb : (s.pane i).blockedAt.isSome = true) (hw : (s.pane i).sw = none)
    (hh : (s.pane i).halted = false) (hc : candidate s i = some c) : blockedSwitch s i = beginSwitch s i .waiting (some c.id) := by
  simp [blockedSwitch, hb, hw, hh, hc]

/-- At the end of its slice a task that is not blocked gives way to a candidate of its PRIO, and stays ready. -/
theorem sliceExpiry_of_candidate {s : State} {i : Nat} {x c : Task} (hb : (s.pane i).blockedAt = none)
    (hx : (s.pane i).task.bind s.taskOf = some x) (hc : candidate s i = some c) (hw : (s.pane i).sw = none)
    (hh : (s.pane i).halted = false) (hp : x.prio = c.prio) :
    sliceExpiry s i = (beginSwitch s i .ready (some c.id)).incReg (Reg.DSP_SLICED (bayOf i)) := by
  simp [sliceExpiry, hb, hx, hc, hw, hh, hp]

/-! ### The task-fault ring (R371) -/

/-- A record goes to its place in a ring with room, when none is on its way and the place lies in the map. -/
theorem ringSend_of_room {s : State} {k b a : Nat} {bs : List Byte} {full : Bool} (w : Who) (stick : State → State) (hf : full = false)
    (hr : ringBusy s k b = false) (hm : (linesIn (localPa a) bs.length).any (outOfMap s) = false) :
    ringSend s k b full w a (some bs) stick = sysPost s w a bs (.ring k b) := by
  simp [ringSend, hf, hr, hm]

/-- A task-fault record takes one 32 B place of the ring (Table 11-3). -/
@[simp] theorem tfBytes_length (r : TfRec) : (tfBytes r).length = 32 := rfl

theorem tfFull_eq_false {s : State} {b : Nat} (hs : (s.bay b).tfStuck = false)
    (hn : (s.regN (Reg.DSP_TFHEAD b) + 1) % 256 ≠ s.regN (Reg.DSP_TFTAIL b)) : tfFull s b = false := by
  simp [tfFull, hs, hn]

/-- The oldest record held goes to the place at DSP_TFHEAD. -/
theorem sendTf_of_held {s : State} {b : Nat} {r : TfRec} {rs : List TfRec} (hr : (s.bay b).tfHeld = r :: rs) (hf : tfFull s b = false)
    (hb : ringBusy s 0 b = false) :
    let a := s.reg64 (Reg.DSP_TFBASE_LO b) (Reg.DSP_TFBASE_HI b) + 32 * s.regN (Reg.DSP_TFHEAD b)
    (linesIn (localPa a) 32).any (outOfMap s) = false → sendTf s b = sysPost s (.bay b .fetch) a (tfBytes r) (.ring 0 b) := by
  intro a hm
  unfold sendTf
  rw [hr]
  exact ringSend_of_room _ _ hf hb hm

/-! ### Sync objects (R373 to R380, R389) -/

/-- SIGNAL_APPLY takes the first signal whose guarded writes are done off its way and applies it. -/
theorem exec_signalApply_of_next {b : Nat} {s : State} {g : Sig} (hb : b < 16) (h5 : s.pwr.st ≠ 5) (hg : nextSignal s b = some g) :
    exec (.signalApply b) s = .next (followed s (applySignal { s with sigs := s.sigs.erase g } g)) := by
  refine (answer_bay hb h5).trans ?_
  rw [hg]
  rfl

theorem exec_synCreate {b v : Nat} {s : State} (hb : b < 16) (ho : regOpen s (Reg.SYN_CTRL b) = true) :
    exec (.synCreate b v) s = .next (followed s (synCreate s b v)) := answer_bay_open hb ho

theorem exec_synDestroy {b v : Nat} {s : State} (hb : b < 16) (ho : regOpen s (Reg.SYN_CTRL b) = true) :
    exec (.synDestroy b v) s = .next (followed s (synDestroy s b)) := answer_bay_open hb ho

theorem exec_synSetValue {b v : Nat} {s : State} (hb : b < 16) (ho : regOpen s (Reg.SYN_CTRL b) = true) :
    exec (.synSetValue b v) s = .next (followed s (synSetValue s b)) := answer_bay_open hb ho

theorem exec_waitTimeout {b k : Nat} {s : State} (hb : b < 16) (h5 : s.pwr.st ≠ 5) :
    exec (.waitTimeout b k) s = .next (followed s (waitExpire s b k)) := answer_bay hb h5

/-- An object after an admitted signal: its value raised as far as it goes, and the signaller. -/
def SynObj.signalled (o : SynObj) (g : Sig) (now : Nat) : SynObj :=
  { o with val := satAdd 64 o.val g.amount, sat := o.sat || decide (2 ^ 64 ≤ o.val + g.amount), last := some (g.pane, g.chip, g.ctx, now) }

/-- An admitted signal raises its object, settles it, and completes the SIGNAL that sent it when that waits for it. -/
theorem applySignal_of_admitted {s : State} {g : Sig} (h : refusal (s.obj g.obj) g.ctx = none) :
    let s1 := retryStalled (settleObj (s.setObj g.obj ((s.obj g.obj).signalled g (s.bayTime (g.obj / 4096)))) g.obj) (g.obj / 4096)
    applySignal s g = match g.task with
      | some t => if g.completes then completeOf s1 t g.tag else s1
      | none => s1 := by
  unfold applySignal
  simp only [h]
  rfl

/-- Creating a Free object makes it Live with what the registers give. -/
theorem synCreate_of_free {s : State} {b : Nat} (v : Nat) (h : (s.obj (selObj s b)).st = 0) :
    synCreate s b v = s.setObj (selObj s b)
      { val := s.reg64 (Reg.SYN_INIT_LO b) (Reg.SYN_INIT_HI b), owner := s.regN (Reg.SYN_OWNERW b) % 65536, st := 1, anyctx := bit v 3,
        sat := false, last := none } := if_neg (not_not.mpr h)

/-- Creating an object that is not Free is refused and counted. -/
theorem synCreate_of_taken {s : State} {b : Nat} (v : Nat) (h : (s.obj (selObj s b)).st ≠ 0) :
    synCreate s b v = s.incReg (Reg.SYN_REFUSED b) := if_pos h

/-- A Live object takes the value of SYN_INIT, and is settled. -/
theorem synSetValue_of_live {s : State} {b : Nat} (h : (s.obj (selObj s b)).st = 1) :
    synSetValue s b = retryStalled (settleObj (s.setObj (selObj s b)
      { s.obj (selObj s b) with val := s.reg64 (Reg.SYN_INIT_LO b) (Reg.SYN_INIT_HI b), sat := false }) (selObj s b)) b := by
  simp [synSetValue, h]

/-- A waiter with a timeout leaves its object as that runs out, and what it held back is settled. -/
theorem waitExpire_of_timed {s : State} {b k : Nat} {w : Waiter} (hw : ((s.bay b).waiters ++ (s.bay b).stalledWaits)[k]? = some w)
    (he : w.expiry.isSome = true) :
    waitExpire s b k = retryStalled (settleObj (releaseWaiter (s.modBay b (fun x =>
      if x.waiters.contains w then { x with waiters := x.waiters.erase w } else { x with stalledWaits := x.stalledWaits.erase w })) w 4)
        w.obj) b := by
  simp only [waitExpire, hw, Option.isNone_eq_false_iff.mpr he, Bool.false_eq_true, if_false]

/-! ### Context resets (R372) -/

theorem exec_contextReset {b v : Nat} {s : State} (hb : b < 16) (ho : regOpen s (Reg.DSP_CTXRESET b) = true) :
    exec (.contextReset b v) s = .next (followed s (ctxResetWrite s v)) := answer_bay_open hb ho

theorem exec_contextResetDone {s : State} (h5 : s.pwr.st ≠ 5) : exec .contextResetDone s = .next (followed s (ctxResetDone s)) := answer_on h5

/-- A write that names no context is ignored. -/
theorem ctxResetWrite_of_reserved {s : State} {v : Nat} (h : v % 65536 = 0 ∨ v % 65536 = 0xFFFF) : ctxResetWrite s v = s := if_pos h

/-- A write that names a context is held while a reset runs. -/
theorem ctxResetWrite_of_running {s : State} {v c : Nat} (h0 : v % 65536 ≠ 0) (hf : v % 65536 ≠ 0xFFFF) (hc : s.ctxReset = some c) :
    ctxResetWrite s v = { s with ctxResetQ := s.ctxResetQ ++ [v % 65536] } := by
  simp [ctxResetWrite, h0, hf, hc]

/-- A write that names a context runs its reset at once when none runs. -/
theorem ctxResetWrite_of_none {s : State} {v : Nat} (h0 : v % 65536 ≠ 0) (hf : v % 65536 ≠ 0xFFFF) (hc : s.ctxReset = none) :
    ctxResetWrite s v = ctxResetRun s (v % 65536) := by
  simp [ctxResetWrite, h0, hf, hc]

/-- The last reset ends. -/
theorem ctxResetDone_of_last {s : State} {c : Nat} (hc : s.ctxReset = some c) (hq : s.ctxResetQ = []) :
    ctxResetDone s = { s with ctxReset := none } := by
  simp only [ctxResetDone, hc, hq]

/-- A reset ends and the oldest one held starts. -/
theorem ctxResetDone_of_held {s : State} {c d : Nat} {q : List Nat} (hc : s.ctxReset = some c) (hq : s.ctxResetQ = d :: q) :
    ctxResetDone s = ctxResetRun { s with ctxReset := none, ctxResetQ := q } d := by
  simp only [ctxResetDone, hc, hq]

end Sys2Proof.Machine

open Sys2Proof Sys2Proof.Machine

/-- Settles O11: what a task's end, the end of its slice and a block make of the pane, and the two steps of the task-fault ring. -/
theorem tasksCompleteAndGiveWay : Obligations.TasksCompleteAndGiveWay := by
  refine ⟨fun i s t hi h5 hd ht => ?completes, fun i s x c hi h5 hb hx hc hw hh hp => ?slice, fun i s c hi h5 hb hw hh hc => ?blocked,
    fun b v s hb ho => exec_dspTftailWrite hb ho, fun b s r rs hr hs hn hf hm => ?record⟩
  case completes => rw [exec_taskComplete_of_done hi h5 hd, completeTask_of_task ht]
  case slice => rw [exec_sliceExpiry hi h5, sliceExpiry_of_candidate hb hx hc hw hh hp]
  case blocked => rw [exec_blockedSwitch hi h5, blockedSwitch_of_candidate hb hw hh hc]
  case record => exact sendTf_of_held hr (tfFull_eq_false hs hn) hf hm

/-- Settles O12, a clause for each operation on an object: a signal, the three codes of SYN_CTRL, and a timeout. -/
theorem syncObjectsFollowTheirRules : Obligations.SyncObjectsFollowTheirRules := by
  refine ⟨fun b s g hb h5 hg hr => ?signal, fun b v s hb ho h => ?create, fun b v s hb ho h => ?refused,
    fun b v s hb ho => exec_synDestroy hb ho, fun b v s hb ho h => ?set, fun b k s w hb h5 hw he => ?timeout⟩
  case signal =>
    refine (exec_signalApply_of_next hb h5 hg).trans (congrArg (fun t => Host.Outcome.next (followed s t)) ?_)
    exact applySignal_of_admitted (s := { s with sigs := s.sigs.erase g }) hr
  case create => rw [exec_synCreate hb ho, synCreate_of_free v h]
  case refused => rw [exec_synCreate hb ho, synCreate_of_taken v h]
  case set => rw [exec_synSetValue hb ho, synSetValue_of_live h]
  case timeout => rw [exec_waitTimeout hb h5, waitExpire_of_timed hw he]

/-- Settles O23: a write of DSP_CTXRESET by whether it names a context and whether a reset runs, and the end of a reset by whether one is held. -/
theorem contextResetRuns : Obligations.ContextResetRuns := by
  refine ⟨fun b v s hb ho h0 hf hc => ?runs, fun b v c s hb ho h0 hf hc => ?held, fun b v s hb ho h => ?ignored,
    fun c s h5 hc hq => ?last, fun c d q s h5 hc hq => ?next⟩
  case runs =>
    rw [exec_contextReset hb ho, ctxResetWrite_of_none h0 hf hc]
    rfl
  case held => rw [exec_contextReset hb ho, ctxResetWrite_of_running h0 hf hc]
  case ignored => rw [exec_contextReset hb ho, ctxResetWrite_of_reserved h]
  case last => rw [exec_contextResetDone h5, ctxResetDone_of_last hc hq]
  case next => rw [exec_contextResetDone h5, ctxResetDone_of_held hc hq]

end

section
/-! SUPPORT. What every step keeps, whatever the command (R505, R540, R543, R544): a step's outcome follows from the three forms that
`exec_form` gives a command's answer. -/

namespace Sys2Proof.Machine

open Sys2Proof

/-- A command whose operands name what the package has answers a next state. -/
theorem runs_answer {s t : State} {ok : Bool} (h : ok = true) : Runs (answer s ok t) := by
  obtain ⟨hf, -⟩ | ⟨-, -, he⟩ | ⟨-, -, he⟩ := answer_cases s ok t
  · rw [h] at hf
    cases hf
  · exact ⟨_, he⟩
  · exact ⟨_, he⟩

/-- What a command that answers through `answer` leaves: in P5 the whole state, else its effect. -/
theorem of_answer_eq_next {s t u : State} {ok : Bool} (h : answer s ok t = .next u) :
    s.pwr.st = 5 ∧ u = s ∨ s.pwr.st ≠ 5 ∧ u = keepStraps s t := by
  obtain ⟨-, he⟩ | ⟨-, h5, he⟩ | ⟨-, h5, he⟩ := answer_cases s ok t <;> rw [he] at h <;> cases h
  · exact .inl ⟨h5, rfl⟩
  · exact .inr ⟨h5, rfl⟩

/-- A fault domain's number is one of the package exactly when its instance is one of its kind. -/
theorem okDom_mul_add {dkind inst : Nat} (h : inst < domainCount dkind) : inst < 256 ∧ okDom (dkind * 256 + inst) = true := by
  have h256 : inst < 256 := by
    refine Nat.lt_of_lt_of_le h ?_
    unfold domainCount
    rcases dkind with _ | _ | _ | _ | _ | _ | _ | _ | _ | n <;> simp
  have hd : (dkind * 256 + inst) / 256 = dkind := by omega
  have hm : (dkind * 256 + inst) % 256 = inst := by omega
  refine ⟨h256, ?_⟩
  unfold okDom
  rw [hd, hm]
  exact decide_eq_true h

/-- Every well-formed command answers a next state: its operands are in the ranges that its row checks. -/
theorem exec_runs_of_wellFormed (c : Instr) (s : State) : c.wellFormed = true → Runs (exec c s) := by
  cases c
  case powerUp | pinReset | refclk0Loss | refclkBothLost | vinUndervoltage | vauxUndervoltage | vinDip | vioUndervoltage | refclk1Loss =>
    exact fun _ => ⟨_, rfl⟩
  case domainResetDone dkind inst =>
    intro h
    obtain ⟨h256, hd⟩ := okDom_mul_add (of_decide_eq_true h)
    exact runs_answer (by simp [h256, hd])
  case targetedSelfTest | selfTestVerdict => exact fun h => runs_answer h
  all_goals
    intro h
    first
    | exact runs_answer (ok := true) rfl
    | refine runs_answer ?_
      revert h
      simp +contextual only [Instr.wellFormed, okBay, okPane, okPort, okPath, Bool.and_eq_true, Bool.decide_and, decide_eq_true_eq, implies_true, and_self, and_assoc]

/-- What power-up leaves: a powered device, with the straps sampled (Table 15-1). -/
theorem exec_powerUp (chip smba rn : Nat) (s : State) :
    exec (.powerUp chip smba rn) s = .next { powerUp s chip smba rn with pending := s.pending } := rfl

theorem exec_pinReset (chip smba rn : Nat) (s : State) :
    exec (.pinReset chip smba rn) s = .next { pinReset s chip smba rn with pending := s.pending } := rfl

/-- A pin reset has no effect after a thermal trip, nor without VAUX. -/
theorem pinReset_of_off {s : State} (chip smba rn : Nat) (h : s.sup.tripped = true ∨ s.sup.vauxOk = false) :
    pinReset s chip smba rn = s := by
  unfold pinReset
  exact if_pos (by simpa using h)

/-- What a pin reset leaves while VAUX stands and no trip holds. -/
theorem pinReset_of_on {s : State} (chip smba rn : Nat) (ht : s.sup.tripped = false) (hv : s.sup.vauxOk = true) :
    pinReset s chip smba rn = { resetAll s with
      sup := { s.sup with chip := chip % 2 ^ 12, smba := smba % 4, recoverN := rn % 2, keep := [], vinOk := true
                          refUsed := b2n s.sup.ref0Lost }
      boot := { forced := rn % 2 == 0 } } := by
  unfold pinReset
  exact if_neg (by simp [ht, hv])

/-! ### The events of the supply die -/

@[simp] theorem supEvent_pwr (s : State) (k : Nat) : (supEvent s k).pwr = s.pwr := rfl
@[simp] theorem supEvent_sup (s : State) (k : Nat) : (supEvent s k).sup = s.sup := rfl
@[simp] theorem supEvent_flash (s : State) (k : Nat) : (supEvent s k).flash = s.flash := rfl
@[simp] theorem supEvent_panes (s : State) (k : Nat) : (supEvent s k).panes = s.panes := rfl

/-- The loss of REFCLK0 leaves the power state and the trip. -/
theorem refclk0Loss_keeps (s : State) : (refclk0Loss s).pwr = s.pwr ∧ (refclk0Loss s).sup.tripped = s.sup.tripped := by
  unfold refclk0Loss
  split
  · exact ⟨rfl, rfl⟩
  · dsimp only
    split <;> exact ⟨rfl, rfl⟩

/-- An event of the supply die leaves a device in P5 there, and a trip as it was. -/
theorem supplyEvent_keeps {c : Instr} {s t : State} (hc : supplyEvent c = true) (h5 : s.pwr.st = 5) (h : exec c s = .next t) :
    t.pwr.st = 5 ∧ t.sup.tripped = s.sup.tripped := by
  cases c <;> cases hc <;> cases h
  case refclk0Loss => 
    obtain ⟨hp, ht⟩ := refclk0Loss_keeps s
    exact ⟨(congrArg (·.st) hp).trans h5, ht⟩
  case refclk1Loss =>
    rw [keepStraps_pwr]
    split <;> exact ⟨h5, rfl⟩
  case refclkBothLost => exact ⟨rfl, rfl⟩
  case vinUndervoltage =>
    rw [keepStraps_pwr]
    split
    · exact ⟨h5, rfl⟩
    · exact ⟨rfl, rfl⟩
  case vauxUndervoltage => exact ⟨rfl, rfl⟩
  case vinDip =>
    rw [keepStraps_pwr]
    dsimp only
    split <;> exact ⟨h5, rfl⟩
  case vioUndervoltage => exact ⟨h5, rfl⟩

/-! ### The queue and the straps -/

/-- A command leaves the queue, and the straps too unless it samples them. -/
theorem exec_keeps {c : Instr} {s t : State} (h : exec c s = .next t) :
    t.pending = s.pending ∧ (samplesStraps c = false →
      t.sup.chip = s.sup.chip ∧ t.sup.smba = s.sup.smba ∧ t.sup.recoverN = s.sup.recoverN) := by
  obtain ⟨ok, u, he⟩ | ⟨-, u, he⟩ | ⟨a, b, d, rfl⟩ | ⟨a, b, d, rfl⟩ := exec_form c s
  · rw [he] at h
    obtain ⟨-, rfl⟩ | ⟨-, rfl⟩ := of_answer_eq_next h
    · exact ⟨rfl, fun _ => ⟨rfl, rfl, rfl⟩⟩
    · exact ⟨rfl, fun _ => ⟨rfl, rfl, rfl⟩⟩
  · rw [he] at h
    cases h
    exact ⟨rfl, fun _ => ⟨rfl, rfl, rfl⟩⟩
  · cases h
    exact ⟨rfl, fun hs => nomatch hs⟩
  · cases h
    exact ⟨rfl, fun hs => nomatch hs⟩

/-- Only power-up and pin reset sample the straps. -/
theorem eq_of_samplesStraps {c : Instr} (h : samplesStraps c = true) : (∃ a b d, c = .powerUp a b d) ∨ ∃ a b d, c = .pinReset a b d := by
  cases c <;> cases h
  · exact .inl ⟨_, _, _, rfl⟩
  · exact .inr ⟨_, _, _, rfl⟩

/-- Every command leaves legal straps: one that samples them cuts them to their widths. -/
theorem exec_strapsLegal {c : Instr} {s t : State} (hs : StrapsLegal s) (h : exec c s = .next t) : StrapsLegal t := by
  by_cases hc : samplesStraps c = true
  · obtain ⟨a, b, d, rfl⟩ | ⟨a, b, d, rfl⟩ := eq_of_samplesStraps hc
    · cases h
      exact ⟨Nat.mod_lt _ (by decide), Nat.mod_lt _ (by decide), Nat.mod_lt _ (by decide)⟩
    · cases h
      by_cases hoff : s.sup.tripped = true ∨ s.sup.vauxOk = false
      · rw [pinReset_of_off a b d hoff]
        exact hs
      · rw [not_or, Bool.not_eq_true, Bool.not_eq_false] at hoff
        rw [pinReset_of_on a b d hoff.1 hoff.2]
        exact ⟨Nat.mod_lt _ (by decide), Nat.mod_lt _ (by decide), Nat.mod_lt _ (by decide)⟩
  · obtain ⟨-, hk⟩ := exec_keeps h
    obtain ⟨h1, h2, h3⟩ := hk (by simpa using hc)
    unfold StrapsLegal
    rw [h1, h2, h3]
    exact hs

/-- In P5 a command outside the supply die leaves the whole state. -/
theorem exec_P5 {c : Instr} {s t : State} (h5 : s.pwr.st = 5) (hc : samplesStraps c = false) (he : supplyEvent c = false)
    (h : exec c s = .next t) : t = s := by
  obtain ⟨ok, u, hx⟩ | ⟨hx, -⟩ | ⟨a, b, d, rfl⟩ | ⟨a, b, d, rfl⟩ := exec_form c s
  · rw [hx] at h
    exact (of_answer_eq_next h).elim (·.2) (fun h' => absurd h5 h'.1)
  · rw [he] at hx
    cases hx
  · cases hc
  · cases hc

/-- A command that does not sample the straps leaves P5 and a trip of a device that is there. -/
theorem exec_keeps_P5 {c : Instr} {s t : State} (h5 : s.pwr.st = 5) (hc : samplesStraps c = false) (h : exec c s = .next t) :
    t.pwr.st = 5 ∧ t.sup.tripped = s.sup.tripped := by
  by_cases he : supplyEvent c = true
  · exact supplyEvent_keeps he h5 h
  · rw [exec_P5 h5 hc (by simpa using he) h]
    exact ⟨h5, rfl⟩

/-- With a command waiting, a step takes it from the queue and runs it. -/
theorem step_cons (c : Instr) (rest : List Instr) (s : State) : step { s with pending := c :: rest } = exec c { s with pending := rest } := rfl

/-- With nothing waiting, a step is the idle tick. -/
theorem step_of_nil {s : State} (h : s.pending = []) : step s = .next (tick s) := by
  unfold step
  rw [h]

/-- With a command waiting, a step is that command's run on the queue's rest. -/
theorem step_of_cons {s : State} {c : Instr} {rest : List Instr} (h : s.pending = c :: rest) : step s = exec c { s with pending := rest } := by
  unfold step
  rw [h]

/-- The idle tick lets a nanosecond pass, but for P5. -/
theorem tick_on {s : State} (h : s.pwr.st ≠ 5) : tick s = { s with devTime := (s.devTime + 1) % 2 ^ 64 } := if_neg h
theorem tick_off {s : State} (h : s.pwr.st = 5) : tick s = s := if_pos h

/-- The idle tick leaves the queue and the straps. -/
theorem tick_keeps (s : State) : (tick s).pending = s.pending ∧ (tick s).sup = s.sup := by
  unfold tick
  split <;> exact ⟨rfl, rfl⟩

end Sys2Proof.Machine

open Sys2Proof Sys2Proof.Machine

/-- Settles O6: a command outside the supply die answers through `answer`, which does nothing in P5; each event of the supply die
keeps the power state or enters P5. -/
theorem p5AnswersOnlyTheSupplyDie : Obligations.P5AnswersOnlyTheSupplyDie :=
  ⟨fun _ _ _ h5 hc he h => exec_P5 h5 hc he h, fun _ _ _ h5 hc h => (exec_keeps_P5 h5 hc h).1⟩

/-- Settles O4: the idle tick leaves the straps, a command keeps them or samples them in their widths. -/
theorem strapsStayLegal : Obligations.StrapsStayLegal := by
  intro s t hs h
  cases hp : s.pending with
  | nil =>
    rw [step_of_nil hp] at h
    cases h
    unfold StrapsLegal
    rw [(tick_keeps s).2]
    exact hs
  | cons c rest =>
    rw [step_of_cons hp] at h
    exact exec_strapsLegal (s := { s with pending := rest }) hs h

/-- Settles O2: no form of a command's answer is a refusal, and the fault is for operands that no well-formed command has. -/
theorem noCommandStops : Obligations.NoCommandStops := by
  refine fun c s => ⟨?_, exec_runs_of_wellFormed c s⟩
  obtain ⟨ok, u, he⟩ | ⟨-, u, he⟩ | ⟨a, b, d, rfl⟩ | ⟨a, b, d, rfl⟩ := exec_form c s
  · rw [he]
    cases ok
    · exact .inr rfl
    · exact .inl (runs_answer rfl)
  · exact .inl ⟨_, he⟩
  · exact .inl ⟨_, exec_powerUp a b d s⟩
  · exact .inl ⟨_, exec_pinReset a b d s⟩

/-- Settles O3: a command leaves the queue, and `step` has taken its front before it runs. -/
theorem queueIsFirstInFirstOut : Obligations.QueueIsFirstInFirstOut := by
  refine ⟨fun c s t h => (exec_keeps h).1, fun s t h => ?_⟩
  cases hp : s.pending with
  | nil =>
    rw [step_of_nil hp] at h
    cases h
    rw [(tick_keeps s).1, hp]
    rfl
  | cons c rest =>
    rw [step_of_cons hp] at h
    exact (exec_keeps h).1

/-- Settles O1, by the two forms of the queue. -/
theorem stepRunsFrontCommand : Obligations.StepRunsFrontCommand := by
  refine ⟨step_cons, fun s h5 => ?_, fun s h5 => ?_⟩
  · exact (step_of_nil rfl).trans (congrArg _ (tick_on h5))
  · exact (step_of_nil rfl).trans (congrArg _ (tick_off h5))

/-- Settles O5: the fields of the reset state as they are defined. -/
theorem resetIsLegal : Obligations.ResetIsLegal := by
  refine ⟨⟨?_, ?_, ?_⟩, rfl, rfl, rfl, rfl, rfl, rfl⟩ <;> decide

/-- Settles O55: a pin reset does nothing after a trip, and any other command but power-up leaves P5 and the trip. -/
theorem tripHoldsUntilPowerUp : Obligations.TripHoldsUntilPowerUp := by
  intro c s t ht h5 hp h
  by_cases hc : samplesStraps c = true
  · obtain ⟨a, b, d, rfl⟩ | ⟨a, b, d, rfl⟩ := eq_of_samplesStraps hc
    · exact absurd rfl (hp a b d)
    · rw [exec_pinReset, pinReset_of_off a b d (.inl ht)] at h
      cases h
      exact ⟨h5, ht, fun _ _ _ _ => rfl⟩
  · obtain ⟨h1, h2⟩ := exec_keeps_P5 h5 (by simpa using hc) h
    refine ⟨h1, h2.trans ht, fun a b d he => ?_⟩
    subst he
    exact absurd rfl hc

end

section
/-! SUPPORT. The reasons of a refused access (R575), what the resets leave (Table 15-1, R466), and the rails, clocks and sensors of the
package (R559 to R574). -/

namespace Sys2Proof.Machine

open Sys2Proof

/-! ### The reasons of a refused access -/

/-- An access that names a register meets the reasons of its write alone: unavailable, refused by state, path. -/
theorem accessReason_of_addressed {s : State} {path a : Nat} {wr : Bool} (h : Addressed s path a wr) :
    accessReason s path a wr = if wr && writeUnavailable s path (resolve s a) then 5 else if wr && stateForbids s (resolve s a) then 4
      else if wr && wrongPath s path (resolve s a) then 6 else 0 := by
  obtain ⟨hal, hre, hreg, hins⟩ := h
  have h3 : (!s.boot.ready && !answersEarly s path a wr) = false := by
    rcases hre with h | h <;> simp [h]
  have h1 : (regRow (resolve s a)).isNone = false := by simpa using hreg
  have h5 : (isAlias a && (aliasInst s a).isNone) = false := by
    cases ha : isAlias a
    · rfl
    · simpa using hins ha
  unfold accessReason
  dsimp only
  rw [if_neg (not_not.mpr hal), h3, h1, h5]
  cases wr
  · simp
  · simp [writeUnavailable, wrongPath, ite_or, and_assoc]

end Sys2Proof.Machine

open Sys2Proof Sys2Proof.Machine

/-- Settles O59, a clause for each reason in the order of R575. -/
theorem accessReasonsHaveTheirOrder : Obligations.AccessReasonsHaveTheirOrder := by
  refine ⟨fun s path a wr h => ?alignment, fun s path a wr h hr he => ?notReady, fun s path a wr h hr hn => ?unmapped,
    fun s path a wr h hr hn ha hi => ?outOfService, fun s path a h hu => ?unavailable, fun s path a h hu hs => ?state,
    fun s path a h hu hs hp => ?path, fun s path a h hu hs hp => ?served, fun s path a h => ?read⟩
  case alignment => exact if_pos h
  case notReady => simp [accessReason, h, hr, he]
  case unmapped => 
    have h3 : (!s.boot.ready && !answersEarly s path a wr) = false := by
      rcases hr with h | h <;> simp [h]
    simp [accessReason, h, h3, hn]
  case outOfService =>
    have h3 : (!s.boot.ready && !answersEarly s path a wr) = false := by
      rcases hr with h | h <;> simp [h]
    simp [accessReason, h, h3, Option.isSome_iff_ne_none.mp hn, ha, hi]
  case unavailable => simp [accessReason_of_addressed h, hu]
  case state => simp [accessReason_of_addressed h, hu, hs]
  case path => simp [accessReason_of_addressed h, hu, hs, hp]
  case served => simp [accessReason_of_addressed h, hu, hs, hp]
  case read => simp [accessReason_of_addressed h]

end

section
/-! SUPPORT. What the resets leave (Table 15-1, R466, R488), and the rails, clocks and sensors of the package (R559 to R574). -/

namespace Sys2Proof.Machine

open Sys2Proof

/-! ### Registers after a reset -/

/-- A reset keeps the registers of the supply die and no other. -/
theorem resetAll_reg (s : State) (a : Nat) : (resetAll s).reg a = if 0x1000 ≤ a ∧ a < 0x2000 then s.reg a else regReset a := by
  unfold State.reg resetAll supRegs
  dsimp only
  rw [tget_filter (regReset a) (fun k => decide (0x1000 ≤ k ∧ k < 0x2000))]
  simp

/-- A restart through its register: the write resets the device, and its path is answered (R488). -/
theorem rowAccess_restart {s : State} {path v : Nat} (h5 : s.pwr.st ≠ 5) (h3 : s.rel.upd ≠ 3) (hb : pathBusy s path = false)
    (hr : accessReason s path Reg.CTL_RESTART true = 0) (hv : (restartWrite s v).mgmt.held = []) :
    rowAccess s path Reg.CTL_RESTART v true = noteAnswer (restartWrite s v) path 0 0 := by
  have hx : resolve s Reg.CTL_RESTART = Reg.CTL_RESTART := resolve_low s _ (by decide)
  have hw : writeEffect s path Reg.CTL_RESTART v = restartWrite s v := rfl
  rw [rowAccess_write h5 h3 hb hr (by rw [hx]; decide) (by rw [hx, hw, hv]; exact Nat.zero_le _), hx, hw]

theorem noteAnswer_eq (s : State) (path reason data : Nat) :
    ∃ l, noteAnswer s path reason data = { s with mgmt := { s.mgmt with last := l } } := by
  unfold noteAnswer
  split
  · exact ⟨s.mgmt.last, rfl⟩
  · exact ⟨_, rfl⟩

theorem exec_restart (path : Nat) (s : State) :
    exec (.restart path) s = answer s (okPath path) (rowAccess s path Reg.CTL_RESTART 0x1A5 true) := rfl
theorem exec_recovery (path : Nat) (s : State) :
    exec (.recovery path) s = answer s (okPath path) (rowAccess s path Reg.CTL_RESTART 0x2A5 true) := rfl

/-- CTL_RESTART with its key and KIND 1 restarts the device, with KIND 2 into a recovery boot. -/
theorem restartWrite_restart (s : State) : restartWrite s 0x1A5 = restartDevice s false false := rfl
theorem restartWrite_recovery (s : State) : restartWrite s 0x2A5 = restartDevice s true false := rfl

/-! ### Rails, clocks and sensors -/

theorem exec_supEventsClear (v : Nat) (s : State) :
    exec (.supEventsClear v) s = answer s true (whenOpen s Reg.SUP_EVENTS (eventsClear s v)) := rfl
theorem exec_refclk0Loss (s : State) : exec .refclk0Loss s = answerSupply s (refclk0Loss s) := rfl
theorem exec_sensorRead (rep : Sensors) (s : State) : exec (.sensorRead rep) s = answer s true (sensorRead s rep) := rfl

/-- A low VIN with VAUX in regulation enters P5 with VINUV (R562). -/
theorem exec_vinUndervoltage_of_vaux {s : State} (h : s.sup.vauxOk = true) : exec .vinUndervoltage s =
    .next (keepStraps s (supEvent { enterP5 s with sup := { (enterP5 s).sup with vinOk := false } } 2)) := by
  show answerSupply s (if !s.sup.vauxOk then s else _) = _
  rw [h]
  rfl

/-- A fall of VIN sets VINDIP (R573). -/
theorem exec_vinDip_of_ok {s : State} (h : s.sup.vinOk = true) :
    exec .vinDip s = .next (keepStraps s (supEvent { s with sup := { s.sup with vinOk := false } } 1)) := by
  show answerSupply s (if s.sup.vinOk then supEvent { s with sup := { s.sup with vinOk := !s.sup.vinOk } } 1 else _) = _
  rw [h]
  rfl

/-- REFCLK1's toggles count while REFCLK0 runs. -/
theorem exec_refclk1Loss_of_ref0 {s : State} (h : s.sup.ref0Lost = false) :
    exec .refclk1Loss s = .next (keepStraps s { s with sup := { s.sup with ref1Lost := !s.sup.ref1Lost } }) := by
  show answerSupply s (if s.sup.ref0Lost then s else _) = _
  rw [h]
  rfl

/-- The loss of REFCLK0 in use, while REFCLK1 runs, moves the device to REFCLK1 with REFSW (R565). -/
theorem refclk0Loss_of_used {s : State} (h0 : s.sup.ref0Lost = false) (h1 : s.sup.ref1Lost = false) (hu : s.sup.refUsed = 0) :
    refclk0Loss s = supEvent { s with sup := { s.sup with ref0Lost := true, refUsed := 1 } } 0 := by
  simp [refclk0Loss, h0, h1, hu]

/-- VINUV is bit 2 of SUP_EVENTS (R573). -/
theorem supEvent_two_bit (s : State) : bit ((supEvent s 2).regN Reg.SUP_EVENTS) 2 = true := by
  simp only [supEvent, State.setField, State.setReg_regN, bit, setBits, bits, beq_iff_eq]
  omega

/-- A control die at 110 °C trips the device (R571). -/
theorem sensorRead_of_hot {s : State} {rep : Sensors} (h5 : s.pwr.st ≠ 5) (h : 110 ≤ rep.ctl) : sensorRead s rep = thermalTrip s := by
  unfold sensorRead
  rw [if_neg h5, if_pos (by simp [h])]

/-- Below 110 °C, with no rail, laser or lintel among what is read, SUP_TEMP shows the dies (R569). -/
theorem sensorRead_of_cool {s : State} {rep : Sensors} (h5 : s.pwr.st ≠ 5) (hr : s.rimOn = false) (hl : rep.lasers = [])
    (hn : rep.lintels = []) (hv : rep.rails = []) (hc : rep.ctl < 110) (hs : rep.sup < 110) :
    sensorRead s rep = settle (s.setReg Reg.SUP_TEMP (rep.sup % 256 + rep.ctl % 256 * 2 ^ 8 + hottestDie s rep % 256 * 2 ^ 24)) := by
  unfold sensorRead
  rw [if_neg h5, if_neg (by simp [hl, hn, hc, hs])]
  simp [hr, hn, hv]

end Sys2Proof.Machine

open Sys2Proof Sys2Proof.Machine

/-- Settles O39, a clause for each reset; what a restart keeps is what `restartDevice` writes over the reset state. -/
theorem resetsLeaveWhatTheyKeep : Obligations.ResetsLeaveWhatTheyKeep := by
  refine ⟨fun chip smba rn s => rfl, fun chip smba rn s ht => ?tripped, fun chip smba rn s ht hv => ?pin,
    fun path s h1 hp h5 hu hb hr => ?restart, fun path s h1 hp h5 hu hb hr => ?recovery⟩
  case tripped => rw [exec_pinReset, pinReset_of_off _ _ _ (.inl ht)]
  case pin =>
    refine ⟨_, exec_pinReset chip smba rn s, ?_⟩
    rw [pinReset_of_on _ _ _ ht hv]
    refine ⟨rfl, rfl, rfl, rfl, rfl, rfl, rfl, rfl, rfl, rfl, rfl, rfl, rfl, fun a hl hh => ?_, fun a ha => ?_⟩
    · exact (resetAll_reg s a).trans (if_pos ⟨hl, hh⟩)
    · exact (resetAll_reg s a).trans (if_neg ha)
  case restart =>
    obtain ⟨l, hl⟩ := noteAnswer_eq (restartDevice s false false) path 0 0
    rw [exec_restart, okPath_of_range h1 hp, answer_on h5, rowAccess_restart h5 hu hb hr rfl, restartWrite_restart, hl]
    exact ⟨_, rfl, rfl, rfl, rfl, rfl, rfl, rfl, rfl, rfl, rfl, rfl, rfl, rfl⟩
  case recovery =>
    obtain ⟨l, hl⟩ := noteAnswer_eq (restartDevice s true false) path 0 0
    rw [exec_recovery, okPath_of_range h1 hp, answer_on h5, rowAccess_restart h5 hu hb hr rfl, restartWrite_recovery, hl]
    exact ⟨_, rfl, rfl, rfl, rfl, rfl, rfl, rfl, rfl, rfl⟩

/-- Settles O49, a clause for each event and each set of readings. -/
theorem packageEvents : Obligations.PackageEvents := by
  refine ⟨fun v s ho => ?clear, fun s h0 h1 hu => ?refclk0, fun s h0 => exec_refclk1Loss_of_ref0 h0,
    fun s => ⟨_, rfl, rfl, rfl, rfl, rfl, rfl, rfl⟩, fun s hv => ?vin, fun s => ⟨_, rfl, rfl, rfl, rfl, rfl, rfl⟩,
    fun s hv => exec_vinDip_of_ok hv, fun s => rfl, fun rep s h5 h => ?hot, fun rep s h5 hr hl hn hv hc hs => ?cool⟩
  case clear =>
    rw [exec_supEventsClear, answer_open ho]
    rfl
  case refclk0 =>
    rw [exec_refclk0Loss, refclk0Loss_of_used h0 h1 hu]
    rfl
  case vin => exact ⟨_, exec_vinUndervoltage_of_vaux hv, rfl, rfl, rfl, supEvent_two_bit _, rfl⟩
  case hot => rw [exec_sensorRead, answer_on h5, sensorRead_of_hot h5 h]
  case cool =>
    rw [exec_sensorRead, answer_on h5, sensorRead_of_cool h5 hr hl hn hv hc hs]
    rfl

end

section
/-! SUPPORT. Little-endian bytes and numbers, the range of the CRC, and the flit that a port builds (R402, R403). -/

namespace Sys2Proof.Machine

open Sys2Proof

/-! ### Little-endian bytes -/

@[simp] theorem length_leBytes (len n : Nat) : (leBytes len n).length = len := by
  induction len generalizing n with
  | zero => rfl
  | succ len ih => simp [leBytes, ih]

theorem leNat_leBytes (len n : Nat) : leNat (leBytes len n) = n % 256 ^ len := by
  induction len generalizing n with
  | zero => simp [leBytes, leNat, Nat.mod_one]
  | succ len ih =>
    rw [leBytes, leNat, ih, BitVec.toNat_ofNat, pow_succ' 256 len, Nat.mod_mul (a := 256)]

theorem leBytes_leNat (bs : List Byte) : leBytes bs.length (leNat bs) = bs := by
  induction bs with
  | nil => rfl
  | cons b bs ih =>
    have hb : b.toNat < 256 := b.isLt
    have h0 : BitVec.ofNat 8 (b.toNat + 256 * leNat bs) = b := BitVec.eq_of_toNat_eq (by rw [BitVec.toNat_ofNat]; omega)
    have h1 : (b.toNat + 256 * leNat bs) / 256 = leNat bs := by omega
    rw [List.length_cons, leNat, leBytes, h0, h1, ih]

/-- A field that is the front of a byte string. -/
theorem field_append_left {as bs : List Byte} {n : Nat} (h : as.length = n) : field (as ++ bs) 0 n = leNat as := by
  unfold field
  rw [List.drop_zero, List.take_left' h]

/-- A field that is the rest of a byte string. -/
theorem field_append_right {as bs : List Byte} {k n : Nat} (hk : as.length = k) (hn : bs.length = n) : field (as ++ bs) k n = leNat bs := by
  unfold field
  rw [List.drop_left' hk, ← hn, List.take_length]

/-! ### The CRC -/

theorem crcBit_lt {p r : Nat} (hp : p < 2 ^ 32) (hr : r < 2 ^ 32) : crcBit p r < 2 ^ 32 := by
  unfold crcBit
  split
  · exact Nat.xor_lt_two_pow (by omega) hp
  · omega

theorem crcByte_lt {p r : Nat} (b : Byte) (hp : p < 2 ^ 32) (hr : r < 2 ^ 32) : crcByte p r b < 2 ^ 32 := by
  have hb : b.toNat < 2 ^ 32 := Nat.lt_of_lt_of_le b.isLt (by decide)
  unfold crcByte
  exact List.foldlRecOn _ _ (motive := fun x => x < 2 ^ 32) (Nat.xor_lt_two_pow hr hb) (fun _ h _ _ => crcBit_lt hp h)

/-- A CRC-32 fits its four bytes. -/
theorem crc32_lt (bs : List Byte) : crc32 bs < 2 ^ 32 := by
  refine Nat.xor_lt_two_pow (List.foldlRecOn _ _ (motive := fun x => x < 2 ^ 32) (by decide) ?_) (by decide)
  exact fun _ h b _ => crcByte_lt b (by decide) h

/-! ### Flits -/

/-- The header of a flit that a port builds (Table 12-5). -/
def flitHeader (x : Port) (ftype vc seq first : Nat) : Nat :=
  ftype + vc * 2 ^ 4 + seq * 2 ^ 6 + (x.rxSeq + 1023) % 1024 * 2 ^ 16 + b2n x.nakDue * 2 ^ 26
    + b2n x.rxSwap.isSome * 2 ^ 27 + x.cvc * 2 ^ 28 + x.rxFreed.getD x.cvc 0 % 512 * 2 ^ 30 + first * 2 ^ 39

theorem b2n_lt_two (b : Bool) : b2n b < 2 := by cases b <;> decide

/-- The header fits its eleven bytes, and its first fields stand in their bits. -/
theorem flitHeader_fields {x : Port} {ftype vc seq first : Nat} (ht : ftype < 16) (hv : vc < 4) (hs : seq < 1024) (hf : first < 256)
    (hc : x.cvc < 4) : let h := flitHeader x ftype vc seq first
    h < 2 ^ 88 ∧ bits h 3 0 = ftype ∧ bits h 5 4 = vc ∧ bits h 15 6 = seq := by
  have h1 := b2n_lt_two x.nakDue
  have h2 := b2n_lt_two x.rxSwap.isSome
  simp only [flitHeader, bits]
  generalize (x.rxSeq + 1023) = q
  generalize x.rxFreed.getD x.cvc 0 = f
  omega

/-- The bytes of a flit with a whole payload: header, payload and the CRC of both. -/
theorem leBytes_mkFlit {x : Port} {ftype vc seq first : Nat} {pl : List Byte} (hp : pl.length = 241) :
    let body := leBytes 11 (flitHeader x ftype vc seq first) ++ pl
    leBytes 256 (mkFlit x ftype vc seq first pl) = body ++ leBytes 4 (crc32 body) := by
  intro body
  have hm : mkFlit x ftype vc seq first pl = leNat (body ++ leBytes 4 (crc32 body)) := by
    simp [mkFlit, hp, body, flitHeader]
  have hl : 256 = (body ++ leBytes 4 (crc32 body)).length := by simp [body, hp]
  rw [hm]
  conv_lhs => rw [hl]
  exact leBytes_leNat _

end Sys2Proof.Machine

open Sys2Proof Sys2Proof.Machine

/-- Settles O38: the flit's 256 bytes are its header, its payload and its CRC, each read back at its place. -/
theorem flitsCarryTheirFields : Obligations.FlitsCarryTheirFields := by
  intro x ftype vc seq first pl ht hv hs hf hc hp bs
  obtain ⟨hlt, h1, h2, h3⟩ := flitHeader_fields ht hv hs hf hc
  have hb : bs = leBytes 11 (flitHeader x ftype vc seq first) ++ pl ++ leBytes 4 (crc32 (leBytes 11 (flitHeader x ftype vc seq first) ++ pl)) :=
    leBytes_mkFlit hp
  have hlen : (leBytes 11 (flitHeader x ftype vc seq first) ++ pl).length = 252 := by simp [hp]
  have hh : field bs 0 11 = flitHeader x ftype vc seq first := by
    rw [hb, List.append_assoc, field_append_left (length_leBytes _ _), leNat_leBytes]
    exact Nat.mod_eq_of_lt hlt
  refine ⟨?_, by rw [hh, h1], by rw [hh, h2], by rw [hh, h3], ?_⟩
  · rw [hb, List.take_left' hlen, field_append_right hlen (length_leBytes _ _), leNat_leBytes]
    exact (Nat.mod_eq_of_lt (crc32_lt _)).symm
  · rw [hb, List.append_assoc, List.drop_left' (length_leBytes _ _), List.take_left' hp]

end

section
/-! SUPPORT. Fingerprints (R454, R457): how blocks, their checks and the XOR of a range divide where the range is cut at whole blocks. -/

namespace Sys2Proof.Machine

open Sys2Proof

/-- A source cut after a whole number of blocks has the blocks of its two parts. -/
theorem inBlocks_append {n k : Nat} {xs ys : List Byte} (hn : 0 < n) (hx : xs.length = n * k) :
    inBlocks n (xs ++ ys) = inBlocks n xs ++ inBlocks n ys := by
  have hk : (xs.length + n - 1) / n = k := by
    rw [hx, Nat.add_sub_assoc hn, Nat.mul_add_div hn, Nat.div_eq_of_lt (by omega), Nat.add_zero]
  have hb : ((xs ++ ys).length + n - 1) / n = k + (ys.length + n - 1) / n := by
    rw [List.length_append, hx, Nat.add_assoc, Nat.add_sub_assoc (by omega), Nat.mul_add_div hn]
  unfold inBlocks
  rw [hk, hb, List.range_add, List.map_append, List.map_map]
  congr 1
  · refine List.map_congr_left fun j hj => ?_
    have hjk : n * j + n ≤ xs.length := by
      rw [hx]
      exact Nat.mul_le_mul_left n (List.mem_range.mp hj)
    rw [List.drop_append_of_le_length (by omega), List.take_append_of_le_length (by rw [List.length_drop]; omega)]
  · refine List.map_congr_left fun j _ => ?_
    have hd : n * (k + j) = xs.length + n * j := by rw [hx, Nat.mul_add]
    rw [Function.comp_apply, hd, List.drop_length_add_append]

/-- The checks of two groups of blocks: the second group's fold values go on where the first group's end. -/
theorem blockChecks_append (p : CheckParams) (fold : Nat → Option Nat) (bs cs : List (List Byte)) :
    blockChecks p fold (bs ++ cs) = blockChecks p fold bs ++ blockChecks p (fun k => fold (bs.length + k)) cs := by
  unfold blockChecks
  rw [List.zipIdx_append, List.map_append, Nat.zero_add, List.zipIdx_eq_map_add (l := cs) (i := bs.length), List.map_map]
  simp only [Function.comp_def, Nat.add_comm]

/-- The XOR of two lists of words is the XOR of theirs. -/
theorem foldl_xor_append (as bs : List Nat) :
    (as ++ bs).foldl (· ^^^ ·) 0 = as.foldl (· ^^^ ·) 0 ^^^ bs.foldl (· ^^^ ·) 0 := by
  rw [List.foldl_append, ← List.foldl_assoc (op := ((· ^^^ ·) : Nat → Nat → Nat)), Nat.xor_zero]

theorem length_inBlocks {n k : Nat} {xs : List Byte} (hn : 0 < n) (hx : xs.length = n * k) : (inBlocks n xs).length = k := by
  rw [inBlocks, List.length_map, List.length_range, hx, Nat.add_sub_assoc hn, Nat.mul_add_div hn, Nat.div_eq_of_lt (by omega), Nat.add_zero]

end Sys2Proof.Machine

open Sys2Proof Sys2Proof.Machine

/-- Settles O34: the blocks of the range are those of its two parts, and each is folded with its own address. -/
theorem fingerprintsCompose : Obligations.FingerprintsCompose := by
  intro a k xs ys hx
  have hfold : (fun j => some (a + 256 * ((inBlocks 256 xs).length + j))) = fun j => some (a + 256 * k + 256 * j) := by
    funext j
    rw [length_inBlocks (by decide) hx, Nat.mul_add, Nat.add_assoc]
  unfold fingerprint
  rw [inBlocks_append (by decide) hx, blockChecks_append, hfold, foldl_xor_append]

end

section
/-! SUPPORT. The configuration flash and its programming service (R468, R496, R510): what a range put into the flash reads as, and each
operation of the service. -/

namespace Sys2Proof.Machine

open Sys2Proof

/-! ### The flash -/

/-- A key that the first of two tables does not list reads as in the second. -/
theorem tget_append_of_absent_left {α : Type} (d : α) {k : Nat} {t u : Tbl α} (h : ∀ e ∈ t, e.1 ≠ k) : tget d (t ++ u) k = tget d u k := by
  induction t with
  | nil => rfl
  | cons e t ih =>
    rw [List.cons_append, tget, if_neg (h e (by simp))]
    exact ih fun e he => h e (by simp [he])

/-- A key that the second of two tables does not list reads as in the first. -/
theorem tget_append_of_absent_right {α : Type} (d : α) {k : Nat} {t u : Tbl α} (h : ∀ e ∈ u, e.1 ≠ k) : tget d (t ++ u) k = tget d t k := by
  induction t with
  | nil => exact tget_absent d k u h
  | cons e t ih => rw [List.cons_append, tget, tget, ih]

/-- Bytes laid out from `a` on read back, those that equal the unlisted value from their absence. -/
theorem tget_mapIdx_filter (d : Byte) (a k : Nat) (bs : List Byte) (h : k < bs.length) :
    tget d ((bs.mapIdx (fun j b => (a + j, b))).filter (fun c => c.2 != d)) (a + k) = bs.getD k d := by
  induction bs generalizing a k with
  | nil => exact absurd h (Nat.not_lt_zero k)
  | cons b bs ih =>
    have hshift : (b :: bs).mapIdx (fun j b => (a + j, b)) = (a, b) :: bs.mapIdx (fun j b => (a + 1 + j, b)) := by
      simp [List.mapIdx_cons, Nat.add_assoc, Nat.add_comm 1]
    rw [hshift, List.filter_cons]
    have hlater : ∀ e ∈ (bs.mapIdx (fun j b => (a + 1 + j, b))).filter (fun c => c.2 != d), e.1 ≠ a := fun e he => by
      have := ((mapIdx_rising (a + 1) bs).2 e (List.mem_of_mem_filter he)).1
      omega
    cases k with
    | zero =>
      split
      · simp [tget]
      · rename_i hb
        have hd : b = d := by simpa using hb
        exact (tget_absent d a _ hlater).trans hd.symm
    | succ k =>
      have hk : a + (k + 1) = a + 1 + k := by omega
      rw [hk, List.getD_cons_succ, ← ih (a + 1) k (by simpa using h)]
      split
      · rw [tget, if_neg (by omega)]
      · rfl

/-- What the flash reads after a range is put into it: the new bytes in the range, the old ones elsewhere (R468). -/
theorem tget_flashPut (s : State) (a x : Nat) (bs : List Byte) :
    tget 0xFF (flashPut s a bs).flash x = if a ≤ x ∧ x < a + bs.length then bs.getD (x - a) 0xFF else tget 0xFF s.flash x := by
  have hlow : ∀ e ∈ s.flash.filter (fun c => decide (c.1 < a)), e.1 < a := fun e he => by simpa using (List.mem_filter.mp he).2
  have hhigh : ∀ e ∈ s.flash.filter (fun c => decide (a + bs.length ≤ c.1)), a + bs.length ≤ e.1 := fun e he => by
    simpa using (List.mem_filter.mp he).2
  have hmid : ∀ e ∈ (bs.mapIdx (fun k b => (a + k, b))).filter (fun c => c.2 != 0xFF), a ≤ e.1 ∧ e.1 < a + bs.length := fun e he =>
    (mapIdx_rising a bs).2 e (List.mem_of_mem_filter he)
  unfold flashPut
  dsimp only
  by_cases hx : a ≤ x
  · rw [List.append_assoc, tget_append_of_absent_left _ fun e he => by have := hlow e he; omega]
    by_cases hy : x < a + bs.length
    · obtain ⟨k, rfl⟩ := Nat.exists_eq_add_of_le hx
      rw [if_pos ⟨hx, hy⟩, tget_append_of_absent_right _ fun e he => by have := hhigh e he; omega, Nat.add_sub_cancel_left]
      exact tget_mapIdx_filter 0xFF a k bs (by omega)
    · rw [if_neg (fun h => hy h.2), tget_append_of_absent_left _ fun e he => by have := hmid e he; omega,
        tget_filter 0xFF (fun k => decide (a + bs.length ≤ k)), if_pos (by simpa using Nat.not_lt.mp hy)]
  · rw [if_neg (fun h => hx h.1), tget_append_of_absent_right _ fun e he => by have := hhigh e he; omega,
      tget_append_of_absent_right _ fun e he => by have := hmid e he; omega, tget_filter 0xFF (fun k => decide (k < a)),
      if_pos (by simpa using hx)]

/-- An erased range reads 0xFF. -/
theorem tget_flashPut_erased (s : State) {a n x : Nat} (hl : a ≤ x) (hh : x < a + n) :
    tget 0xFF (flashPut s a (List.replicate n 0xFF)).flash x = 0xFF := by
  rw [tget_flashPut, List.length_replicate, if_pos ⟨hl, hh⟩]
  exact List.getD_replicate _ (by omega)

/-! ### The service -/

theorem exec_secFpdataWrite (v : Nat) (s : State) :
    exec (.secFpdataWrite v) s = answer s true (whenOpen s Reg.SEC_FPDATA (fpdataWrite s v)) := rfl
theorem exec_secFpdataRead (s : State) :
    exec .secFpdataRead s = answer s true (whenOpen s Reg.SEC_FPDATA ((fpdataRead s).2.readOut (fpdataRead s).1)) := rfl
theorem exec_flashErase (s : State) : exec .flashErase s = answer s true (whenOpen s Reg.SEC_FPCMD (fpCmd s 1)) := rfl
theorem exec_flashProgram (s : State) : exec .flashProgram s = answer s true (whenOpen s Reg.SEC_FPCMD (fpCmd s 2)) := rfl
theorem exec_flashOperationComplete (ok : Bool) (s : State) : exec (.flashOperationComplete ok) s = answer s true (flashDone s ok) := rfl

/-- An operation of the service starts in Open where the service may write and none runs. -/
theorem fpCmd_of_start {s : State} {n : Nat} (hn : n = 1 ∨ n = 2) (h0 : s.sec.st = 0) (hf : s.sec.flash = none) (hm : fpMay (fpAddr s) = true) :
    fpCmd s n = { s with sec := { s.sec with
      flash := some (n, fpAddr s, s.sec.page), fpErr := false, fpRefused := false, page := if n = 2 then [] else s.sec.page } } := by
  unfold fpCmd
  rw [if_neg (by omega), if_neg (by simp [hf, hm])]

/-- Elsewhere, or while one runs, it is refused. -/
theorem fpCmd_of_refused {s : State} {n : Nat} (hn : n = 1 ∨ n = 2) (h0 : s.sec.st = 0) (h : s.sec.flash.isSome = true ∨ fpMay (fpAddr s) = false) :
    fpCmd s n = { s with sec := { s.sec with fpRefused := true } } := by
  unfold fpCmd
  rw [if_neg (by omega), if_pos (by simpa using h)]

/-- What an operation that ends well puts into its range: 0xFF where it erases, else the page ANDed in (log entry 33). -/
theorem flashDone_true {s : State} {c a : Nat} {pg : List Byte} (hf : s.sec.flash = some (c, a, pg)) :
    flashDone s true = { flashPut s (fpRange c a).1 (if c = 1 then List.replicate (fpRange c a).2 0xFF else
      (flashAt s (fpRange c a).1 (fpRange c a).2).mapIdx (fun k x => x &&& pg.getD k 0xFF)) with sec := { s.sec with flash := none } } := by
  unfold flashDone
  rw [hf]
  rfl

/-- A program takes the page of 256 bytes. -/
theorem fpRange_of_page (a : Nat) : fpRange 2 a = (a / 256 * 256, 256) := rfl

/-- An erase in an image slot takes the whole sector. -/
theorem fpRange_of_sector {a : Nat} (ha : 0x800000 ≤ a) : fpRange 1 a = (a / 0x10000 * 0x10000, 0x10000) := by
  rw [fpRange, if_pos rfl, if_neg (Nat.not_lt.mpr ha)]

end Sys2Proof.Machine

open Sys2Proof Sys2Proof.Machine

/-- Settles O43, a clause for each operation of the service; that a range put in reads back is `tget_flashPut`. -/
theorem flashServiceProgramsAndErases : Obligations.FlashServiceProgramsAndErases := by
  refine ⟨fun v s ho h0 hp => ?write, fun s ho h0 => ?read, fun c n s hc ho h0 hf hm => ?start, fun c s hc ho h0 h => ?refused,
    fun a pg s h5 hf ha => ?erase, fun a pg s h5 hf => ?program, tget_flashPut⟩
  case write => rw [exec_secFpdataWrite, answer_open ho, fpdataWrite, if_pos ⟨h0, hp⟩]
  case read => rw [exec_secFpdataRead, answer_open ho, fpdataRead, if_pos h0]
  case start =>
    obtain ⟨rfl, rfl⟩ | ⟨rfl, rfl⟩ := hc
    · rw [exec_flashErase, answer_open ho, fpCmd_of_start (.inl rfl) h0 hf hm]
    · rw [exec_flashProgram, answer_open ho, fpCmd_of_start (.inr rfl) h0 hf hm]
  case refused =>
    obtain rfl | rfl := hc
    · rw [exec_flashErase, answer_open ho, fpCmd_of_refused (.inl rfl) h0 h]
    · rw [exec_flashProgram, answer_open ho, fpCmd_of_refused (.inr rfl) h0 h]
  case erase =>
    rw [exec_flashOperationComplete, answer_on h5, flashDone_true hf, fpRange_of_sector ha]
    exact ⟨_, rfl, rfl, fun x hl hh => congrArg (fun b => [b]) (tget_flashPut_erased s hl hh), rfl, rfl⟩
  case program =>
    rw [exec_flashOperationComplete, answer_on h5, flashDone_true hf, fpRange_of_page, if_neg (by decide)]

end

section
/-! SUPPORT. The security commands and tokens (R498, R499, R510 to R512, Table 16-11). -/

namespace Sys2Proof.Machine

open Sys2Proof

/-- A write of a register of the control die over a path, that no reason refuses and no commit holds (R544). -/
theorem rowAccess_ctlWrite {s : State} {path a v : Nat} (ha : a < 0x9000) (h5 : s.pwr.st ≠ 5) (h3 : s.rel.upd ≠ 3) (hb : pathBusy s path = false)
    (hr : accessReason s path a true = 0) (hf : a ≠ Reg.DBG_FDATA) (hl : (ctlWrite s path a v).mgmt.held.length ≤ s.mgmt.held.length) :
    rowAccess s path a v true = noteAnswer (ctlWrite s path a v) path 0 0 := by
  have hx : resolve s a = a := resolve_low s a (by omega)
  have hw : writeEffect s path a v = ctlWrite s path a v := if_pos ha
  rw [rowAccess_write h5 h3 hb hr (by rwa [hx]) (by rwa [hx, hw]), hx, hw]

/-! ### The commands -/

theorem exec_secNewNonce (s : State) : exec .secNewNonce s = answer s true (whenOpen s Reg.SEC_CMD (secStart s 1 0)) := rfl
theorem exec_secLeaveService (s : State) : exec .secLeaveService s = answer s true (whenOpen s Reg.SEC_CMD (secStart s 3 0)) := rfl
theorem exec_secAttest (s : State) : exec .secAttest s = answer s true (whenOpen s Reg.SEC_CMD (secStart s 4 0)) := rfl
theorem exec_secCertificate (s : State) : exec .secCertificate s = answer s true (whenOpen s Reg.SEC_CMD (secStart s 5 0)) := rfl
theorem exec_secEnrol (s : State) : exec .secEnrol s = answer s true (whenOpen s Reg.SEC_CMD (secStart s 6 0)) := rfl
theorem exec_secLoadToken (path : Nat) (s : State) :
    exec (.secLoadToken path) s = answer s (okPath path) (rowAccess s path Reg.SEC_CMD 2 true) := rfl
theorem exec_secCommandComplete (s : State) : exec .secCommandComplete s = answer s true (secDone s) := rfl
theorem exec_secTokdata (v : Nat) (s : State) : exec (.secTokdata v) s = answer s true (whenOpen s Reg.SEC_TOKDATA (tokData s v)) := rfl
theorem exec_serviceEnd (s : State) : exec .serviceEnd s = answer s true (if s.sec.st = 2 then endService s else s) := rfl

/-- A row of SEC_CMD and the code of Table 16-11 that it writes. -/
def secRow (c : Instr) (n : Nat) : Prop :=
  c = .secNewNonce ∧ n = 1 ∨ c = .secLeaveService ∧ n = 3 ∨ c = .secAttest ∧ n = 4 ∨ c = .secCertificate ∧ n = 5 ∨ c = .secEnrol ∧ n = 6

/-- A row of SEC_CMD writes its code. -/
theorem exec_secRow {c : Instr} {n : Nat} {s : State} (h : secRow c n) (ho : regOpen s Reg.SEC_CMD = true) :
    exec c s = .next (keepStraps s (secStart s n 0)) ∧ n ≠ 0 ∧ n ≤ 6 := by
  obtain ⟨rfl, rfl⟩ | ⟨rfl, rfl⟩ | ⟨rfl, rfl⟩ | ⟨rfl, rfl⟩ | ⟨rfl, rfl⟩ := h
  · exact ⟨by rw [exec_secNewNonce, answer_open ho], by decide, by decide⟩
  · exact ⟨by rw [exec_secLeaveService, answer_open ho], by decide, by decide⟩
  · exact ⟨by rw [exec_secAttest, answer_open ho], by decide, by decide⟩
  · exact ⟨by rw [exec_secCertificate, answer_open ho], by decide, by decide⟩
  · exact ⟨by rw [exec_secEnrol, answer_open ho], by decide, by decide⟩

/-- A code of Table 16-11 starts while no command runs. -/
theorem secStart_of_idle {s : State} {n path : Nat} (h0 : n ≠ 0) (h6 : n ≤ 6) (hr : s.sec.run = none) :
    secStart s n path = { s with sec := { s.sec with run := some (n, path) } } := by
  unfold secStart
  rw [if_neg (by omega), if_neg (by simp [hr])]

/-- While one runs it ends with result 0x08. -/
theorem secStart_of_running {s : State} {n path : Nat} (h0 : n ≠ 0) (h6 : n ≤ 6) (hr : s.sec.run.isSome = true) :
    secStart s n path = { s with sec := { s.sec with result := 8 } } := by
  unfold secStart
  rw [if_neg (by omega), if_pos hr]

/-- Drawing free bytes leaves the security state. -/
theorem freeBytes_sec (s : State) (n : Nat) : (s.freeBytes n).2.sec = s.sec := rfl

/-- NEW_NONCE takes a fresh nonce. -/
theorem secDone_newNonce {s : State} {path : Nat} (hr : s.sec.run = some (1, path)) (hw : secWrites s = []) :
    secDone s = { secEnd (s.freeBytes 8).2 0 with sec := { (secEnd (s.freeBytes 8).2 0).sec with nonce := leNat (s.freeBytes 8).1, nonceOk := true } } := by
  simp [secDone, hr, hw]

/-- LOAD_TOKEN judges a whole token in the buffer. -/
theorem secDone_loadToken {s : State} {path : Nat} (hr : s.sec.run = some (2, path)) (hw : secWrites s = []) (h0 : s.sec.st ≠ 0)
    (hn : s.sec.noid = false) (hl : s.sec.token.length = 1600) : secDone s = loadToken s path s.sec.token := by
  simp [secDone, hr, hw, h0, hn, hl]

/-- LEAVE_SERVICE ends Service. -/
theorem secDone_leaveService {s : State} {path : Nat} (hr : s.sec.run = some (3, path)) (hw : secWrites s = []) (h2 : s.sec.st = 2) :
    secDone s = secEnd (endService s) 0 := by
  simp [secDone, hr, hw, h2]

/-- The codes 2, 4 and 5 end with 0x06 in Open. -/
theorem secDone_of_open {s : State} {n path : Nat} (hr : s.sec.run = some (n, path)) (hw : secWrites s = []) (hn : n = 2 ∨ n = 4 ∨ n = 5)
    (h0 : s.sec.st = 0) : secDone s = secEnd s 6 := by
  obtain rfl | rfl | rfl := hn
  · simp [secDone, hr, hw, h0]
  · cases hs : s.sec.seed <;> simp [secDone, hr, hw, h0, hs]
  · simp [secDone, hr, hw, h0]

/-- Below Intrude, Service ends in Sealed and leaves the debug level. -/
theorem endService_of_low {s : State} (h : s.dbg.level ≠ 2) : endService s = { s with sec := { s.sec with st := 1 } } := if_neg h

/-! ### Tokens -/

/-- What a token with a given result leaves: an accepted one opens Service, a rejected one its result alone (R498). -/
theorem loadToken_of_result {s : State} {path r : Nat} {used : Bool} {t : List Byte} (h : tokenResult s t = (r, used)) :
    (loadToken s path t).sec = if r ≠ 0 then { s.sec with run := none, result := r, nonceOk := s.sec.nonceOk && !used, token := [] }
      else { s.sec with
        run := none, result := r, nonceOk := s.sec.nonceOk && !used, token := [], st := 2, sessPath := path
        sessLevel := field t 32 1, sessEnd := s.devTime + field t 36 4 * 10 ^ 9 } := by
  unfold loadToken
  rw [h]
  dsimp only
  split <;> rfl

/-- What an accepted token carries: this device, this nonce, a level and a duration in their ranges (R498). -/
theorem accepted_of_tokenResult {s : State} {t : List Byte} (h : (tokenResult s t).1 = 0) :
    s.sec.nonceOk = true ∧ field t 24 8 = s.sec.nonce ∧ (t.drop 8).take 16 = s.sec.devid ∧ (field t 32 1 = 1 ∨ field t 32 1 = 2) ∧
      1 ≤ field t 36 4 ∧ field t 36 4 ≤ 86400 := by
  unfold tokenResult at h
  dsimp only at h
  split_ifs at h with hm hd hn hf
  simp only [Bool.or_eq_true, Bool.not_eq_true', bne_iff_ne, ne_eq, not_or, Bool.not_eq_false, not_not] at hn
  exact ⟨hn.1, hn.2, not_not.mp hd, by omega, by omega, by omega⟩

end Sys2Proof.Machine

open Sys2Proof Sys2Proof.Machine

/-- Settles O42, a clause for each command, for the token buffer, and for what a token's result leaves. -/
theorem securityCommandsAndTokens : Obligations.SecurityCommandsAndTokens := by
  refine ⟨fun c n s ho hc hr => ?start, fun c s ho hc hr => ?busy, fun path s h1 hp h5 h3 hb hr h0 => ?startLoad,
    fun path s h5 hr hw => ?nonce, fun path s h5 hr hw h0 hn hl => ?load, fun path s h5 hr hw h2 => ?leave,
    fun n path s h5 hr hw h2 hn h3 h0 => ?inOpen, fun v s ho hl => ?token, fun v s ho hl => ?full, fun s h5 h2 hd => ?time,
    fun s path t h => ?accepted, fun s path r used t h h0 => ?rejected, fun s t => accepted_of_tokenResult⟩
  case start =>
    obtain ⟨he, h0, h6⟩ := exec_secRow hc ho
    rw [he, secStart_of_idle h0 h6 hr]
  case busy =>
    have hn : ∃ n, secRow c n := by
      obtain rfl | rfl | rfl | rfl | rfl := hc <;> simp [secRow]
    obtain ⟨n, hn⟩ := hn
    obtain ⟨he, h0, h6⟩ := exec_secRow hn ho
    rw [he, secStart_of_running h0 h6 hr]
  case startLoad =>
    have hw : ctlWrite s path Reg.SEC_CMD 2 = secStart s 2 path := rfl
    rw [secStart_of_idle (by decide) (by decide) h0] at hw
    rw [exec_secLoadToken, okPath_of_range h1 hp, answer_on h5, rowAccess_ctlWrite (by decide) h5 h3 hb hr (by decide) (by rw [hw]), hw]
  case nonce =>
    rw [exec_secCommandComplete, answer_on h5, secDone_newNonce hr hw]
    have hs : (s.freeBytes 8).2.sec.st = s.sec.st := congrArg Sec.st (freeBytes_sec s 8)
    generalize s.freeBytes 8 = drawn at hs ⊢
    exact ⟨_, rfl, rfl, rfl, rfl, rfl, hs⟩
  case load => rw [exec_secCommandComplete, answer_on h5, secDone_loadToken hr hw h0 hn hl]
  case leave => rw [exec_secCommandComplete, answer_on h5, secDone_leaveService hr hw h2]
  case inOpen => rw [exec_secCommandComplete, answer_on h5, secDone_of_open hr hw (by omega) h0]
  case token => rw [exec_secTokdata, answer_open ho, tokData, if_pos hl]
  case full => rw [exec_secTokdata, answer_open ho, tokData, if_neg (Nat.not_lt.mpr hl)]
  case time => rw [exec_serviceEnd, answer_on h5, if_pos h2, endService_of_low hd]
  case accepted =>
    dsimp only
    rw [loadToken_of_result h, if_neg (by decide)]
    exact ⟨rfl, rfl, rfl, rfl, by simp, rfl⟩
  case rejected =>
    rw [loadToken_of_result h, if_pos h0]
    exact ⟨rfl, rfl⟩

end

section
/-! SUPPORT. Power requests, transitions and junction readings (R505 to R507, Tables 16-5 to 16-7). -/

namespace Sys2Proof.Machine

open Sys2Proof

theorem exec_pwrReq (v : Nat) (s : State) : exec (.pwrReq v) s = answer s true (whenOpen s Reg.PWR_REQ (settle (pwrReq s v))) := rfl
theorem exec_powerTransitionDone (s : State) : exec .powerTransitionDone s = answer s true (settle (powerDone s)) := rfl
theorem exec_junctionSensorRead (b temp : Nat) (s : State) :
    exec (.junctionSensorRead b temp) s = answer s (okBay b) (junction s b temp) := rfl

/-- A request is held while a transition runs. -/
theorem pwrReq_of_moving {s : State} (v : Nat) (h : s.pwr.moving = true) :
    pwrReq s v = { s with pwr := { s.pwr with heldReq := some (v % 8) } } := if_pos h

/-- Else it is taken from the state reached. -/
theorem pwrReq_of_still {s : State} (v : Nat) (h : s.pwr.moving = false) : pwrReq s v = takePower s (v % 8) := if_neg (by simp [h])

/-- A request outside 0 to 5 is refused. -/
theorem takePower_of_reserved {s : State} {t : Nat} (h : 5 < t) :
    takePower s t = { s with pwr := { s.pwr with refused := true, moving := false } } := if_pos (.inl h)

/-- Outside Open a request for another state that no rule refuses begins its transition. -/
theorem takePower_of_begins {s : State} {t : Nat} (h5 : t ≤ 5) (h0 : s.sec.st ≠ 0) (h4 : ¬ (s.pwr.st = 4 ∧ (t = 2 ∨ t = 3))) (hne : t ≠ s.pwr.st) :
    takePower s t = powerBegins { s with pwr := { s.pwr with refused := false, target := t, moving := true } } := by
  have hm : (t != s.pwr.st) = true := by simpa using hne
  unfold takePower
  rw [if_neg (by omega), hm]
  exact if_neg hne

/-- The array clocks that a power state asks for leave the power state. -/
theorem requestClocks_pwr (s : State) : (requestClocks s).pwr = s.pwr := by
  obtain ⟨bs, h⟩ := requestClocks_bays s
  rw [h]

/-- The end of the transition from P0 to P1. -/
theorem powerDone_to_P1 {s : State} (h0 : s.pwr.st = 0) (hm : s.pwr.moving = true) (ht : s.pwr.target = 1) (hh : s.pwr.heldReq = none) :
    powerDone s = requestClocks { s with pwr := { s.pwr with st := 1, moving := false } } := by
  have hn : nextPower s.pwr.st s.pwr.target = 1 := by rw [h0, ht]; rfl
  have hend : powerMayEnd s 1 = true := by simp [powerMayEnd, h0]
  unfold powerDone
  dsimp only
  rw [hn, hm, hend, if_neg (by decide), if_neg (by decide), if_neg (by decide)]
  simp [requestClocks_pwr, hh, h0, ht]

/-- The end of a transition to P5. -/
theorem powerDone_to_P5 {s : State} (hm : s.pwr.moving = true) (ht : s.pwr.target = 5) : powerDone s = enterP5 s := by
  have hn : nextPower s.pwr.st s.pwr.target = 5 := by rw [ht]; simp [nextPower]
  have hend : powerMayEnd s 5 = true := by simp [powerMayEnd]
  simp [powerDone, hn, hm, hend]

/-- The same change of a bay by two functions that agree on it. -/
theorem modBay_congr {s : State} {b : Nat} {f g : Bay → Bay} (h : f (s.bay b) = g (s.bay b)) : s.modBay b f = s.modBay b g := by
  unfold State.modBay
  rw [h]

/-- A junction at 110 °C trips the device (Table 16-7). -/
theorem junction_of_hot {s : State} {temp : Nat} (b : Nat) (h5 : s.pwr.st ≠ 5) (hb : s.baysOn = true) (ht : 110 ≤ temp) :
    junction s b temp = thermalTrip s := by
  unfold junction
  rw [if_neg (by simp [hb, h5]), if_pos ht]

/-- A junction below 97 °C of a bay at its full clock is shown and no more. -/
theorem junction_of_cool {s : State} {b temp : Nat} (h5 : s.pwr.st ≠ 5) (hb : s.baysOn = true) (ht : temp < 97) (hc : (s.bay b).clkJct = 7)
    (hh : (s.bay b).jctHot = false) : junction s b temp = (s.setField (tjReg b) (8 * (b % 4) + 7) (8 * (b % 4)) temp).modBay b
      (fun x => { x with jctHot := false }) := by
  have hx : (s.setField (tjReg b) (8 * (b % 4) + 7) (8 * (b % 4)) temp).bay b = s.bay b := rfl
  unfold junction
  rw [if_neg (by simp [hb, h5]), if_neg (by omega)]
  dsimp only
  rw [hx]
  have h1 : decide (100 ≤ temp) = false := decide_eq_false (by omega)
  simp only [hc, hh, h1, Bool.false_and, Bool.or_self, Bool.false_eq_true, if_false, Bool.not_false, Nat.lt_irrefl, decide_false, Bool.and_false]
  refine modBay_congr ?_
  rw [hx, hc]

end Sys2Proof.Machine

open Sys2Proof Sys2Proof.Machine

/-- Settles O45, a clause for each case of a request, of a transition's end and of a reading. -/
theorem powerTransitions : Obligations.PowerTransitions := by
  refine ⟨fun v s ho hm => ?held, fun v s ho hm h => ?reserved, fun v s ho hm h5 h0 h4 hne => ?taken, fun s h0 hm ht hh => ?toP1,
    fun s h5 hm ht => ?toP5, fun b temp s hb h5 hon ht => ?hot, fun b temp s hb h5 hon ht hc hh => ?cool⟩
  case held =>
    rw [exec_pwrReq, answer_open ho, pwrReq_of_moving v hm]
    rfl
  case reserved =>
    rw [exec_pwrReq, answer_open ho, pwrReq_of_still v hm, takePower_of_reserved h]
    rfl
  case taken =>
    rw [exec_pwrReq, answer_open ho, pwrReq_of_still v hm, takePower_of_begins h5 h0 h4 hne]
    rfl
  case toP1 =>
    rw [exec_powerTransitionDone, answer_on (by omega), powerDone_to_P1 h0 hm ht hh]
    rfl
  case toP5 =>
    rw [exec_powerTransitionDone, answer_on h5, powerDone_to_P5 hm ht]
    rfl
  case hot => rw [exec_junctionSensorRead, okBay_of_lt hb, answer_on h5, junction_of_hot b h5 hon ht]
  case cool => rw [exec_junctionSensorRead, okBay_of_lt hb, answer_on h5, junction_of_cool h5 hon ht hc hh]

end

section
/-! SUPPORT. Debug levels, halts, memory access, forces, trace and EXTEST (R500 to R504, R513). -/

namespace Sys2Proof.Machine

open Sys2Proof

theorem exec_dbgReq (path v : Nat) (s : State) :
    exec (.dbgReq path v) s = answer s (okPath path) (rowAccess s path Reg.DBG_REQ v true) := rfl
theorem exec_dbgMdataRead (path : Nat) (s : State) :
    exec (.dbgMdataRead path) s = answer s (okPath path) (rowAccess s path Reg.DBG_MDATA 0 false) := rfl
theorem exec_dbgMdataWrite (path v : Nat) (s : State) :
    exec (.dbgMdataWrite path v) s = answer s (okPath path) (settle (rowAccess s path Reg.DBG_MDATA v true)) := rfl
theorem exec_dbgFdata (path v : Nat) (s : State) :
    exec (.dbgFdata path v) s = answer s (decide (okPath path ∧ v < 2 ^ 32)) (settle (rowAccess s path Reg.DBG_FDATA v true)) := rfl
theorem exec_dbgTrcdataRead (path : Nat) (s : State) :
    exec (.dbgTrcdataRead path) s = answer s (okPath path) (rowAccess s path Reg.DBG_TRCDATA 0 false) := rfl
theorem exec_extest (drive : Nat) (s : State) : exec (.extest drive) s = answer s true
    (if holdsLevel s 3 2 && s.sec.st != 1 && s.pwr.st == 4 then { s with dbg := { s.dbg with extest := some drive } } else s) := rfl

/-- A level that nothing refuses is granted to its path (R500). -/
theorem dbgReq_of_granted {s : State} {path v : Nat} (hv : v % 4 = 1 ∨ v % 4 = 2) (hr : dbgRefusal s path (v % 4) = 0) :
    dbgReq s path v = { s with
      dbg := { s.dbg with lastRes := 0, level := v % 4, path }
      sec := if v % 4 = 2 then { s.sec with intruded := true } else s.sec } := by
  unfold dbgReq
  dsimp only
  rw [if_neg (by omega), hr, if_neg (by decide), if_neg (by omega)]

/-- A refused request leaves its reason alone. -/
theorem dbgReq_of_refused {s : State} {path v : Nat} (hv : v % 4 ≠ 3) (hr : dbgRefusal s path (v % 4) ≠ 0) :
    dbgReq s path v = { s with dbg := { s.dbg with lastRes := dbgRefusal s path (v % 4) } } := by
  unfold dbgReq
  dsimp only
  rw [if_neg hv, if_pos hr]

/-- A row of DBG_HALT and the action that it writes. -/
def haltRow (c : Instr) (path v act : Nat) : Prop :=
  c = .halt path v ∧ act = 1 ∨ c = .resume path v ∧ act = 2 ∨ c = .step path v ∧ act = 3

/-- A row of DBG_HALT is a write of its pane and its action. -/
theorem exec_haltRow {c : Instr} {path v act : Nat} {s : State} (h : haltRow c path v act) : exec c s =
    answer s (okPath path) (settle (rowAccess s path Reg.DBG_HALT (v % 128 + act * 2 ^ 8) true)) ∧ 1 ≤ act ∧ act ≤ 3 := by
  obtain ⟨rfl, rfl⟩ | ⟨rfl, rfl⟩ | ⟨rfl, rfl⟩ := h
  · exact ⟨rfl, by decide, by decide⟩
  · exact ⟨rfl, by decide, by decide⟩
  · exact ⟨rfl, by decide, by decide⟩

/-- What an action does to a pane: halt, resume, or step a halted one (R502). -/
def haltedPane (act : Nat) (p : Pane) : Pane :=
  if act = 1 then { p with halted := true } else if act = 2 then { p with halted := false, stepping := false }
    else if p.halted then { p with stepping := true } else p

/-- Where a path may halt, an action reaches a pane that runs a task of a queue. -/
theorem dbgHalt_of_running {s : State} {path n act i : Nat} (hm : mayHalt s path = true) (hi : s.instOf n = some i)
    (ht : (s.pane i).task.isSome = true) (hc : (s.pane i).ctx ≠ 0) (ha : 1 ≤ act ∧ act ≤ 3) :
    dbgHalt s path n act = s.modPane i (haltedPane act) := by
  have hn : ((s.pane i).task.isNone || (s.pane i).ctx == 0) = false := by
    simp [hc, ht]
  unfold dbgHalt
  simp only [hm, hi, hn, Bool.not_true, Bool.false_eq_true, if_false]
  obtain rfl | rfl | rfl : act = 1 ∨ act = 2 ∨ act = 3 := by omega
  all_goals rfl

/-- A read of DBG_MDATA at Intrude whose line has come answers with it, and the address moves on (R503). -/
theorem mdataRead_of_came {s s1 : State} {path : Nat} {bs : List Byte} (hh : holdsLevel s path 2 = true)
    (hr : runMc (sysRead dbgWho (maddr s) 4)
      { s with accs := s.accs.filter (fun a => !(a.purpose == .fetch dbgWho && a.va / 64 != localPa (maddr s) / 64)) } = (.ok bs, s1)) :
    mdataRead s path = (some (leNat bs), maddrNext (dropNeeds s1 dbgWho)) := by
  have hm : ∀ l, maddr { s with accs := l } = maddr s := fun _ => rfl
  unfold mdataRead
  simp only [hh, hm, hr, Bool.not_true, Bool.false_eq_true, if_false]

/-- A read of a register of the control die over a path, that no reason refuses. -/
theorem rowAccess_lowRead {s t : State} {path a v : Nat} (ha : a < 0x04000000) (h5 : s.pwr.st ≠ 5) (h3 : s.rel.upd ≠ 3)
    (hb : pathBusy s path = false) (hr : accessReason s path a false = 0) (he : readEffect s path a = (some v, t)) :
    rowAccess s path a 0 false = (noteAnswer t path 0 v).readOut v :=
  rowAccess_read h5 h3 hb hr (by rwa [resolve_low s a ha])

theorem readEffect_mdata (s : State) (path : Nat) : readEffect s path Reg.DBG_MDATA = mdataRead s path := rfl
theorem readEffect_trcdata (s : State) (path : Nat) : readEffect s path Reg.DBG_TRCDATA = (some (trcdataRead s).1, (trcdataRead s).2) := rfl

/-- A write of DBG_MDATA at Intrude is posted and, inside the memory map, logged (R503). -/
theorem mdataWrite_of_held {s : State} {path v : Nat} (hh : holdsLevel s path 2 = true) : mdataWrite s path v =
    maddrNext (if outOfMap s (localPa (maddr s)) then sysPost s dbgWho (maddr s) (leBytes 4 v)
      else logE (sysPost s dbgWho (maddr s) (leBytes 4 v)) 0x14 8 0 (maddr s) 0 v) :=
  if_neg (by simp [hh])

/-- A register force that no reason refuses, and that no commit holds, has its effect and is answered with reason 0. -/
theorem rowAccess_force {s : State} {path v : Nat} (h5 : s.pwr.st ≠ 5) (h3 : s.rel.upd ≠ 3) (hb : pathBusy s path = false)
    (hr : accessReason s path Reg.DBG_FDATA true = 0) (hl : (force s path v).mgmt.held.length ≤ s.mgmt.held.length) :
    rowAccess s path Reg.DBG_FDATA v true = noteAnswer (force s path v) path 0 0 := by
  have hx : resolve s Reg.DBG_FDATA = Reg.DBG_FDATA := resolve_low s _ (by decide)
  unfold rowAccess
  rw [if_neg (by simp [h3])]
  unfold pathAccess
  rw [if_neg (by simp [h5, hb]), if_neg h3, if_pos rfl]
  unfold pathWrite serveWrite
  simp only [hr, hx, ne_eq, not_true, if_false, if_true, not_lt.mpr hl]

end Sys2Proof.Machine

open Sys2Proof Sys2Proof.Machine

/-- Settles O44, a clause for each access: each is its register's access over a path, with the effect of that register. -/
theorem debugAccess : Obligations.DebugAccess := by
  refine ⟨fun path v s h1 hp h5 h3 hb hr hv hd => ?granted, fun path v s h1 hp h5 h3 hb hr hv hd => ?refused,
    fun c path v act i s h1 hp h5 h3 hb hc hr hm hi ht hx => ?halts, fun path bs s s1 h1 hp h5 h3 hb hr hh => ?mread,
    fun path v s h1 hp h5 h3 hb hv hr hh => ?mwrite, fun path v s h1 hp h5 h3 hb hv hr hl => ?forces,
    fun path s h1 hp h5 h3 hb hr => ?trace, fun drive s h4 hh h1 => ?extest⟩
  case granted =>
    have hw : ctlWrite s path Reg.DBG_REQ v = dbgReq s path v := rfl
    rw [dbgReq_of_granted hv hd] at hw
    rw [exec_dbgReq, okPath_of_range h1 hp, answer_on h5, rowAccess_ctlWrite (by decide) h5 h3 hb hr (by decide) (by rw [hw]), hw]
  case refused =>
    have hw : ctlWrite s path Reg.DBG_REQ v = dbgReq s path v := rfl
    rw [dbgReq_of_refused hv hd] at hw
    rw [exec_dbgReq, okPath_of_range h1 hp, answer_on h5, rowAccess_ctlWrite (by decide) h5 h3 hb hr (by decide) (by rw [hw]), hw]
  case halts =>
    obtain ⟨he, ha⟩ := exec_haltRow (s := s) hc
    have hn : (v % 128 + act * 2 ^ 8) % 128 = v % 128 := by omega
    have hact : bits (v % 128 + act * 2 ^ 8) 9 8 = act := by simp only [bits]; omega
    have hw : ctlWrite s path Reg.DBG_HALT (v % 128 + act * 2 ^ 8) =
      dbgHalt s path ((v % 128 + act * 2 ^ 8) % 128) (bits (v % 128 + act * 2 ^ 8) 9 8) := rfl
    rw [hn, hact, dbgHalt_of_running hm hi ht hx ha] at hw
    rw [he, okPath_of_range h1 hp, answer_on h5, rowAccess_ctlWrite (by decide) h5 h3 hb hr (by decide) (by rw [hw]; exact Nat.le_refl _), hw]
    rfl
  case mread =>
    intro s0 hrun
    rw [exec_dbgMdataRead, okPath_of_range h1 hp, answer_on h5,
      rowAccess_lowRead (by decide) h5 h3 hb hr ((readEffect_mdata s path).trans (mdataRead_of_came hh hrun))]
  case mwrite =>
    intro s2 s3 hl
    have hw : ctlWrite s path Reg.DBG_MDATA v = mdataWrite s path v := rfl
    rw [mdataWrite_of_held hh] at hw
    rw [exec_dbgMdataWrite, okPath_of_range h1 hp, answer_on h5,
      rowAccess_ctlWrite (by decide) h5 h3 hb hr (by decide) (by rw [hw]; exact hl), hw]
    rfl
  case forces =>
    rw [exec_dbgFdata, decide_eq_true (by exact ⟨okPath_of_range h1 hp, hv⟩), answer_on h5, rowAccess_force h5 h3 hb hr hl]
    rfl
  case trace =>
    rw [exec_dbgTrcdataRead, okPath_of_range h1 hp, answer_on h5, rowAccess_lowRead (by decide) h5 h3 hb hr (readEffect_trcdata s path)]
    rfl
  case extest =>
    rw [exec_extest, answer_on (by omega), if_pos (by simp [hh, h1, h4])]

end

section
/-! SUPPORT. Management accesses over the paths (R543 to R551, R575), the log (R526, R537) and the interrupt registers (R441, R442). -/

namespace Sys2Proof.Machine

open Sys2Proof

/-! ### Accesses -/

theorem exec_dbgacc (a v : Nat) (wr : Bool) (s : State) :
    exec (.dbgacc a v wr) s = answer s (decide (a < 2 ^ 32 ∧ v < 2 ^ 32)) (settle (rowAccess s 3 a v wr)) := rfl
theorem exec_smbusTimeout (a : Nat) (wr : Bool) (s : State) :
    exec (.smbusTimeout a wr) s = answer s (decide (a < 2 ^ 32)) (smbusTimeout s a wr) := rfl
theorem exec_ctlTimeLoRead (path : Nat) (s : State) :
    exec (.ctlTimeLoRead path) s = answer s (okPath path) (rowAccess s path Reg.CTL_TIME_LO 0 false) := rfl
theorem exec_logDataRead (s : State) :
    exec .logDataRead s = answer s true (if logOpen s then (logDataRead s).2.readOut (logDataRead s).1 else s) := rfl
theorem exec_mgrd (f : Nat) (s : State) : exec (.mgrd f) s = answer s (decide (f < 2)) (settle (mgrd s f)) := rfl
theorem exec_mgwr (f : Nat) (s : State) : exec (.mgwr f) s = answer s (decide (f < 2)) (settle (mgwr s f)) := rfl
theorem exec_flxMsictlWrite (vec v : Nat) (s : State) : exec (.flxMsictlWrite vec v) s =
    answer s (decide (vec ≤ 50)) (whenOpen s (Reg.FLX_MSICTL vec) (msictlWrite s vec v)) := rfl
theorem exec_ctlIrqtest (v : Nat) (s : State) :
    exec (.ctlIrqtest v) s = answer s true (whenOpen s Reg.CTL_IRQTEST (irqTest s v)) := rfl

/-- The data operand of a read has no effect. -/
theorem rowAccess_read_operand {s : State} {path a v : Nat} (h3 : s.rel.upd ≠ 3) : rowAccess s path a v false = rowAccess s path a 0 false := by
  unfold rowAccess pathAccess
  simp only [h3, if_false, Bool.false_eq_true]

/-- A refused read is recorded and answered with its reason (R546). -/
theorem rowAccess_read_refused {s : State} {path a v : Nat} (h5 : s.pwr.st ≠ 5) (h3 : s.rel.upd ≠ 3) (hb : pathBusy s path = false)
    (hr : accessReason s path a false ≠ 0) : rowAccess s path a v false =
      (noteAnswer (refuseAccess s path a (accessReason s path a false) false) path (accessReason s path a false)
        (0xE0000000 + accessReason s path a false)).readOut (0xE0000000 + accessReason s path a false) := by
  unfold rowAccess
  rw [if_neg (by simp [h3])]
  unfold pathAccess
  rw [if_neg (by simp [h5, hb]), if_neg h3, if_neg (by decide)]
  unfold pathRead serveRead
  simp only [hr, ne_eq, not_false_iff, if_true]

/-- The rows that write a register over a path. -/
theorem exec_pathWrite {c : Instr} {path a v : Nat} (s : State) (ha : a < 2 ^ 32) (hv : v < 2 ^ 32)
    (hc : c = .smbusWrite a v ∧ path = 1 ∨ c = .dbgacc a v true ∧ path = 3 ∨ c = .registerWrite path a v ∧ 1 ≤ path ∧ path ≤ 3) :
    exec c s = answer s true (settle (rowAccess s path a v true)) := by
  obtain ⟨rfl, rfl⟩ | ⟨rfl, rfl⟩ | ⟨rfl, h1, hp⟩ := hc
  · rw [exec_smbusWrite, decide_eq_true (by exact ⟨ha, hv⟩)]
  · rw [exec_dbgacc, decide_eq_true (by exact ⟨ha, hv⟩)]
  · rw [exec_registerWrite, decide_eq_true (by exact ⟨okPath_of_range h1 hp, ha, hv⟩)]

/-- A read of CTL_TIME_LO latches the high half for its path (R551). -/
theorem readEffect_timeLo (s : State) (path : Nat) :
    readEffect s path Reg.CTL_TIME_LO = (some (timeLoRead s path).1, (timeLoRead s path).2) := rfl

/-- An SMBus write that has been held too long is refused with reason 7 (R545). -/
theorem smbusTimeout_of_held {s : State} {a : Nat} (hw : s.mgmt.waiting = [])
    (hh : s.mgmt.held.any (fun h => h.path == 1 && h.addr == a) = true) :
    smbusTimeout s a true = noteAnswer (refuseAccess { s with mgmt := { s.mgmt with
      held := eraseFirst (fun h => true && h.path == 1 && h.addr == a) s.mgmt.held } } 1 a 7 true) 1 7 0 := by
  unfold smbusTimeout
  dsimp only
  rw [if_neg (by simp [hw]), if_pos (by simpa using hh)]
  rfl

/-! ### Messages of the companion -/

/-- A management message of the companion that nothing holds up is served (R438). -/
theorem hostAccess_of_taken {s s1 : State} {f t : Nat} {m : List Byte} {serve : List Byte → State → State} (h5 : s.pwr.st ≠ 5)
    (h3 : s.rel.upd ≠ 3) (hb : pathBusy s 2 = false) (hw : hostWritesDone s f = true) (ht : takeHost s f t = some (m, s1)) :
    hostAccess s f t serve = serve m s1 := by
  unfold hostAccess
  rw [ht]
  exact if_neg (by simp [h5, h3, hb, hw])

/-- A read that no reason refuses delivers its register. -/
theorem serveRead_of_served {s t : State} {path a v : Nat} (hr : accessReason s path a false = 0)
    (he : readEffect s path (resolve s a) = (some v, t)) : serveRead s path a = (some (0, v), t) := by
  unfold serveRead
  simp only [hr, ne_eq, not_true, if_false, he]

/-- A write that no reason refuses and no commit holds has its effect. -/
theorem serveWrite_of_served {s : State} {path a v : Nat} (msg : Option (Nat × List Byte)) (hr : accessReason s path a true = 0)
    (hf : resolve s a ≠ Reg.DBG_FDATA) (hl : (writeEffect s path (resolve s a) v).mgmt.held.length ≤ s.mgmt.held.length) :
    serveWrite s path a v msg = (some 0, writeEffect s path (resolve s a) v) := by
  unfold serveWrite
  simp only [hr, ne_eq, not_true, if_false, hf, not_lt.mpr hl]

theorem countEarly_zero (s : State) (f : Nat) : countEarly s f 0 = s := rfl

/-- MGRD of a register that is served is answered with its value. -/
theorem mgrd_of_served {s s1 s2 : State} {f v : Nat} {m : List Byte} (h5 : s.pwr.st ≠ 5) (h3 : s.rel.upd ≠ 3) (hb : pathBusy s 2 = false)
    (hw : hostWritesDone s f = true) (ht : takeHost s f 0x2A = some (m, s1)) (hr : accessReason s1 2 (field (mBody m) 0 4) false = 0)
    (he : readEffect s1 2 (resolve s1 (field (mBody m) 0 4)) = (some v, s2)) : mgrd s f = mgrsp (noteAnswer s2 2 0 v) f m 0 (some v) := by
  unfold mgrd
  rw [hostAccess_of_taken h5 h3 hb hw ht, serveRead_of_served hr he]
  rfl

/-- MGWR that is served, and that leaves the device ready, is answered. -/
theorem mgwr_of_served {s s1 : State} {f : Nat} {m : List Byte} (h5 : s.pwr.st ≠ 5) (h3 : s.rel.upd ≠ 3) (hb : pathBusy s 2 = false)
    (hw : hostWritesDone s f = true) (ht : takeHost s f 0x2B = some (m, s1)) (hr : accessReason s1 2 (field (mBody m) 0 4) true = 0)
    (hf : resolve s1 (field (mBody m) 0 4) ≠ Reg.DBG_FDATA)
    (hl : (writeEffect s1 2 (resolve s1 (field (mBody m) 0 4)) (field (mBody m) 4 4)).mgmt.held.length ≤ s1.mgmt.held.length)
    (hrdy : (writeEffect s1 2 (resolve s1 (field (mBody m) 0 4)) (field (mBody m) 4 4)).boot.ready = true) :
    mgwr s f = answerWrite (writeEffect s1 2 (resolve s1 (field (mBody m) 0 4)) (field (mBody m) 4 4)) 2 0 (some (f, m)) := by
  unfold mgwr
  rw [hostAccess_of_taken h5 h3 hb hw ht, serveWrite_of_served _ hr hf hl]
  dsimp only
  rw [hrdy, countEarly_zero]
  rfl

/-! ### Interrupts and the log -/

/-- A message to the companion adds an access, and changes nothing else that a register or the log shows. -/
theorem sendHost_only (s : State) (b vc : Nat) (m : List Byte) :
    (s.sendHost b vc m).regs = s.regs ∧ (s.sendHost b vc m).rel = s.rel ∧ (s.sendHost b vc m).ports = s.ports ∧ (s.sendHost b vc m).bays = s.bays := by
  unfold State.sendHost
  split <;> exact ⟨rfl, rfl, rfl, rfl⟩

/-- An MSI leaves the log. -/
theorem sendMsi_rel (s : State) (v : Nat) : (sendMsi s v).rel = s.rel := by
  unfold sendMsi
  generalize (if v < 48 then v % 16 else 0) = b
  dsimp only
  split
  · exact (sendHost_only s b 0 _).2.1
  · rfl

/-- So does an interrupt. -/
theorem raiseIrq_rel (s : State) (v : Nat) : (raiseIrq s v).rel = s.rel := by
  unfold raiseIrq
  split
  · exact sendMsi_rel _ v
  · rfl

/-- A vector that is masked, or not pending, sends nothing (R442). -/
theorem sendMsi_of_quiet {s : State} {v : Nat} (h : s.regN (Reg.FLX_MSICTL v) % 4 ≠ 2) : sendMsi s v = s := by
  unfold sendMsi
  exact if_neg (fun hc => h hc.1)

/-- A masked vector that is raised becomes pending and stays so. -/
theorem raiseIrq_of_masked {s : State} {v : Nat} (hv : v ≤ 50) (hm : s.regN (Reg.FLX_MSICTL v) % 2 = 1) :
    raiseIrq s v = s.setReg (Reg.FLX_MSICTL v) 3 := by
  unfold raiseIrq
  rw [if_pos hv]
  dsimp only
  rw [hm]
  exact sendMsi_of_quiet (by rw [State.setReg_regN]; decide)

/-- A log entry stands at its number in the ring, and every other place is as before (R526). -/
theorem logEvt_rel (s : State) (ev verdict dkind inst addr d0 d1 : Nat) :
    (logEvt s ev verdict dkind inst addr d0 d1).rel = { s.rel with
      logSeq := s.rel.logSeq + 1
      log := tset none s.rel.log ((s.rel.logSeq + 1) % 8192) (some {
        time := s.devTime, seq := s.rel.logSeq + 1, event := ev, cls := evClass ev, verdict, dkind, inst, addr, detail0 := d0, detail1 := d1 }) } := by
  unfold logEvt
  dsimp only
  split
  · exact raiseIrq_rel _ 49
  · rfl

end Sys2Proof.Machine

open Sys2Proof Sys2Proof.Machine

/-- Settles O48, a clause for each access: over the paths by `rowAccess_read` and `rowAccess_write`, over the companion's messages by
`mgrd_of_served` and `mgwr_of_served`. -/
theorem managementAccesses : Obligations.ManagementAccesses := by
  refine ⟨fun a v s s1 ha h5 h3 hb hr he => ?smbusRead, fun a s ha h5 h3 hb hr => ?refused,
    fun c path a v s hc ha hv h5 h3 hb hr hf hl => ?writes, fun a v x s s1 ha hv h5 h3 hb hr he => ?dbgRead,
    fun path s h1 hp h5 h3 hb hr => ?time, fun a s ha h5 hw hh => ?timeout, fun s h5 hl => ?log,
    fun f a v m s s1 s2 hf h5 h3 hb hw ht ha hr he => ?mgrd, fun f a v m s s1 hf h5 h3 hb hw ht ha hv hr hx => ?mgwr,
    fun vec v s hv ho => ?msictl, fun v s ho hv hm => ?masked, fun v s ho hv => ?above, fun ev verdict dkind inst addr d0 d1 s => ?entry⟩
  case smbusRead =>
    rw [exec_smbusRead, decide_eq_true ha, answer_on h5, rowAccess_read h5 h3 hb hr he]
    rfl
  case refused =>
    rw [exec_smbusRead, decide_eq_true ha, answer_on h5, rowAccess_read_refused h5 h3 hb hr]
    rfl
  case writes =>
    rw [exec_pathWrite s ha hv hc, answer_on h5, rowAccess_write h5 h3 hb hr hf hl]
    rfl
  case dbgRead =>
    rw [exec_dbgacc, decide_eq_true (by exact ⟨ha, hv⟩), answer_on h5, rowAccess_read_operand h3, rowAccess_read h5 h3 hb hr he]
    rfl
  case time =>
    have h0 : path ≠ 0 := by omega
    rw [exec_ctlTimeLoRead, okPath_of_range h1 hp, answer_on h5, rowAccess_lowRead (by decide) h5 h3 hb hr (readEffect_timeLo s path), noteAnswer, if_neg h0]
    exact ⟨_, rfl, rfl, rfl, rfl⟩
  case timeout => rw [exec_smbusTimeout, decide_eq_true ha, answer_on h5, smbusTimeout_of_held hw hh]
  case log =>
    rw [exec_logDataRead, answer_on h5, if_pos hl]
    rfl
  case mgrd =>
    subst ha
    rw [exec_mgrd, decide_eq_true hf, answer_on h5, mgrd_of_served h5 h3 hb hw ht hr he]
    rfl
  case mgwr =>
    subst ha hv
    intro t hl hrdy
    rw [exec_mgwr, decide_eq_true hf, answer_on h5, mgwr_of_served h5 h3 hb hw ht hr hx hl hrdy]
    rfl
  case msictl =>
    rw [exec_flxMsictlWrite, decide_eq_true hv, answer_open ho]
    rfl
  case masked =>
    rw [exec_ctlIrqtest, answer_open ho, irqTest, raiseIrq_of_masked hv hm]
    exact ⟨_, rfl, State.setReg_regN _ _ _, rfl, rfl⟩
  case above =>
    rw [exec_ctlIrqtest, answer_open ho, irqTest, raiseIrq, if_neg (Nat.not_le.mpr hv)]
  case entry =>
    have hrel := logEvt_rel s ev verdict dkind inst addr d0 d1
    refine ⟨by rw [hrel], fun k => ?_⟩
    rw [hrel]
    dsimp only
    rw [tget_tset]

end

section
/-! SUPPORT. How a port comes up, and what its codewords do (R395, R398 to R400, Table 12-3). -/

namespace Sys2Proof.Machine

open Sys2Proof

theorem exec_winPctrlEnable (p : Nat) (s : State) :
    exec (.winPctrlEnable p) s = answer s (okPort p) (whenOpen s (rCtrl p) (settle (portEnable s p))) := rfl
theorem exec_lightDetected (p lanes : Nat) (s : State) : exec (.lightDetected p lanes) s = answer s (okPort p) (lightDetected s p lanes) := rfl
theorem exec_darkRetry (p : Nat) (s : State) : exec (.darkRetry p) s = answer s (okPort p) (darkRetry s p) := rfl
theorem exec_ringsTuned (p : Nat) (s : State) : exec (.ringsTuned p) s = answer s (okPort p) (ringsTuned s p) := rfl
theorem exec_clockLock (p lanes : Nat) (s : State) : exec (.clockLock p lanes) s = answer s (okPort p) (clockLock s p lanes) := rfl
theorem exec_lockTimeout (p : Nat) (s : State) : exec (.lockTimeout p) s = answer s (okPort p) (lockTimeout s p) := rfl
theorem exec_trainingWord (p lane w : Nat) (s : State) : exec (.trainingWord p lane w) s = answer s (okPort p) (trainingWord s p w) := rfl
theorem exec_codeword (p : Nat) (errs : List (Nat × Nat)) (s : State) :
    exec (.codeword p errs) s = answer s (okPort p) (settle (portFall (codeword s p errs) p)) := rfl

/-! ### Training -/

/-- Light on 16 lanes of a Dark port whose lasers are on starts its tuning. -/
theorem lightDetected_of_light {s : State} {p lanes : Nat} (h1 : (s.port p).st = 1) (hl : (s.port p).laser = true) (hn : 16 ≤ popcount 18 lanes) :
    lightDetected s p lanes = setPortSt (s.modPort p (fun x => { x with light := lanes % 2 ^ 18 })) p 2 := by
  unfold lightDetected
  exact if_pos (by rw [State.modPort_port]; exact ⟨h1, hl, hn⟩)

/-- A Dark port without light retries, logged the first time. -/
theorem darkRetry_of_first {s : State} {p : Nat} (h1 : (s.port p).st = 1) (hn : popcount 18 (s.port p).light < 16)
    (hd : (s.port p).darkLogged = false) : darkRetry s p =
      logPort (s.modPort p (fun x => { x with attempts := x.attempts + 1, darkLogged := true })) 0x17 p ((s.port p).attempts + 1) := by
  unfold darkRetry
  rw [if_pos ⟨h1, hn⟩, hd]
  rfl

/-- A TS2 that grants the map gives lanes, spares and peer. -/
theorem trainingWord_of_granted {s : State} {p w : Nat} (hw : trainOk w = true) (h4 : (s.port p).st = 4)
    (hid : field (leBytes 16 w) 0 2 = (if p < 32 then 0xA1C0 else 0xA1D0) + 2) (hk : field (leBytes 16 w) 9 1 = 1)
    (hc : 16 ≤ ((setBitsOf 18 (field (leBytes 16 w) 6 3)).filter (bit (s.port p).good)).length) (hg : bit (field (leBytes 16 w) 10 1) 0 = true) :
    let bs := leBytes 16 w
    let common := (setBitsOf 18 (field bs 6 3)).filter (bit (s.port p).good)
    trainingWord s p w = setPortSt ((s.modPort p (fun x => { x with peerGood := field bs 6 3 })).modPort p (fun x => { x with
      lanes := common.take 16, txLanes := common.take 16, spares := common.drop 16, aligned := 0
      peer := some (if p < 32 then field bs 4 2 % 4096 else 0, field bs 3 1 % 32) })) p 5 := by
  intro bs common
  unfold trainingWord
  dsimp only
  rw [if_neg (by simp [hw]), if_pos ⟨h4, hid⟩, if_neg (by simp [hk, Nat.not_lt.mpr hc]), if_pos hg]

/-- A TS3 on the last of the lanes starts the codeword count. -/
theorem trainingWord_of_aligned {s : State} {p w : Nat} (hw : trainOk w = true) (h5 : (s.port p).st = 5)
    (hid : field (leBytes 16 w) 0 2 = (if p < 32 then 0xA1C0 else 0xA1D0) + 3)
    (hl : (s.port p).lanes.contains (field (leBytes 16 w) 2 1 % 32) = true) (hb : bit (s.port p).aligned (field (leBytes 16 w) 2 1 % 32) = false)
    (ha : (s.port p).lanes.all (bit ((s.port p).aligned + 2 ^ (field (leBytes 16 w) 2 1 % 32))) = true) :
    trainingWord s p w = setPortSt ((s.modPort p (fun x =>
      { x with aligned := (s.port p).aligned + 2 ^ (field (leBytes 16 w) 2 1 % 32) })).modPort p
        (fun x => { x with rxCw := 0, clean := 0, txFlits := 0 })) p 6 := by
  unfold trainingWord
  dsimp only
  rw [if_neg (by simp [hw]), if_neg (by simp [h5]), if_pos ⟨h5, hid⟩, hl, hb]
  exact if_pos ha

/-! ### Codewords -/

/-- The symbols of a codeword that an error pattern changes. -/
def errSyms (errs : List (Nat × Nat)) : List Nat := ((errs.filter (fun e => e.1 < 544 && e.2 % 1024 != 0)).map (·.1)).eraseDups

/-- A codeword without an error counts, in Lock (R395, R400). -/
theorem codeword_clean_in_lock {s : State} {p : Nat} (h6 : (s.port p).st = 6) (hw : s.devTime < (s.port p).laneWin + 1000000) :
    let s1 := s.modPort p (fun x => { x with rxCw := x.rxCw + 1, clean := (s.port p).clean + 1 })
    codeword s p [] = if 4096 ≤ (s.port p).clean + 1 then setPortSt (s1.modPort p linkUp) p 7 else s1 := by
  intro s1
  have h1 : s1 = s.modPort p (fun x => { x with
      rxCw := x.rxCw + 1, clean := x.clean + 1, laneErr := (s.port p).laneErr, laneWin := (s.port p).laneWin }) :=
    State.modPort_congr _ _ _ _ rfl
  unfold codeword
  simp [h6, Nat.not_le.mpr hw, h1]

/-- An uncorrectable codeword is counted, ends the run of clean ones, and returns Lock to the lock of tuning; in service, where no
swap is named, it asks for a replay when none is asked for. -/
theorem codeword_uncorrectable {s : State} {p : Nat} {errs : List (Nat × Nat)} (hst : 6 ≤ (s.port p).st) (he : 15 < (errSyms errs).length)
    (hw : s.devTime < (s.port p).laneWin + 1000000) :
    let s1 := (s.incReg (rUnc p)).modPort p (fun x => { x with rxCw := x.rxCw + 1, clean := 0 })
    codeword s p errs = if (s.port p).st = 6 then setPortSt s1 p 3
      else swapCount (if (s.port p).nakArmed then s1.modPort p (fun x => { x with nakDue := true, nakArmed := false }) else s1) p false := by
  intro s1
  have h1 : s1 = (s.incReg (rUnc p)).modPort p (fun x => { x with
      rxCw := x.rxCw + 1, clean := 0, laneErr := (s.port p).laneErr, laneWin := (s.port p).laneWin }) :=
    State.modPort_congr _ _ _ _ rfl
  have he' : ¬ ((errs.filter (fun e => e.1 < 544 && e.2 % 1024 != 0)).map (·.1)).eraseDups.length ≤ 15 := Nat.not_le.mpr he
  have hp : (s.incReg (rUnc p)).port p = s.port p := rfl
  unfold codeword
  simp only [Nat.not_lt.mpr hst, he', Nat.not_le.mpr hw, State.incReg_devTime, State.modPort_port, hp, h1, if_false, if_true,
    decide_false, Bool.not_false, Bool.true_and]

/-- No swap named: nothing counts toward one. -/
theorem swapCount_of_none {s : State} {p : Nat} (clean : Bool) (h : (s.port p).rxSwap = none) : swapCount s p clean = s := by
  unfold swapCount
  dsimp only
  rw [h]

end Sys2Proof.Machine

open Sys2Proof Sys2Proof.Machine

/-- Settles O35, a clause for each step of training and each kind of codeword. -/
theorem linkTrainingAdvances : Obligations.LinkTrainingAdvances := by
  refine ⟨fun p s hp ho h0 => ?enable, fun p lanes s hp h5 h1 hl hn => ?light, fun p s hp h5 h1 hn hd => ?retry, fun p s hp h5 h2 => ?tuned,
    fun p lanes s hp h5 h3 hn => ?lock, fun p s hp h5 h3 => ?timeout, fun p lane w s hp h5 hw h4 => ?ts2, fun p lane w s hp h5 hw h => ?ts3,
    fun p s hp h5 h6 hw => ?clean, fun p errs s hp h5 h6 he hw => ?bad, fun p errs s hp h5 h8 hr hn he hw => ?replay⟩
  case enable =>
    rw [exec_winPctrlEnable, okPort_of_lt hp, answer_open ho, portEnable, if_pos h0]
    rfl
  case light => rw [exec_lightDetected, okPort_of_lt hp, answer_on h5, lightDetected_of_light h1 hl hn]
  case retry => rw [exec_darkRetry, okPort_of_lt hp, answer_on h5, darkRetry_of_first h1 hn hd]
  case tuned => rw [exec_ringsTuned, okPort_of_lt hp, answer_on h5, ringsTuned, if_pos h2]
  case lock => rw [exec_clockLock, okPort_of_lt hp, answer_on h5, clockLock, if_pos ⟨h3, hn⟩]
  case timeout =>
    rw [exec_lockTimeout, okPort_of_lt hp, answer_on h5, lockTimeout, if_pos h3]
    rfl
  case ts2 =>
    intro bs common hid hk hc hg
    rw [exec_trainingWord, okPort_of_lt hp, answer_on h5, trainingWord_of_granted hw h4 hid hk hc hg]
  case ts3 =>
    intro k hid hl hb ha
    rw [exec_trainingWord, okPort_of_lt hp, answer_on h5, trainingWord_of_aligned hw h hid hl hb ha]
  case clean =>
    rw [exec_codeword, okPort_of_lt hp, answer_on h5, codeword_clean_in_lock h6 hw]
    rfl
  case bad =>
    rw [exec_codeword, okPort_of_lt hp, answer_on h5, codeword_uncorrectable (Nat.le_of_eq h6.symm) he hw, if_pos h6]
    rfl
  case replay =>
    rw [exec_codeword, okPort_of_lt hp, answer_on h5, codeword_uncorrectable (by omega) he hw, if_neg (by omega), if_pos hn,
      swapCount_of_none false (by rw [State.modPort_port, State.modPort_port]; exact hr)]
    rfl

end

section
/-! SUPPORT. Flits received and sent, and replays (R402 to R406, R408). -/

namespace Sys2Proof.Machine

open Sys2Proof

theorem exec_flitReceive (p flit : Nat) (s : State) : exec (.flitReceive p flit) s = answer s (okPort p) (afterFlit (flitReceive s p flit)) := rfl
theorem exec_flitSend (p : Nat) (s : State) : exec (.flitSend p) s = answer s (okPort p) (afterFlit (flitSend s p)) := rfl
theorem exec_replayTimeout (p : Nat) (s : State) : exec (.replayTimeout p) s = answer s (okPort p) (settle (replayTimeout s p)) := rfl

/-! ### Receiving -/

/-- A flit whose CRC is bad is discarded. -/
theorem flitReceive_of_badCrc {s : State} {p flit : Nat} (h8 : (s.port p).st = 8)
    (hc : crc32 ((leBytes 256 flit).take 252) ≠ field (leBytes 256 flit) 252 4) : flitReceive s p flit = discard s p := by
  unfold flitReceive
  dsimp only
  rw [if_neg (by simp [h8]), if_pos hc]

/-- An INIT flit in Init. -/
theorem flitReceive_of_init {s : State} {p flit : Nat} (h7 : (s.port p).st = 7)
    (hc : crc32 ((leBytes 256 flit).take 252) = field (leBytes 256 flit) 252 4) (ht : bits (field (leBytes 256 flit) 0 11) 3 0 = 3) :
    flitReceive s p flit = initDone (s.modPort p (fun x => { x with initRx := true })) p := by
  unfold flitReceive
  dsimp only
  rw [if_neg (by simp [h7]), if_neg (not_not_intro hc), ht, if_neg (by omega), if_pos rfl, if_pos h7]

/-- What any flit of a header brings with it: the peer's hold, the credits of its CVC, and its ACK. -/
def headerTaken (s : State) (p h : Nat) : State :=
  applyAck (s.modPort p (fun x => { x with peerHold := bit h 27, vcFreed := modAt x.vcFreed (bits h 29 28) (fun n =>
    n + (bits h 38 30 + 512 - x.vcFreed.getD (bits h 29 28) 0 % 512) % 512) })) p (bits h 25 16)

/-- A sound data flit of the expected SEQ, without NAK. -/
theorem flitReceive_of_data {s : State} {p flit : Nat} (h8 : (s.port p).st = 8)
    (hc : crc32 ((leBytes 256 flit).take 252) = field (leBytes 256 flit) 252 4) (ht : bits (field (leBytes 256 flit) 0 11) 3 0 = 1)
    (hn : bit (field (leBytes 256 flit) 0 11) 26 = false)
    (hs : bits (field (leBytes 256 flit) 0 11) 15 6 = ((headerTaken s p (field (leBytes 256 flit) 0 11)).port p).rxSeq) :
    flitReceive s p flit = acceptData (headerTaken s p (field (leBytes 256 flit) 0 11)) p (bits (field (leBytes 256 flit) 0 11) 5 4)
      (((leBytes 256 flit).drop 11).take 241) := by
  unfold flitReceive
  dsimp only
  rw [if_neg (by simp [h8]), if_neg (not_not_intro hc), ht, if_neg (by omega), if_neg (by omega), if_neg (by omega), if_neg (by omega),
    if_pos rfl, hn]
  exact if_pos hs

/-! ### Sending -/

/-- In Init a flit sent is INIT. -/
theorem flitSend_of_init {s : State} {p : Nat} (h7 : ((freeFlits s p).port p).st = 7) : flitSend s p =
    initDone ((emit (freeFlits s p) p (mkFlit ((freeFlits s p).port p) 3 0 0 0xFF [])).modPort p (fun x => { x with initTx := true })) p := by
  unfold flitSend
  exact if_pos h7

/-- In service a flit sent is the next of the stream, and one nearer to the next repeat of a swap. -/
theorem flitSend_of_up {s : State} {p : Nat} (h8 : ((freeFlits s p).port p).st = 8) : flitSend s p =
    txSwapMove ((sendNext (freeFlits s p) p).modPort p (fun y => { y with sinceSwap := y.sinceSwap + 1 })) p := by
  unfold flitSend
  dsimp only
  rw [if_neg (by omega), if_pos (Or.inl h8)]

/-- While the peer holds, an idle flit. -/
theorem sendNext_of_hold {s : State} {p : Nat} (hr : (s.port p).rxSwap = none) (hh : (s.port p).peerHold = true) :
    sendNext s p = emit s p (mkFlit (s.port p) 0 0 0 0xFF []) := by
  unfold sendNext
  dsimp only
  rw [hr, hh]
  rfl

/-- Nothing to resend and room to keep a flit: the next data of the first channel that may send. -/
theorem sendNext_of_data {s : State} {p vc : Nat} (hr : (s.port p).rxSwap = none) (hh : (s.port p).peerHold = false)
    (ht : (s.port p).txSwap = none) (he : (s.port p).resend = []) (hl : (s.port p).replay.length + keptFlits (s.port p) < 256)
    (hv : (vcOrder (s.port p)).find? (vcReady (s.port p)) = some vc) : sendNext s p = sendData s p vc := by
  unfold sendNext
  dsimp only
  rw [hr, hh, ht, he]
  dsimp only
  rw [if_neg (by simp), if_pos hl, hv]

/-- A named swap that has not moved, at its turn: the swap flit. -/
theorem sendNext_of_swap {s : State} {p l k cw : Nat} (hr : (s.port p).rxSwap = some (l, k, cw, false)) (h0 : (s.port p).sinceSwap % 64 = 0) :
    sendNext s p = emit s p (mkFlit (s.port p) 2 0 0 0xFF (swapPayload l k cw)) := by
  unfold sendNext
  dsimp only
  rw [hr]
  exact if_pos h0

/-! ### Replay -/

/-- What waits for acknowledgement is resent; no flit has been resent so often that the port is shuttered. -/
theorem replayTimeout_of_pending {s : State} {p : Nat} (h8 : (s.port p).st = 8) (ha : (s.port p).nakArmed = true) (hr : (s.port p).replay ≠ [])
    (hh : (s.port p).peerHold = false) (h7 : (s.port p).replay.any (fun f => 7 ≤ f.resends) = false) : replayTimeout s p =
      (s.modPort p (fun y => { y with
        replay := y.replay.map (fun f => { f with resends := f.resends + 1 }), resend := y.replay.map (·.seq) })).incReg (rReplay p) := by
  unfold replayTimeout
  dsimp only
  rw [if_pos (Or.inl h8), if_pos ha, replayFrom]
  dsimp only
  rw [if_neg (by simp [hr, hh]), if_neg (by simp only [h7]; decide)]

end Sys2Proof.Machine

open Sys2Proof Sys2Proof.Machine

/-- Settles O36, a clause for each kind of flit received and sent. -/
theorem flitsFollowTheLinkProtocol : Obligations.FlitsFollowTheLinkProtocol := by
  refine ⟨fun p flit s hp h5 h8 hc => ?bad, fun p flit s hp h5 h8 => ?data, fun p flit s hp h5 h7 hc ht => ?init, fun p s hp h5 => ⟨fun h7 => ?sendInit,
    fun vc h8 hr hh ht he hl hv => ?sendData, fun h8 hr hh => ?sendIdle⟩, fun p s hp h5 h8 ha hr hh h7 => ?replay, fun p l k cw s hp h5 => ?swap⟩
  case bad =>
    rw [exec_flitReceive, okPort_of_lt hp, answer_on h5, flitReceive_of_badCrc h8 hc]
    rfl
  case data =>
    intro bs h hc ht hn s1 hs
    rw [exec_flitReceive, okPort_of_lt hp, answer_on h5, flitReceive_of_data h8 hc ht hn hs]
    rfl
  case init =>
    rw [exec_flitReceive, okPort_of_lt hp, answer_on h5, flitReceive_of_init h7 hc ht]
    rfl
  case sendInit =>
    rw [exec_flitSend, okPort_of_lt hp, answer_on h5, flitSend_of_init h7]
    rfl
  case sendData =>
    rw [exec_flitSend, okPort_of_lt hp, answer_on h5, flitSend_of_up h8, sendNext_of_data hr hh ht he hl hv]
    rfl
  case sendIdle =>
    rw [exec_flitSend, okPort_of_lt hp, answer_on h5, flitSend_of_up h8, sendNext_of_hold hr hh]
    rfl
  case replay =>
    rw [exec_replayTimeout, okPort_of_lt hp, answer_on h5, replayTimeout_of_pending h8 ha hr hh h7]
    rfl
  case swap =>
    intro s1 x h8 hr h0
    rw [exec_flitSend, okPort_of_lt hp, answer_on h5, flitSend_of_up h8, sendNext_of_swap hr h0]
    rfl

end

section
/-! SUPPORT. Lane replacement, shutters, failover and held flows (R408, R409, R420 to R422, R426). -/

namespace Sys2Proof.Machine

open Sys2Proof

theorem exec_winPctrlRetrain (p : Nat) (s : State) :
    exec (.winPctrlRetrain p) s = answer s (okPort p) (whenOpen s (rCtrl p) (settle (startShutter s p 3))) := rfl
theorem exec_winPctrlReplaceLane (p lane : Nat) (s : State) :
    exec (.winPctrlReplaceLane p lane) s = answer s (okPort p) (whenOpen s (rCtrl p) (settle (replaceLane s p lane))) := rfl
theorem exec_winPctrlDisable (p : Nat) (s : State) :
    exec (.winPctrlDisable p) s = answer s (okPort p) (whenOpen s (rCtrl p) (settle (portDisable s p))) := rfl
theorem exec_laneFault (p lane : Nat) (lost : Bool) (s : State) :
    exec (.laneFault p lane lost) s = answer s (okPort p) (settle (portFall (laneFault s p lane lost) p)) := rfl
theorem exec_lightLost (p lanes : Nat) (s : State) : exec (.lightLost p lanes) s = answer s (okPort p) (settle (lightLost s p lanes)) := rfl
theorem exec_drainDone (p : Nat) (s : State) : exec (.drainDone p) s = answer s (okPort p) (settle (drainDone s p)) := rfl
theorem exec_drainTimeout (p : Nat) (s : State) : exec (.drainTimeout p) s = answer s (okPort p) (settle (drainTimeout s p)) := rfl
theorem exec_flowRelease (b : Nat) (s : State) : exec (.flowRelease b) s = answer s (okBay b) (settle (flowRelease s b)) := rfl
theorem exec_failover (p : Nat) (s : State) : exec (.failover p) s = answer s (okPort p) (match (s.port p).failIn with
    | [] => s
    | m :: ms => settle (failoverIn (s.modPort p (fun x => { x with failIn := ms })) p m)) := rfl

/-- A lane of the map is named for a swap with the first spare, 256 codewords after the last received (R408). -/
theorem replaceLane_of_spare {s : State} {p lane l k : Nat} {ks : List Nat} (h8 : (s.port p).st = 8) (hr : (s.port p).rxSwap = none)
    (hl : (s.port p).lanes.idxOf? lane = some l) (hk : (s.port p).spares = k :: ks) :
    replaceLane s p lane = s.modPort p (fun x => { x with rxSwap := some (l, k, x.rxCw + 255, false), sinceSwap := 0 }) := by
  have hm : (s.port p).lanes.contains lane = true := by
    rw [List.contains_iff_mem, ← List.isSome_idxOf?, hl, Option.isSome_some]
  unfold replaceLane
  dsimp only
  rw [if_neg (not_not_intro h8), hr]
  rw [if_pos hm, nameSwap]
  dsimp only
  rw [hl, hk]

/-- A lane that fails without a loss of light, on a port that no recovery tests, is replaced. -/
theorem laneFault_of_idle {s : State} {p : Nat} (lane : Nat) (hc : (s.dom (5 * 256 + p)).cur = none) :
    laneFault s p lane false = replaceLane s p lane := by
  unfold laneFault
  dsimp only
  rw [if_neg Bool.false_ne_true, hc]

/-- The disable of a port that is neither Up nor drains. -/
theorem portDisable_of_down {s : State} {p : Nat} (h8 : (s.port p).st ≠ 8) (hd : (s.port p).drain = none) :
    portDisable s p = setPortSt (s.modPort p (fun x => { x with laser := false })) p 0 := by
  unfold portDisable
  exact if_neg (by simp [h8, hd])

/-- The disable of an Up port fails over. -/
theorem portDisable_of_up {s : State} {p : Nat} (h8 : (s.port p).st = 8) :
    portDisable s p = checkHost (failover (setPortSt (s.modPort p (fun x => { x with laser := false })) p 0) p) p := by
  unfold portDisable
  exact if_pos (by simp [h8])

/-- An Up port that loses the light of three lanes fails over (R421). -/
theorem lightLost_of_many {s : State} {p lanes : Nat} (h8 : (s.port p).st = 8) (h3 : 3 ≤ (setBitsOf 18 lanes).length) :
    lightLost s p lanes = checkHost (failover (toDark (s.modPort p (fun x => { x with
      light := (setBitsOf 18 lanes).foldl (fun a k => if bit a k then a - 2 ^ k else a) (s.port p).light })) p) p) p := by
  unfold lightLost
  dsimp only
  rw [if_pos ⟨Or.inl h8, h3⟩]
  exact congrArg (fun t => checkHost (failover (toDark t p) p) p) (State.modPort_congr _ _ _ _ rfl)

/-- A held flow goes on once its old port holds nothing of it (R411). -/
theorem flowRelease_eq (s : State) (b : Nat) : flowRelease s b = s.modXe b (fun x => { x with flows := x.flows.map (fun f =>
    if f.held = true ∧ portHolds s f.port f.vc f.dchip f.schip f.sbay = false then { f with held := false } else f) }) := by
  simp only [flowRelease, Bool.and_eq_true, Bool.not_eq_true']

end Sys2Proof.Machine

open Sys2Proof Sys2Proof.Machine

/-- Settles O37, a clause for each way in which a lane or a port leaves its service. -/
theorem lanesShuttersAndFailover : Obligations.LanesShuttersAndFailover := by
  refine ⟨fun p s hp ho hu => ?retrain, fun p lane k l ks s hp ho h8 hr hl hk => ?swap, fun p lane k l ks s hp h5 hc h8 hr hl hk => ?fault,
    fun p s hp ho h8 hd => ?off, fun p s hp ho h8 => ?offUp, fun p lanes s hp h5 h8 h3 => ?light, fun p s hp h5 hd => ?drained,
    fun p s hp h5 hd => ?late, fun b s hb h5 => ?flow, fun p m ms s hp h5 hm => ?failed⟩
  case retrain =>
    rw [exec_winPctrlRetrain, okPort_of_lt hp, answer_open ho, startShutter, if_pos hu]
    rfl
  case swap =>
    rw [exec_winPctrlReplaceLane, okPort_of_lt hp, answer_open ho, replaceLane_of_spare h8 hr hl hk]
    rfl
  case fault =>
    rw [exec_laneFault, okPort_of_lt hp, answer_on h5, laneFault_of_idle lane hc, replaceLane_of_spare h8 hr hl hk]
    rfl
  case off =>
    rw [exec_winPctrlDisable, okPort_of_lt hp, answer_open ho, portDisable_of_down h8 hd]
    rfl
  case offUp =>
    rw [exec_winPctrlDisable, okPort_of_lt hp, answer_open ho, portDisable_of_up h8]
    rfl
  case light =>
    rw [exec_lightLost, okPort_of_lt hp, answer_on h5, lightLost_of_many h8 h3]
    rfl
  case drained =>
    rw [exec_drainDone, okPort_of_lt hp, answer_on h5, drainDone, if_pos hd]
    rfl
  case late =>
    rw [exec_drainTimeout, okPort_of_lt hp, answer_on h5, drainTimeout, if_pos hd]
    rfl
  case flow =>
    rw [exec_flowRelease, okBay_of_lt hb, answer_on h5, flowRelease_eq]
    rfl
  case failed =>
    rw [exec_failover, okPort_of_lt hp, answer_on h5, hm]
    rfl

end

section
/-! SUPPORT. Requests and responses between devices (R414 to R419). -/

namespace Sys2Proof.Machine

open Sys2Proof

theorem exec_rdreq (b : Nat) (s : State) : exec (.rdreq b) s = answer s (okBay b) (settle (takeRequest s b 1)) := rfl
theorem exec_wrreq (b : Nat) (s : State) : exec (.wrreq b) s = answer s (okBay b) (settle (takeRequest s b 2)) := rfl
theorem exec_atomic (b : Nat) (s : State) : exec (.atomic b) s = answer s (okBay b) (settle (takeRequest s b 3)) := rfl
theorem exec_rdresp (b : Nat) (s : State) : exec (.rdresp b) s = answer s (okBay b) (settle (response s b 4)) := rfl
theorem exec_wrack (b : Nat) (s : State) : exec (.wrack b) s = answer s (okBay b) (settle (response s b 5)) := rfl
theorem exec_atack (b : Nat) (s : State) : exec (.atack b) s = answer s (okBay b) (settle (response s b 6)) := rfl
theorem exec_remoteTimeout (b k : Nat) (s : State) :
    exec (.remoteTimeout b k) s = answer s (okBay b) (settle (requestTimeout s b k false 0xB1)) := rfl
theorem exec_companionTimeout (b k : Nat) (s : State) :
    exec (.companionTimeout b k) s = answer s (okBay b) (settle (requestTimeout s b k true 0xC1)) := rfl
theorem exec_signalMessage (b : Nat) (s : State) : exec (.signalMessage b) s = answer s (okBay b) (settle (signalMessage s b)) := rfl
theorem exec_xeRtflush (b v : Nat) (s : State) :
    exec (.xeRtflush b v) s = answer s (okBay b) (whenOpen s (Reg.XE_RTFLUSH b) (rtFlush s b v)) := rfl

/-! ### Requests -/

/-- The request that is taken is served. -/
theorem takeRequest_of_take {s s1 : State} {b t : Nat} {m : List Byte} (h : takeX s b t = some (m, s1)) :
    takeRequest s b t = serveRequest s1 b m := by rw [takeRequest, h]

/-- A CTXID that no context may have. -/
theorem serveRequest_of_badCtx (s : State) (b : Nat) {m : List Byte} (hb : badCtx m = true) : serveRequest s b m = answerReq s b m 1 := by
  rw [serveRequest]
  exact if_pos hb

section
variable {m : List Byte} (hb : badCtx m = false)
include hb

/-- A read of 32 to 1,024 bytes becomes the reads of its lines. -/
theorem serveRequest_read (s : State) (b : Nat) (h1 : mType m = 1) (hl : (mBody m).length = 16) (h32 : field (mBody m) 8 4 % 32 = 0)
    (h0 : field (mBody m) 8 4 ≠ 0) (hm : field (mBody m) 8 4 ≤ 1024) : serveRequest s b m =
      serveParts s b (mCtx m) false (.remote m) .read (localPa (field (mBody m) 0 8)) []
        (lineParts 33 (localPa (field (mBody m) 0 8)) (field (mBody m) 8 4)) := by
  unfold serveRequest
  dsimp only
  rw [hb, if_neg Bool.false_ne_true, if_pos h1, if_neg (by omega)]

/-- Any other read is illegal. -/
theorem serveRequest_read_illegal (s : State) (b : Nat) (h1 : mType m = 1)
    (hx : (mBody m).length ≠ 16 ∨ field (mBody m) 8 4 % 32 ≠ 0 ∨ field (mBody m) 8 4 = 0 ∨ 1024 < field (mBody m) 8 4) :
    serveRequest s b m = badRequest s b m := by
  unfold serveRequest
  dsimp only
  rw [hb, if_neg Bool.false_ne_true, if_pos h1, if_pos hx]

/-- A write of 4 to 1,024 bytes becomes the writes of its lines. -/
theorem serveRequest_write (s : State) (b : Nat) (h2 : mType m = 2) (h4 : 4 ≤ ((mBody m).drop 8).length) (hm : ((mBody m).drop 8).length ≤ 1024) :
    serveRequest s b m = serveParts s b (mCtx m) false (.remote m) .write (localPa (field (mBody m) 0 8)) ((mBody m).drop 8)
      (lineParts 33 (localPa (field (mBody m) 0 8)) ((mBody m).drop 8).length) := by
  unfold serveRequest
  dsimp only
  rw [hb, if_neg Bool.false_ne_true, if_neg (by omega), if_pos h2, if_neg (by omega)]

/-- Any other write is illegal. -/
theorem serveRequest_write_illegal (s : State) (b : Nat) (h2 : mType m = 2)
    (hx : ((mBody m).drop 8).length < 4 ∨ 1024 < ((mBody m).drop 8).length) : serveRequest s b m = badRequest s b m := by
  unfold serveRequest
  dsimp only
  rw [hb, if_neg Bool.false_ne_true, if_neg (by omega), if_pos h2, if_pos hx]

/-- An atomic on a line of 64 bytes. -/
theorem serveRequest_add (s : State) (b : Nat) (h3 : mType m = 3) (h0 : field (mBody m) 8 4 = 0) (ha : localPa (field (mBody m) 0 8) % 64 = 0)
    (hl : (mBody m).length = 80) : serveRequest s b m =
      serveParts s b (mCtx m) false (.remote m) (.add (field (mBody m) 12 4 % 256)) (localPa (field (mBody m) 0 8)) ((mBody m).drop 16)
        [(localPa (field (mBody m) 0 8), 64)] := by
  unfold serveRequest
  dsimp only
  rw [hb, if_neg Bool.false_ne_true, if_neg (by omega), if_neg (by omega), if_pos ⟨h0, ha, hl⟩]

/-- An atomic on a record of 80 bytes. -/
theorem serveRequest_addLong (s : State) (b : Nat) (h3 : mType m = 3) (h1 : field (mBody m) 8 4 = 1)
    (ha : localPa (field (mBody m) 0 8) % 128 = 0) (hl : (mBody m).length = 96) : serveRequest s b m =
      serveParts s b (mCtx m) false (.remote m) .addLong (localPa (field (mBody m) 0 8)) ((mBody m).drop 16)
        [(localPa (field (mBody m) 0 8), 80)] := by
  unfold serveRequest
  dsimp only
  rw [hb, if_neg Bool.false_ne_true, if_neg (by omega), if_neg (by omega), if_neg (by omega), if_pos ⟨h1, ha, hl⟩]

/-- Any other atomic is illegal. -/
theorem serveRequest_atomic_illegal (s : State) (b : Nat) (h3 : mType m = 3) (hx : 1 < field (mBody m) 8 4 ∨
    (field (mBody m) 8 4 = 0 ∧ (localPa (field (mBody m) 0 8) % 64 ≠ 0 ∨ (mBody m).length ≠ 80)) ∨
    (field (mBody m) 8 4 = 1 ∧ (localPa (field (mBody m) 0 8) % 128 ≠ 0 ∨ (mBody m).length ≠ 96))) : serveRequest s b m = badRequest s b m := by
  unfold serveRequest
  dsimp only
  rw [hb, if_neg Bool.false_ne_true, if_neg (by omega), if_neg (by omega), if_neg (by omega), if_neg (by omega)]

end

/-! ### Responses and time limits -/

/-- The response that is taken goes to its request. -/
theorem response_of_take {s s1 : State} {b t : Nat} {m : List Byte} (h : takeX s b t = some (m, s1)) :
    response s b t = takeResponse s1 b false m := by rw [response, h]

/-- An exchange request without an answer in time. -/
theorem requestTimeout_remote {s : State} {b k : Nat} {r : XReq} {a : Access}
    (hr : ((s.bay b).xe.reqs.filter (fun r => r.host == false))[k]? = some r) (ha : s.accs.find? (fun a => a.id == r.access) = some a) :
    requestTimeout s b k false 0xB1 = accFails ((s.modXe b (fun x =>
      { x with reqs := x.reqs.filter (fun q => !(q == r)) })).incReg (Reg.XE_TIMEOUT b)) a { code := 0xB1, addr := a.pa } := by
  unfold requestTimeout
  rw [hr]
  dsimp only
  rw [if_neg Bool.false_ne_true, State.incReg_accs, State.modXe_accs, ha]

/-- A request to the companion without an answer in time. -/
theorem requestTimeout_host {s : State} {b k : Nat} {r : XReq} {a : Access}
    (hr : ((s.bay b).xe.reqs.filter (fun r => r.host == true))[k]? = some r) (ha : s.accs.find? (fun a => a.id == r.access) = some a) :
    requestTimeout s b k true 0xC1 = accFails (s.modXe b (fun x =>
      { x with reqs := x.reqs.filter (fun q => !(q == r)) })) a { code := 0xC1, addr := a.pa } := by
  unfold requestTimeout
  rw [hr]
  dsimp only
  rw [if_pos rfl, State.modXe_accs, ha]

/-- A signal of a context, behind no write of its flow, is applied. -/
theorem signalMessage_of_free {s s1 : State} {b : Nat} {m : List Byte} (h : takeX s b 0x0C = some (m, s1)) (hf : flowWrites s m = false)
    (hb : badCtx m = false) : signalMessage s b = applySignal s1 {
      obj := field (mBody m) 0 2, amount := field (mBody m) 4 4, pane := mSpane m, chip := mSchip m, ctx := mCtx m, task := none,
      completes := false, guards := [] } := by
  unfold signalMessage
  rw [h]
  dsimp only
  rw [hf, hb, if_neg Bool.false_ne_true, if_neg Bool.false_ne_true]

/-! ### What a response does -/

section
variable {b : Nat} {host : Bool} {m : List Byte} {s : State} {r : XReq} {a : Access}
  (hr : (s.bay b).xe.reqs.find? (fun r => r.tag == mTag m && r.host == host && r.mtype + 3 == mType m && (host || r.chip == mSchip m)) = some r)
  (ha : s.accs.find? (fun a => a.id == r.access) = some a)
include hr ha

/-- A response with status 0 brings its data in over the lintel of its rim die. -/
theorem takeResponse_of_ok (h0 : mStatus m = 0) :
    takeResponse s b host m = setAcc (s.modXe b (fun x => { x with reqs := x.reqs.filter (fun q => !(q == r)) }))
      { a with stage := .rspIn (portLintel r.port), data := if mType m = 4 then mBody m else a.data } := by
  unfold takeResponse
  rw [hr]
  dsimp only
  rw [State.modXe_accs, ha]
  exact if_neg (not_not_intro h0)

/-- A response with a status of the table brings the code of that status. -/
theorem takeResponse_of_status (h0 : mStatus m ≠ 0) (hC : mStatus m < 0xC) :
    takeResponse s b host m = setAcc (s.modXe b (fun x => { x with reqs := x.reqs.filter (fun q => !(q == r)) }))
      { a with stage := .rspIn (portLintel r.port), flt := some {
          code := statusCode (mStatus m) (match a.purpose with | .se _ _ _ _ => true | _ => false), addr := field (mBody m) 0 8 } } := by
  unfold takeResponse
  rw [hr]
  dsimp only
  rw [State.modXe_accs, ha]
  dsimp only
  rw [if_pos h0, if_neg (by omega)] <;> rfl

end

/-- A response that matches no request only counts as late. -/
theorem takeResponse_of_late {b : Nat} {host : Bool} {m : List Byte} {s : State} (hr : (s.bay b).xe.reqs.find? (fun r =>
      r.tag == mTag m && r.host == host && r.mtype + 3 == mType m && (host || r.chip == mSchip m)) = none) :
    takeResponse s b host m = s.incReg (if host then Reg.FLX_LATE else Reg.XE_LATE b) := by
  unfold takeResponse
  rw [hr]
  cases host
  · exact congrArg s.incReg (if_neg Bool.false_ne_true).symm
  · exact congrArg s.incReg (if_pos rfl).symm

end Sys2Proof.Machine

open Sys2Proof Sys2Proof.Machine

/-- Settles O24, a clause for each kind of request, for its answer, and for what comes in. -/
theorem remoteRequestsAndResponses : Obligations.RemoteRequestsAndResponses := by
  refine ⟨fun b m s s1 hb h5 ht h1 hl h32 h0 hm hc => ?read, fun b m s s1 hb h5 ht h2 h4 hm hc => ?write,
    fun b m s s1 hb h5 ht h3 h0 ha hl hc => ?add, fun b m s s1 hb h5 ht h3 h1 ha hl hc => ?addLong,
    fun b m s s1 hb h5 ht h1 hc hx => ?badRead, fun b m s s1 hb h5 ht h2 hc hx => ?badWrite, fun b m s s1 hb h5 ht h3 hc hx => ?badAtomic,
    fun b t c m s s1 hb h5 hi ht hc => ?noCtx, fun b t c m s s1 hb h5 hi ht => ?response, fun b k r a s hb h5 hr ha => ?late,
    fun b k r a s hb h5 hr ha => ?lateHost, fun b m s s1 hb h5 ht hf hc => ?signal, fun b v s hb ho hv => ?flush,
    fun b host m s hr => takeResponse_of_late hr, fun b host m s r a hr ha h0 => takeResponse_of_ok hr ha h0,
    fun b host m s r a hr ha h0 hC => takeResponse_of_status hr ha h0 hC⟩
  case read =>
    rw [exec_rdreq, okBay_of_lt hb, answer_on h5, takeRequest_of_take ht, serveRequest_read hc _ _ h1 hl h32 h0 hm]
    rfl
  case write =>
    rw [exec_wrreq, okBay_of_lt hb, answer_on h5, takeRequest_of_take ht, serveRequest_write hc _ _ h2 h4 hm]
    rfl
  case add =>
    rw [exec_atomic, okBay_of_lt hb, answer_on h5, takeRequest_of_take ht, serveRequest_add hc _ _ h3 h0 ha hl]
    rfl
  case addLong =>
    rw [exec_atomic, okBay_of_lt hb, answer_on h5, takeRequest_of_take ht, serveRequest_addLong hc _ _ h3 h1 ha hl]
    rfl
  case badRead =>
    rw [exec_rdreq, okBay_of_lt hb, answer_on h5, takeRequest_of_take ht, serveRequest_read_illegal hc _ _ h1 hx]
    rfl
  case badWrite =>
    rw [exec_wrreq, okBay_of_lt hb, answer_on h5, takeRequest_of_take ht, serveRequest_write_illegal hc _ _ h2 hx]
    rfl
  case badAtomic =>
    rw [exec_atomic, okBay_of_lt hb, answer_on h5, takeRequest_of_take ht, serveRequest_atomic_illegal hc _ _ h3 hx]
    rfl
  case noCtx =>
    have hx : exec c s = answer s (okBay b) (settle (takeRequest s b t)) := by
      obtain ⟨rfl, rfl⟩ | ⟨rfl, rfl⟩ | ⟨rfl, rfl⟩ := hi
      · exact exec_rdreq b s
      · exact exec_wrreq b s
      · exact exec_atomic b s
    rw [hx, okBay_of_lt hb, answer_on h5, takeRequest_of_take ht, serveRequest_of_badCtx _ _ hc]
    rfl
  case response =>
    have hx : exec c s = answer s (okBay b) (settle (response s b t)) := by
      obtain ⟨rfl, rfl⟩ | ⟨rfl, rfl⟩ | ⟨rfl, rfl⟩ := hi
      · exact exec_rdresp b s
      · exact exec_wrack b s
      · exact exec_atack b s
    rw [hx, okBay_of_lt hb, answer_on h5, response_of_take ht]
    rfl
  case late =>
    rw [exec_remoteTimeout, okBay_of_lt hb, answer_on h5, requestTimeout_remote hr ha]
    rfl
  case lateHost =>
    rw [exec_companionTimeout, okBay_of_lt hb, answer_on h5, requestTimeout_host hr ha]
    rfl
  case signal =>
    rw [exec_signalMessage, okBay_of_lt hb, answer_on h5, signalMessage_of_free ht hf hc]
    rfl
  case flush => rw [exec_xeRtflush, okBay_of_lt hb, answer_open ho, rtFlush, if_pos hv]

end

section
/-! SUPPORT. The companion's messages (R434 to R439, R443). -/

namespace Sys2Proof.Machine

open Sys2Proof

theorem exec_crds (f : Nat) (s : State) : exec (.crds f) s = answer s (decide (f < 2)) (settle (hostRead s f 0x20)) := rfl
theorem exec_crdo (f : Nat) (s : State) : exec (.crdo f) s = answer s (decide (f < 2)) (settle (hostRead s f 0x21)) := rfl
theorem exec_crdu (f : Nat) (s : State) : exec (.crdu f) s = answer s (decide (f < 2)) (settle (hostRead s f 0x22)) := rfl
theorem exec_cwr (f : Nat) (s : State) : exec (.cwr f) s = answer s (decide (f < 2)) (settle (hostWrite s f 0x23)) := rfl
theorem exec_cwb (f : Nat) (s : State) : exec (.cwb f) s = answer s (decide (f < 2)) (settle (hostWrite s f 0x24)) := rfl
theorem exec_cevict (f : Nat) (s : State) : exec (.cevict f) s = answer s (decide (f < 2)) (settle (hostEvict s f)) := rfl
theorem exec_doorbell (f : Nat) (s : State) : exec (.doorbell f) s = answer s (decide (f < 2)) (settle (hostDoorbell s f)) := rfl
theorem exec_snprsp (f : Nat) (s : State) : exec (.snprsp f) s = answer s (decide (f < 2)) (settle (snoopAnswer s f)) := rfl
theorem exec_snoopTimeout (b k : Nat) (s : State) : exec (.snoopTimeout b k) s = answer s (okBay b) (settle (snoopTimeout s b k)) := rfl

/-! ### The device is ready -/

section
variable {f : Nat} {m : List Byte} {s s1 : State} (hr : s1.boot.ready = true)
include hr

/-- CRDS and CRDO read the line they name. -/
theorem hostRead_line {t : Nat} (ht : t ≠ 0x22) (h : takeHost s f t = some (m, s1)) : hostRead s f t =
    serveParts s1 (finBay s1 m) 0 true (.host f m) .read (localPa (field (mBody m) 0 8) / 64 * 64) []
      [(localPa (field (mBody m) 0 8) / 64 * 64, 64)] := by
  unfold hostRead
  rw [h]
  dsimp only
  rw [hr, if_neg (by decide), if_neg ht]

/-- CRDU reads whole lines, up to 1,024 bytes. -/
theorem hostRead_range (h : takeHost s f 0x22 = some (m, s1)) (h64 : field (mBody m) 8 4 % 64 = 0) (h0 : field (mBody m) 8 4 ≠ 0)
    (hm : field (mBody m) 8 4 ≤ 1024) : hostRead s f 0x22 =
      serveParts s1 (finBay s1 m) 0 true (.host f m) .read (localPa (field (mBody m) 0 8)) []
        (lineParts 33 (localPa (field (mBody m) 0 8)) (field (mBody m) 8 4)) := by
  unfold hostRead
  rw [h]
  dsimp only
  rw [hr, if_neg (by decide), if_pos rfl, if_neg (by omega)]

/-- CWR writes its bytes. -/
theorem hostWrite_range (h : takeHost s f 0x23 = some (m, s1)) (h4 : 4 ≤ ((mBody m).drop 8).length) (hm : ((mBody m).drop 8).length ≤ 1024) :
    hostWrite s f 0x23 = serveParts s1 (finBay s1 m) 0 true (.host f m) .write (localPa (field (mBody m) 0 8)) ((mBody m).drop 8)
      (lineParts 33 (localPa (field (mBody m) 0 8)) ((mBody m).drop 8).length) := by
  unfold hostWrite
  rw [h]
  dsimp only
  rw [hr, if_neg (by decide), if_neg (by decide), if_neg (by omega)]

/-- CWB writes its line. -/
theorem hostWrite_line (h : takeHost s f 0x24 = some (m, s1)) (hl : ((mBody m).drop 8).length = 64) :
    hostWrite s f 0x24 = serveParts s1 (finBay s1 m) 0 true (.host f m) .write (localPa (field (mBody m) 0 8) / 64 * 64) ((mBody m).drop 8)
      [(localPa (field (mBody m) 0 8) / 64 * 64, 64)] := by
  unfold hostWrite
  rw [h]
  dsimp only
  rw [hr, if_neg (by decide), if_pos rfl, if_neg (not_not_intro hl)]

end

section
variable {f : Nat} {m : List Byte} {s s1 : State} (hr : s.boot.ready = true)
include hr

/-- CEVICT of a line of which the die waits for nothing. -/
theorem hostEvict_of_idle (h : takeHost s f 0x25 = some (m, s1)) (hb : hostBusy s f (localPa (field (mBody m) 0 8) / 64 * 64) = false) :
    hostEvict s f = dropLine s1 (bayOfPa s (localPa (field (mBody m) 0 8) / 64 * 64)) (localPa (field (mBody m) 0 8) / 64 * 64) := by
  unfold hostEvict
  rw [h]
  dsimp only
  rw [hr, if_neg (by decide), hb, if_neg Bool.false_ne_true]

/-- A doorbell behind the writes of its port. -/
theorem hostDoorbell_of_done (h : takeHost s f 0x29 = some (m, s1)) (hw : hostWritesDone s f = true) :
    hostDoorbell s f = doorbell s1 (mDbay m) (field (mBody m) 0 4) := by
  unfold hostDoorbell
  rw [h]
  dsimp only
  rw [hr, if_neg (by decide), if_pos hw]

end

/-! ### The device is not ready (R443) -/

section
variable {f t : Nat} {m : List Byte} {s s1 : State} (h : takeHost s f t = some (m, s1))
include h

/-- A read is refused with status not ready, and counted. -/
theorem hostRead_early (hr : s1.boot.ready = false) : hostRead s f t =
    answerHost (s1.incReg (Reg.FLX_EARLY f)) (finBay s1 m) f m 0x26 0xA (leBytes 8 (field (mBody m) 0 8)) := by
  unfold hostRead
  rw [h]
  dsimp only
  rw [hr, if_pos (by decide)]
  rfl

/-- A write is discarded and counted. -/
theorem hostWrite_early (hr : s1.boot.ready = false) : hostWrite s f t = s1.incReg (Reg.FLX_EARLY f) := by
  unfold hostWrite
  rw [h]
  dsimp only
  rw [hr, if_pos (by decide)]
  rfl

end

/-- An eviction is discarded and counted. -/
theorem hostEvict_early {f : Nat} {m : List Byte} {s s1 : State} (h : takeHost s f 0x25 = some (m, s1)) (hr : s.boot.ready = false) :
    hostEvict s f = s1.incReg (Reg.FLX_EARLY f) := by
  unfold hostEvict
  rw [h]
  dsimp only
  rw [hr, if_pos (by decide)]
  rfl

/-- A doorbell is discarded and counted. -/
theorem hostDoorbell_early {f : Nat} {m : List Byte} {s s1 : State} (h : takeHost s f 0x29 = some (m, s1)) (hr : s.boot.ready = false) :
    hostDoorbell s f = s1.incReg (Reg.FLX_EARLY f) := by
  unfold hostDoorbell
  rw [h]
  dsimp only
  rw [hr, if_pos (by decide)]
  rfl

/-! ### Snoops (R434) -/

/-- An answer to an outstanding snoop: modified data is written, and without it the snoop ends. -/
theorem snoopAnswer_of_outstanding {f : Nat} {e : Nat × List Byte} {s : State} (he : s.fin.find? (isSnprsp f) = some e)
    (hc : writebackCrossed s f (localPa (field (mBody e.2) 0 8) / 64 * 64) = false)
    (hw : answerWrites s (localPa (field (mBody e.2) 0 8) / 64 * 64) = false)
    (hn : (s.bay (bayOfPa s (localPa (field (mBody e.2) 0 8) / 64 * 64))).snoops.any
      (fun n => n.line == localPa (field (mBody e.2) 0 8) / 64 * 64) = true) :
    let line := localPa (field (mBody e.2) 0 8) / 64 * 64
    let s1 := { s with fin := eraseFirst (isSnprsp f) s.fin }
    snoopAnswer s f = if bit (field (mBody e.2) 8 4) 0 then
        serveParts s1 (bayOfPa s line) 0 true (.host f e.2) .write line (((mBody e.2).drop 16).take 64) [(line, 64)]
      else endSnoop s1 (bayOfPa s line) line := by
  intro line s1
  unfold snoopAnswer
  rw [he]
  dsimp only
  rw [hc, hw, hn, if_neg Bool.false_ne_true, if_neg (by decide)]

/-- A snoop without an answer: its line is lost. -/
theorem snoopTimeout_of_waiting {b k : Nat} {n : Snoop} {s : State} (hn : (s.bay b).snoops[k]? = some n) (hw : answerWrites s n.line = false) :
    snoopTimeout s b k = endSnoop ((logE s 0x16 3 b n.line).incReg Reg.FLX_LOSTLN) b n.line := by
  unfold snoopTimeout
  rw [hn]
  dsimp only
  rw [hw, if_neg Bool.false_ne_true]

end Sys2Proof.Machine

open Sys2Proof Sys2Proof.Machine

/-- Settles O25, a clause for each message, then for the messages that come before READY. -/
theorem companionMessages : Obligations.CompanionMessages := by
  refine ⟨fun f t c m s s1 hf h5 hr hr1 hi ht => ?line, fun f m s s1 hf h5 hr ht h64 h0 hm => ?range, fun f m s s1 hf h5 hr ht h4 hm => ?write,
    fun f m s s1 hf h5 hr ht hl => ?writeLine, fun f m s s1 hf h5 hr ht => ?evict, fun f m s s1 hf h5 hr ht hw => ?bell,
    fun f e s hf h5 he => ?snoop, fun b k n s hb h5 hn hw => ?lost, fun f t c m s s1 hf h5 hr hr1 hi ht => ?earlyRead,
    fun f t c m s s1 hf h5 hr hr1 hi ht => ?early⟩
  case line =>
    have hx : exec c s = answer s (decide (f < 2)) (settle (hostRead s f t)) ∧ t ≠ 0x22 := by
      obtain ⟨rfl, rfl⟩ | ⟨rfl, rfl⟩ := hi
      · exact ⟨exec_crds f s, by decide⟩
      · exact ⟨exec_crdo f s, by decide⟩
    rw [hx.1, decide_eq_true hf, answer_on h5, hostRead_line hr1 hx.2 ht]
    rfl
  case range =>
    rw [exec_crdu, decide_eq_true hf, answer_on h5, hostRead_range hr ht h64 h0 hm]
    rfl
  case write =>
    rw [exec_cwr, decide_eq_true hf, answer_on h5, hostWrite_range hr ht h4 hm]
    rfl
  case writeLine =>
    rw [exec_cwb, decide_eq_true hf, answer_on h5, hostWrite_line hr ht hl]
    rfl
  case evict =>
    intro line hb
    rw [exec_cevict, decide_eq_true hf, answer_on h5, hostEvict_of_idle hr ht hb]
    rfl
  case bell =>
    rw [exec_doorbell, decide_eq_true hf, answer_on h5, hostDoorbell_of_done hr ht hw]
    rfl
  case snoop =>
    intro line s1 hc hw hn
    rw [exec_snprsp, decide_eq_true hf, answer_on h5, snoopAnswer_of_outstanding he hc hw hn]
    rfl
  case lost =>
    rw [exec_snoopTimeout, okBay_of_lt hb, answer_on h5, snoopTimeout_of_waiting hn hw]
    rfl
  case earlyRead =>
    have hx : exec c s = answer s (decide (f < 2)) (settle (hostRead s f t)) := by
      obtain ⟨rfl, rfl⟩ | ⟨rfl, rfl⟩ | ⟨rfl, rfl⟩ := hi
      · exact exec_crds f s
      · exact exec_crdo f s
      · exact exec_crdu f s
    rw [hx, decide_eq_true hf, answer_on h5, hostRead_early ht hr1]
    rfl
  case early =>
    have hx : exec c s = answer s (decide (f < 2)) (settle (s1.incReg (Reg.FLX_EARLY f))) := by
      obtain ⟨rfl, rfl⟩ | ⟨rfl, rfl⟩ | ⟨rfl, rfl⟩ | ⟨rfl, rfl⟩ := hi
      · rw [exec_cwr, hostWrite_early ht hr1]
      · rw [exec_cwb, hostWrite_early ht hr1]
      · rw [exec_cevict, hostEvict_early ht hr]
      · rw [exec_doorbell, hostDoorbell_early ht hr]
    rw [hx, decide_eq_true hf, answer_on h5]
    rfl

end

section
/-! SUPPORT. CHECK (R452 to R457): what a sound job is, and what its body leaves. -/

namespace Sys2Proof.Machine

open Sys2Proof

theorem exec_check (i c : Nat) (s : State) : exec (.check i c) s = answer s (okPane i) (runCmd s i c checkRow (fun _ => false) (checkBody i c)) := rfl

/-- A job that passes every check of its fields for the task that gives it, and compares nothing. -/
structure SoundCheck (c : Nat) (t : Task) : Prop where
  reserved : cbits c 16 31 27 = 0 ∧ cbits c 20 31 12 = 0 ∧ cbits c 32 31 24 = 0 ∧ cbits c 36 31 24 = 0 ∧ cbytes c 40 8 = 0
  source : (checkCmd c).src % 4 = 0
  words : (checkCmd c).len % 4 = 0
  nonempty : (checkCmd c).len ≠ 0
  length : (checkCmd c).len ≤ 2 ^ 26
  result : (checkCmd c).res % 64 = 0
  block : (checkCmd c).mode < 2 → 6 ≤ (checkCmd c).blklog ∧ (checkCmd c).blklog ≤ 20 ∧ (checkCmd c).par % 32 = 0
  address : (checkCmd c).mode = 2 → (checkCmd c).fold % 256 = 0
  longs : (checkCmd c).mode = 3 → (checkCmd c).len % 8 = 0
  dclass : 2 ≤ (checkCmd c).mode → t.dclass ≠ 0
  srcClaim : (checkCmd c).srcSp = true → inClaim t ((checkCmd c).src % 2 ^ 24) (checkCmd c).len = true
  resClaim : inClaim t (checkCmd c).res (checkCmd c).resBytes = true
  parClaim : (checkCmd c).mode < 2 → inClaim t (checkCmd c).par 32 = true
  alone : (checkCmd c).cmpen = false

section
variable {c : Nat} {t : Task} (h : SoundCheck c t)
include h

theorem SoundCheck.reserved_pass : (cbits c 16 31 27 != 0 || cbits c 20 31 12 != 0 || cbits c 32 31 24 != 0 || cbits c 36 31 24 != 0 ||
    cbytes c 40 8 != 0) = false := by
  obtain ⟨h1, h2, h3, h4, h5⟩ := h.reserved
  rw [h1, h2, h3, h4, h5]
  rfl

theorem SoundCheck.fields_pass : ((checkCmd c).src % 4 != 0 || (checkCmd c).len % 4 != 0 || (checkCmd c).len == 0 ||
    decide (2 ^ 26 < (checkCmd c).len) || (checkCmd c).res % 64 != 0
    || (decide ((checkCmd c).mode < 2) && (decide ((checkCmd c).blklog < 6) || decide (20 < (checkCmd c).blklog) || (checkCmd c).par % 32 != 0))
    || ((checkCmd c).mode == 1 && (checkCmd c).cmpen) || ((checkCmd c).mode == 2 && (checkCmd c).fold % 256 != 0)
    || ((checkCmd c).mode == 3 && (checkCmd c).len % 8 != 0)) = false := by
  have hb : (decide ((checkCmd c).mode < 2) && (decide ((checkCmd c).blklog < 6) || decide (20 < (checkCmd c).blklog) ||
      (checkCmd c).par % 32 != 0)) = false := by
    by_cases hm : (checkCmd c).mode < 2
    · obtain ⟨h6, h20, hp⟩ := h.block hm
      simp [Nat.not_lt.mpr h6, Nat.not_lt.mpr h20, hp]
    · simp [hm]
  have ha : ((checkCmd c).mode == 2 && (checkCmd c).fold % 256 != 0) = false := by
    by_cases hm : (checkCmd c).mode = 2
    · simp [h.address hm]
    · simp [hm]
  have hl : ((checkCmd c).mode == 3 && (checkCmd c).len % 8 != 0) = false := by
    by_cases hm : (checkCmd c).mode = 3
    · simp [h.longs hm]
    · simp [hm]
  simp only [h.source, h.words, h.result, hb, ha, hl, h.alone, Nat.not_lt.mpr h.length, beq_eq_false_iff_ne.mpr h.nonempty]
  simp

theorem SoundCheck.class_pass : (decide (2 ≤ (checkCmd c).mode) && t.dclass == 0) = false := by
  by_cases hm : 2 ≤ (checkCmd c).mode
  · simp [h.dclass hm]
  · simp [hm]

theorem SoundCheck.claims_pass : (((checkCmd c).srcSp && !inClaim t ((checkCmd c).src % 2 ^ 24) (checkCmd c).len) ||
    !inClaim t (checkCmd c).res (checkCmd c).resBytes || (decide ((checkCmd c).mode < 2) && !inClaim t (checkCmd c).par 32)) = false := by
  have hs : ((checkCmd c).srcSp && !inClaim t ((checkCmd c).src % 2 ^ 24) (checkCmd c).len) = false := by
    cases hsp : (checkCmd c).srcSp
    · rfl
    · rw [h.srcClaim hsp]
      rfl
  have hp : (decide ((checkCmd c).mode < 2) && !inClaim t (checkCmd c).par 32) = false := by
    by_cases hm : (checkCmd c).mode < 2
    · simp [h.parClaim hm]
    · simp [hm]
  rw [hs, hp, h.resClaim]
  rfl

end

/-- A job counts itself and its bytes. -/
def checkCounted (s : State) (i len : Nat) : State :=
  (s.incReg (Reg.CVU_JOBS (bayOf i))).incReg64 (Reg.CVU_BYTES_LO (bayOf i)) (Reg.CVU_BYTES_HI (bayOf i)) len

/-- The value folded into each block, if any (R454). -/
def checkFold (m : CheckCmd) (n k : Nat) : Option Nat := if m.folden then some (m.fold + (if m.foldsel then k else k * n)) else none

/-- The blocks that a job counts. -/
def checkBlocks (m : CheckCmd) (bs : List Byte) : List (List Byte) :=
  if m.mode = 3 then [] else inBlocks (if m.mode = 2 then 256 else 2 ^ m.blklog) bs

/-- The single check of a job's source. -/
def checkValue (m : CheckCmd) (p : CheckParams) (bs : List Byte) : Nat :=
  if m.mode = 0 then singleCheck p (checkFold m (if m.mode = 2 then 256 else 2 ^ m.blklog)) (checkBlocks m bs)
  else if m.mode = 2 then fingerprint m.fold bs else combineWords bs

section
variable {i c : Nat} {t : Task} {p : CheckParams} {bs : List Byte} {s1 s2 s3 s4 s5 : State} (hc : SoundCheck c t)
  (ht : (s1.pane i).task.bind s1.taskOf = some t) (hp : runMc (checkParams i (checkCmd c)) s1 = (.ok p, s2))
  (hs : runMc (checkSource i t.ctx (checkCmd c)) s2 = (.ok bs, s3))
include hc ht hp hs

/-- A job with one check writes it, and the status word behind it. -/
theorem checkBody_of_single (h1 : (checkCmd c).mode ≠ 1) (ha : (checkCmd c).acc = false)
    (hw : runMc (spWrite i 7 (checkCmd c).res (leBytes 8 (checkValue (checkCmd c) p bs))) s3 = (.ok (), s4))
    (hv : runMc (spWrite i 7 ((checkCmd c).res + 16) (leBytes 4 1 ++ leBytes 4 (checkBlocks (checkCmd c) bs).length)) s4 = (.ok (), s5)) :
    runMc (checkBody i c) s1 = (.ok true, checkCounted s5 i (checkCmd c).len) := by
  have hno : (checkCmd c).cmpen = false := hc.alone
  unfold checkBody
  dsimp only
  rw [runMc_bind_failIf hc.reserved_pass, runMc_bind_failIf hc.fields_pass, runMc_bind_ok (curTask_of_running ht),
    runMc_bind_failIf hc.class_pass, runMc_bind_failIf hc.claims_pass, runMc_bind_ok hp, runMc_bind_ok hs, if_neg h1, ha, hno]
  simp only [Bool.false_and, Bool.or_false, Bool.false_eq_true, if_false, b2n]
  exact (runMc_bind_ok hw).trans (runMc_bind_ok hv)

/-- A job with a check for each block writes them all. -/
theorem checkBody_of_blocks (h1 : (checkCmd c).mode = 1)
    (hw : runMc (spWrite i 7 (checkCmd c).res ((blockChecks p (checkFold (checkCmd c) (2 ^ (checkCmd c).blklog))
      (inBlocks (2 ^ (checkCmd c).blklog) bs)).flatMap (leBytes 8))) s3 = (.ok (), s4)) :
    runMc (checkBody i c) s1 = (.ok true, checkCounted s4 i (checkCmd c).len) := by
  unfold checkBody
  dsimp only
  rw [runMc_bind_failIf hc.reserved_pass, runMc_bind_failIf hc.fields_pass, runMc_bind_ok (curTask_of_running ht),
    runMc_bind_failIf hc.class_pass, runMc_bind_failIf hc.claims_pass, runMc_bind_ok hp, runMc_bind_ok hs, if_pos h1,
    if_neg (by omega), if_neg (by omega)]
  exact runMc_bind_ok hw

end

end Sys2Proof.Machine

open Sys2Proof Sys2Proof.Machine

/-- Settles O33: the body of a sound job writes its check or its checks, counts, and the command completes. -/
theorem checkWritesItsResult : Obligations.CheckWritesItsResult := by
  refine ⟨fun i c s s1 s2 s3 s4 s5 t p bs hi h5 hst hf r1 r2 r3 r4 r5 => ?single, fun i c s s1 s2 s3 s4 t p bs hi h5 hst hf r1 r2 r3 r4 r5 => ?blocks⟩
  case single =>
    intro m hsrc hw h0 hl hres hb ha hlo ht hd hsc hrc hpc h1 hacc hno hp hs n blocks fold v hw1 hw2
    exact answer_runCmd_completed h5 hi hst hf (checkBody_of_single
      ⟨⟨r1, r2, r3, r4, r5⟩, hsrc, hw, h0, hl, hres, hb, ha, hlo, hd, hsc, hrc, hpc, hno⟩ ht hp hs h1 hacc hw1 hw2)
  case blocks =>
    intro m hsrc hw h0 hl hres hb6 hb20 hpar ht hsc hrc hpc h1 hno hp hs hw1
    have hm : (checkCmd c).mode = 1 := h1
    exact answer_runCmd_completed h5 hi hst hf (checkBody_of_blocks
      ⟨⟨r1, r2, r3, r4, r5⟩, hsrc, hw, h0, hl, hres, fun _ => ⟨hb6, hb20, hpar⟩, fun h2 => by omega, fun h3 => by omega, fun h2 => by omega,
        hsc, hrc, fun _ => hpc, hno⟩ ht hp hs h1 hw1)

end

section
/-! SUPPORT. The steps of bring-up (R469 to R483, Tables 15-5 to 15-7). -/

namespace Sys2Proof.Machine

open Sys2Proof

theorem exec_bootDirectoryRead (s : State) : exec .bootDirectoryRead s = answer s true (directoryRead s) := rfl
theorem exec_slotVerifyDone (s : State) : exec .slotVerifyDone s = answer s true (slotVerified s) := rfl
theorem exec_bringUpStepsDone (rep : BringUp) (s : State) : exec (.bringUpStepsDone rep) s = answer s true (bringUp s rep) := rfl
theorem exec_lasersLocked (faulted : List Nat) (s : State) : exec (.lasersLocked faulted) s = answer s true (lasersLocked s faulted) := rfl
theorem exec_exchangeTrainingTimeout (s : State) :
    exec .exchangeTrainingTimeout s = answer s true (if s.boot.phase = 4 then bootCheck (startFollux s) else s) := rfl
theorem exec_folluxTrainingTimeout (s : State) :
    exec .folluxTrainingTimeout s = answer s true (if s.boot.phase = 5 then bootError s 0x0A 0 else s) := rfl

/-! ### The directory and the slots -/

/-- A forced boot becomes a recovery boot (R477). -/
theorem directoryRead_of_forced {s : State} (h5 : s.pwr.st ≠ 5) (h0 : s.boot.phase = 0) (hp : s.boot.puf = false) (hf : s.boot.forced = true) :
    directoryRead s = recoveryBoot (bootError s 0x0B 0) := by
  unfold directoryRead
  dsimp only
  rw [if_neg (by simp [h0, h5]), hp, if_neg Bool.false_ne_true, if_pos hf]

/-- Sound copies of the directory and of the service record name the slot and the panes out of service (R469, R470). -/
theorem directoryRead_of_sound {s : State} {k j : Nat} {c d : List Byte} (h5 : s.pwr.st ≠ 5) (h0 : s.boot.phase = 0) (hp : s.boot.puf = false)
    (hf : s.boot.forced = false) (hc : copyUsed s 0 = some (k, c)) (hd : copyUsed s 0x20000 = some (j, d)) :
    directoryRead s = { s with boot := { s.boot with
      phase := 1, active := if field c 8 1 = 1 then 1 else 0, slot := if field c 8 1 = 1 then 1 else 0, second := false
      service := (List.range 16).map (fun n => if field d (8 + n) 1 < 8 then field d (8 + n) 1 else 255) } } := by
  unfold directoryRead
  rw [if_neg (by simp [h0, h5])]
  simp only [hp, hf, hc, hd, Option.isNone_some, Bool.false_and, Bool.false_eq_true, if_false]

section
variable {s : State} (h5 : s.pwr.st ≠ 5) (h1 : s.boot.phase = 1)
include h5 h1

/-- A slot that passes its checks is accepted (R475). -/
theorem slotVerified_of_sound (hv : imgVerdict (fun o n => flashAt s (slotBase s.boot.slot + o) n) (floorOf s) = 0) :
    slotVerified s = acceptSlot s (fun o n => flashAt s (slotBase s.boot.slot + o) n) := by
  unfold slotVerified
  dsimp only
  rw [if_neg (by simp [h1, h5]), if_pos hv]

/-- After the first slot fails, the other one is tried (R476). -/
theorem slotVerified_of_firstBad (h2 : s.boot.second = false)
    (hv : imgVerdict (fun o n => flashAt s (slotBase s.boot.slot + o) n) (floorOf s) ≠ 0) :
    slotVerified s = { bootError s 0x03 0 with
      boot := { (bootError s 0x03 0).boot with slot := 1 - (bootError s 0x03 0).boot.slot, second := true } } := by
  unfold slotVerified
  dsimp only
  rw [if_neg (by simp [h1, h5]), if_neg hv, h2, if_neg Bool.false_ne_true]

/-- After both slots fail, a recovery boot follows (R476, R477). -/
theorem slotVerified_of_bothBad (h2 : s.boot.second = true)
    (hv : imgVerdict (fun o n => flashAt s (slotBase s.boot.slot + o) n) (floorOf s) ≠ 0) :
    slotVerified s = recoveryBoot (bootError s 0x04 0) := by
  unfold slotVerified
  dsimp only
  rw [if_neg (by simp [h1, h5]), if_neg hv, if_pos h2]

end

/-! ### Steps 4 to 7 -/

/-- Steps that each change the bays alone change the bays alone together. -/
theorem foldl_bays {f : State → Nat → State} (hf : ∀ s b, ∃ bs, f s b = { s with bays := bs }) (l : List Nat) (s : State) :
    ∃ bs, l.foldl f s = { s with bays := bs } :=
  l.foldlRecOn f (motive := fun t => ∃ bs, t = { s with bays := bs }) ⟨s.bays, rfl⟩ (fun t ⟨as, ht⟩ b _ => by
    obtain ⟨bs, hb⟩ := hf t b
    exact ⟨bs, by rw [hb, ht]⟩)

/-- Steps that each change the panes alone change the panes alone together. -/
theorem foldl_panes {f : State → Nat → State} (hf : ∀ s i, ∃ ps, f s i = { s with panes := ps }) (l : List Nat) (s : State) :
    ∃ ps, l.foldl f s = { s with panes := ps } :=
  l.foldlRecOn f (motive := fun t => ∃ ps, t = { s with panes := ps }) ⟨s.panes, rfl⟩ (fun t ⟨ps, ht⟩ i _ => by
    obtain ⟨qs, hi⟩ := hf t i
    exact ⟨qs, by rw [hi, ht]⟩)

/-- Step 7 changes the panes alone. -/
theorem startPanes_panes (s : State) : ∃ ps, startPanes s = { s with panes := ps } := by
  unfold startPanes
  exact foldl_panes (fun s i => ⟨_, rfl⟩) _ s

/-- Memory as step 6 leaves it: every byte zero, in the map and the slot tables of the image that `rd` reads (R288). -/
def memoryLoaded (s : State) (rd : Nat → Nat → List Byte) : State :=
  { s with dram := [], dramErr := [], dramMis := [], regions := imgMap rd
           slotDef := ((imgSlots rd).mapIdx (fun k x => (k, x))).filter (fun c => c.2 != 0) }

/-- The controllers as steps 4 and 5 leave them: trained and ready. -/
def memoryTrained (s : State) (rep : BringUp) : State :=
  (List.range 16).foldl (fun s b => s.modMem b (fun m => { m with ready := true }))
    ((List.range 16).foldl (fun s b => trainStack s b (badNow s rep b)) s)

/-- Steps 4 and 5 change the bays alone. -/
theorem memoryTrained_bays (s : State) (rep : BringUp) : ∃ bs, memoryTrained s rep = { s with bays := bs } := by
  obtain ⟨bs, h⟩ := foldl_bays (f := fun s b => trainStack s b (badNow s rep b)) (fun s b => ⟨_, rfl⟩) (List.range 16) s
  unfold memoryTrained
  rw [h]
  exact foldl_bays (fun s b => ⟨_, rfl⟩) (List.range 16) { s with bays := bs }

/-- With every bay and stack sound, steps 4 to 7 follow one another. -/
theorem bringUp_of_sound {rep : BringUp} {s : State} (h5 : s.pwr.st ≠ 5) (h2 : s.boot.phase = 2) (hh : s.boot.hold = false)
    (hb : rep.badBays = []) (hs : (List.range 16).find? (stackBad s rep) = none) :
    let t := requestClocks (startPanes (memoryLoaded (memoryTrained s rep) (fun o n => flashAt s (slotBase s.boot.slot + o) n)))
    bringUp s rep = { t with boot := { t.boot with phase := 3 } } := by
  intro t
  unfold bringUp
  rw [if_neg (by simp [h2, hh, h5]), hb]
  dsimp only []
  rw [hs]
  rfl

/-- They load the image's map, and beside bays and panes change nothing else. -/
theorem bringUp_leaves {rep : BringUp} {s : State} (h5 : s.pwr.st ≠ 5) (h2 : s.boot.phase = 2) (hh : s.boot.hold = false)
    (hb : rep.badBays = []) (hs : (List.range 16).find? (stackBad s rep) = none) : ∃ bs ps,
      bringUp s rep = { memoryLoaded s (fun o n => flashAt s (slotBase s.boot.slot + o) n) with
        bays := bs, panes := ps, boot := { s.boot with phase := 3 } } := by
  obtain ⟨as, ha⟩ := memoryTrained_bays s rep
  obtain ⟨ps, hp⟩ := startPanes_panes (memoryLoaded (memoryTrained s rep) (fun o n => flashAt s (slotBase s.boot.slot + o) n))
  obtain ⟨bs, hc⟩ := requestClocks_bays
    (startPanes (memoryLoaded (memoryTrained s rep) (fun o n => flashAt s (slotBase s.boot.slot + o) n)))
  refine ⟨bs, ps, ?_⟩
  rw [bringUp_of_sound h5 h2 hh hb hs, hc, hp, ha]
  dsimp only [memoryLoaded]

/-- A bay that fails its test fails the boot (R481). -/
theorem bringUp_of_badBay {rep : BringUp} {s : State} {b : Nat} {bs : List Nat} (h5 : s.pwr.st ≠ 5) (h2 : s.boot.phase = 2)
    (hh : s.boot.hold = false) (hb : rep.badBays = b :: bs) : bringUp s rep = bootFailed (bootError s 0x06 b) := by
  unfold bringUp
  dsimp only
  rw [if_neg (by simp [h2, hh, h5]), hb]

/-- With no laser faulted, every port that the image enables trains (R482). -/
theorem lasersLocked_of_sound {s : State} (h3 : s.boot.phase = 3) : lasersLocked s [] =
    bootCheck ((setBitsOf 32 s.boot.enports).foldl (fun s p => portEnable s p) { s with boot := { s.boot with phase := 4, laserFault := [] } }) := by
  unfold lasersLocked
  rw [if_neg (not_not_intro h3)]
  rfl

end Sys2Proof.Machine

open Sys2Proof Sys2Proof.Machine

/-- Settles O40, a clause for each step of bring-up. -/
theorem bringUpSteps : Obligations.BringUpSteps := by
  refine ⟨fun s h5 h0 hp hf => ?forced, fun s k j c d h5 h0 hp hf hc hd => ?directory, fun s h5 h1 => ?accept, fun s h5 h1 h2 hv => ?other,
    fun s h5 h1 h2 hv => ?recover, fun rep s h5 h2 hh hb hs => ?steps, fun rep b bs s h5 h2 hh hb => ?badBay, fun s h5 h3 => ?lasers,
    fun s h5 h4 => ?exchange, fun s h5 hph => ?follux⟩
  case forced => rw [exec_bootDirectoryRead, answer_on h5, directoryRead_of_forced h5 h0 hp hf]
  case directory => rw [exec_bootDirectoryRead, answer_on h5, directoryRead_of_sound h5 h0 hp hf hc hd]
  case accept =>
    intro rd hv
    rw [exec_slotVerifyDone, answer_on h5, slotVerified_of_sound h5 h1 hv]
  case other =>
    intro s1
    rw [exec_slotVerifyDone, answer_on h5, slotVerified_of_firstBad h5 h1 h2 hv]
  case recover => rw [exec_slotVerifyDone, answer_on h5, slotVerified_of_bothBad h5 h1 h2 hv]
  case steps =>
    obtain ⟨bs, ps, ht⟩ := bringUp_leaves h5 h2 hh hb hs
    refine ⟨_, by rw [exec_bringUpStepsDone, answer_on h5, ht], ?_⟩
    exact ⟨rfl, rfl, rfl, rfl, rfl, rfl⟩
  case badBay => rw [exec_bringUpStepsDone, answer_on h5, bringUp_of_badBay h5 h2 hh hb]
  case lasers =>
    intro s1
    rw [exec_lasersLocked, answer_on h5, lasersLocked_of_sound h3]
  case exchange => rw [exec_exchangeTrainingTimeout, answer_on h5, if_pos h4]
  case follux => rw [exec_folluxTrainingTimeout, answer_on h5, if_pos hph]

end

section
/-! SUPPORT. Commits that are received and commits that apply (R485 to R490, R550). -/

namespace Sys2Proof.Machine

open Sys2Proof

theorem exec_ctlCommit (v : Nat) (s : State) : exec (.ctlCommit v) s = answer s true (whenOpen s Reg.CTL_COMMIT (commitWrite s v)) := rfl
theorem exec_commitApply (tgt : Nat) (s : State) : exec (.commitApply tgt) s = answer s true (commitApply s (tgt % 65536)) := rfl

section
variable {s : State} {v : Nat} (hc : s.mgmt.commits.contains (v % 65536) = false) (hk : tgtKnown (v % 65536) = true)
include hc hk

/-- A commit of a known target that passes its checks becomes pending (R485). -/
theorem commitNow_of_pass (hn : commitCheck s (v % 65536) = none) :
    let s1 := showCommit s (v % 65536) 1
    commitNow s v = { s1 with mgmt := { s1.mgmt with commits := s1.mgmt.commits ++ [v % 65536] } } := by
  intro s1
  unfold commitNow
  simp only [hc, hk, hn, Bool.not_true, Bool.false_eq_true, if_false]
  rfl

/-- One that fails a check is rejected with the register's offset and the check's number (R490). -/
theorem commitNow_of_fail {off chk : Nat} (hn : commitCheck s (v % 65536) = some (off, chk)) :
    commitNow s v = (showCommit s (v % 65536) 3).setReg Reg.CTL_COMMITERR (off + chk * 2 ^ 16) := by
  unfold commitNow
  simp only [hc, hk, hn, Bool.not_true, Bool.false_eq_true, if_false]

end

/-! ### What an apply leaves of the rest -/

theorem forceStaged_regN (s : State) (a : Nat) : (forceStaged s a).regN a = Nat.land (stagedN s a) (rowMask a) := by
  have hlt : Nat.land (stagedN s a) (rowMask a) < 2 ^ 32 := Nat.lt_of_le_of_lt Nat.and_le_left (BitVec.isLt _)
  rw [forceStaged, putStaged_regN, State.setReg_regN, Nat.mod_eq_of_lt hlt]

theorem forceStaged_regN_ne (s : State) {a b : Nat} (h : b ≠ a) : (forceStaged s a).regN b = s.regN b := by
  rw [forceStaged, putStaged_regN, State.setReg_regN_ne _ _ _ _ h]

theorem forceStaged_stagedN_ne (s : State) {a b : Nat} (h : b ≠ a) : stagedN (forceStaged s a) b = stagedN s b := by
  rw [forceStaged, stagedN_putStaged_ne _ _ _ _ h, setReg_stagedN]

@[simp] theorem forceStaged_panes (s : State) (a : Nat) : (forceStaged s a).panes = s.panes := rfl
@[simp] theorem forceStaged_bays (s : State) (a : Nat) : (forceStaged s a).bays = s.bays := rfl
@[simp] theorem forceStaged_dram (s : State) (a : Nat) : (forceStaged s a).dram = s.dram := rfl

/-! CTL_COMMITST is a register: showing the commit applied leaves panes, bays and memory. -/

theorem showApplied_panes (s : State) (k : Nat) : (showApplied s k).panes = s.panes := by
  unfold showApplied
  split
  · exact State.setReg_panes _ _ _
  · rfl

theorem showApplied_bays (s : State) (k : Nat) : (showApplied s k).bays = s.bays := by
  unfold showApplied
  split
  · exact State.setReg_bays _ _ _
  · rfl

theorem showApplied_dram (s : State) (k : Nat) : (showApplied s k).dram = s.dram := by
  unfold showApplied
  split
  · exact State.setReg_dram _ _ _
  · rfl

/-! ### The dispatcher's target -/

/-- The staged registers of dispatcher `n` (Table 15-9). -/
theorem tgtRegs_dsp {n : Nat} (hn : n < 16) : tgtRegs (5 + n * 2 ^ 8) = [Reg.DSP_SLICE n, Reg.DSP_BLOCKSW n] := by
  have ht : (5 + n * 2 ^ 8) % 256 = 5 := by omega
  have hi : bits (5 + n * 2 ^ 8) 11 8 = n := by
    simp only [bits]
    omega
  simp only [tgtRegs, ht, hi]
  rfl

/-- A dispatcher's commit that reaches its boundary with no write held. -/
theorem commitApply_dsp {s : State} {n : Nat} (hn : n < 16) (hc : s.mgmt.commits.contains (5 + n * 2 ^ 8) = true) (hh : s.mgmt.held = []) :
    commitApply s (5 + n * 2 ^ 8) =
      dropCommit (showApplied (forceStaged (forceStaged s (Reg.DSP_SLICE n)) (Reg.DSP_BLOCKSW n)) (5 + n * 2 ^ 8)) (5 + n * 2 ^ 8) := by
  have ht : (5 + n * 2 ^ 8) % 256 = 5 := by omega
  rw [commitApply_of_held_nil hc (by rw [atBoundary, ht]; rfl) hh, tgtRegs_dsp hn, dueSlots, if_neg (by omega), dueClocks, if_neg (by omega)]
  rfl

end Sys2Proof.Machine

open Sys2Proof Sys2Proof.Machine

/-- Settles O41: a commit that passes and one that fails by `commitNow`, and what the dispatcher's apply leaves in its registers and
in the rest of the state. -/
theorem commitsApplyStagedValues : Obligations.CommitsApplyStagedValues := by
  refine ⟨fun v s ho hc hk => ?pass, fun v off chk s ho hc hk => ?fail, fun n s hn h5 hc hh => ?apply⟩
  case pass =>
    intro s0 hn s1
    rw [exec_ctlCommit, answer_open ho, commitWrite, commitNow_of_pass (s := s0) hc hk hn]
  case fail =>
    intro s0 hn
    rw [exec_ctlCommit, answer_open ho, commitWrite, commitNow_of_fail (s := s0) hc hk hn]
  case apply =>
    have hm : Reg.DSP_SLICE n ∈ tgtRegs (5 + n * 2 ^ 8) ∧ Reg.DSP_BLOCKSW n ∈ tgtRegs (5 + n * 2 ^ 8) := by
      rw [tgtRegs_dsp hn]
      simp
    have hne : Reg.DSP_SLICE n ≠ Reg.DSP_BLOCKSW n := by simp [Reg.DSP_SLICE, Reg.DSP_BLOCKSW]
    have hlt : (5 + n * 2 ^ 8) % 65536 = 5 + n * 2 ^ 8 := by omega
    refine ⟨_, by rw [exec_commitApply, answer_on h5, hlt, commitApply_dsp hn hc hh], ?slice, ?blocksw, ?commits, ?panes, ?bays, ?dram⟩
    case slice =>
      rw [keepStraps_regN, dropCommit_regN, showApplied_regN_ne _ _ _ (ne_commitst_of_mem_tgtRegs hm.1), forceStaged_regN_ne _ hne, forceStaged_regN]
    case blocksw =>
      rw [keepStraps_regN, dropCommit_regN, showApplied_regN_ne _ _ _ (ne_commitst_of_mem_tgtRegs hm.2), forceStaged_regN,
        forceStaged_stagedN_ne _ hne.symm]
    case commits => rw [keepStraps_mgmt, dropCommit, showApplied_mgmt, forceStaged_mgmt, forceStaged_mgmt]
    case panes => rw [keepStraps_panes, dropCommit, showApplied_panes, forceStaged_panes, forceStaged_panes]
    case bays => rw [keepStraps_bays, dropCommit, showApplied_bays, forceStaged_bays, forceStaged_bays]
    case dram => rw [keepStraps_dram, dropCommit, showApplied_dram, forceStaged_dram, forceStaged_dram]

end

section
/-! SUPPORT. Self-tests, verdicts and domain resets (R520 to R524, R529, R533). -/

namespace Sys2Proof.Machine

open Sys2Proof

theorem exec_targetedSelfTest (k : Nat) (s : State) : exec (.targetedSelfTest k) s = answer s (okDom k) (settle (selfTest s k)) := rfl
theorem exec_selfTestVerdict (k : Nat) (lasting repairable : Bool) (s : State) :
    exec (.selfTestVerdict k lasting repairable) s = answer s (okDom k) (settle (verdict s k lasting repairable)) := rfl
theorem exec_domainResetDone (dkind inst : Nat) (s : State) : exec (.domainResetDone dkind inst) s =
    answer s (decide (inst < 256) && okDom (dkind * 256 + inst)) (settle (resetDone s (dkind * 256 + inst))) := rfl
theorem exec_panesvcSelfTest (n : Nat) (s : State) :
    exec (.panesvcSelfTest n) s = answer s (decide (n < 128)) (whenOpen s Reg.CTL_PANESVC (settle (panesvcTest s n))) := rfl
theorem exec_panesvcReplace (n : Nat) (s : State) :
    exec (.panesvcReplace n) s = answer s (decide (n < 128)) (whenOpen s Reg.CTL_PANESVC (settle (panesvcReplace s n))) := rfl

/-! ### Self-tests (R520, R521) -/

section
variable {s : State} {k : Nat} {r : Recovery} (hr : (s.dom k).cur = some r) (h0 : r.phase = 0) (hd : (s.dom k).resetting = false)
include hr h0 hd

/-- The test of a scratchpad bank starts at once. -/
theorem selfTest_bank {i bank : Nat} (ht : r.target = .spBank i bank) : selfTest s k = testStarts s k := by
  unfold selfTest
  dsimp only
  rw [hr]
  dsimp only
  rw [if_neg (by simp [h0, hd]), ht]

/-- That of a lane in use waits. -/
theorem selfTest_lane_in_use {p lane : Nat} (ht : r.target = .optLane p lane) (hl : (s.port p).lanes.contains lane = true) : selfTest s k = s := by
  unfold selfTest
  dsimp only
  rw [hr]
  dsimp only
  rw [if_neg (by simp [h0, hd]), ht]
  exact if_pos hl

end

/-! ### Verdicts (R522) -/

/-- The log entry of a verdict on a recovery of domain `k`: kind 2 for a lasting one, 1 for a transient one. -/
def verdictLogged (s : State) (k kind : Nat) (r : Recovery) : State :=
  logEvt s 0x09 kind (k / 256) (k % 256) r.target.addr 0 (s.devTime - r.start)

section
variable {s : State} {k : Nat} {r : Recovery} (hr : (s.dom k).cur = some r) (h1 : r.phase = 1)
include hr h1

/-- A transient verdict on a lane returns the lane to the spares, unless it serves. -/
theorem verdict_lane_transient {p lane : Nat} (rep : Bool) (ht : r.target = .optLane p lane) :
    verdict s k false rep = (endRecovery (verdictLogged s k 1 r) k).modPort p (fun x =>
      if x.lanes.contains lane || x.spares.contains lane then x else { x with spares := x.spares ++ [lane] }) := by
  unfold verdict
  rw [hr]
  dsimp only
  rw [if_neg (not_not_intro h1), if_neg Bool.false_ne_true, if_neg Bool.false_ne_true, transientVerdict, ht]
  rw [verdictLogged, ht]

/-- A lasting verdict on a wire group uses a spare wire up. -/
theorem verdict_wire_lasting {l g : Nat} (rep : Bool) (ht : r.target = .wire l g) :
    verdict s k true rep = endRecovery (wireFails (setPhase (verdictLogged s k 2 r) k 2) l g) k := by
  unfold verdict
  rw [hr]
  dsimp only
  rw [if_neg (not_not_intro h1), if_pos rfl, if_pos rfl, lastingVerdict, ht]
  rw [verdictLogged, ht]

end

/-! ### Domain resets and CTL_PANESVC -/

/-- A memory controller's reset ends with it ready (Table 17-4). -/
theorem resetDone_of_controller {b : Nat} {s : State} (hb : b < 16) (hr : (s.dom (3 * 256 + b)).resetting = true) :
    resetDone s (3 * 256 + b) = (endRecovery (s.setDom (3 * 256 + b) { s.dom (3 * 256 + b) with resetting := false }) (3 * 256 + b)).modMem b
      (fun m => { m with ready := true, resetting := false, trainFails := [] }) := by
  have hk : (3 * 256 + b) / 256 = 3 := by omega
  have hn : (3 * 256 + b) % 256 = b := by omega
  unfold resetDone
  dsimp only
  rw [hr, if_neg (by decide), hk, hn, if_neg (by decide), if_pos rfl]

/-- A self-test asked for by CTL_PANESVC strikes its pane. -/
theorem panesvcTest_of_inst {n i : Nat} {s : State} (hi : s.instOf n = some i) (ho : (s.pane i).out = false) :
    panesvcTest s n = strike s (.pane i) n 1 false := by
  unfold panesvcTest
  rw [hi]
  exact if_neg (by simp [ho])

/-- A replacement asked for by CTL_PANESVC, once it is the pane's current recovery. -/
theorem panesvcReplace_of_current {n i : Nat} {r : Recovery} {s : State} (hi : s.instOf n = some i) (ho : (s.pane i).out = false)
    (hr : ((strike s (.pane i) n 4 false).dom (256 + i)).cur = some r) (ht : r.target = .pane i) (hw : r.why = 4) (h0 : r.phase = 0) :
    panesvcReplace s n = askReplace (setPhase (strike s (.pane i) n 4 false) (256 + i) 2) i := by
  unfold panesvcReplace
  rw [hi]
  dsimp only
  rw [ho, if_neg Bool.false_ne_true, hr]
  exact if_pos ⟨ht, hw, h0⟩

end Sys2Proof.Machine

open Sys2Proof Sys2Proof.Machine

/-- Settles O46, a clause for each self-test, verdict, reset and request of service. -/
theorem selfTestsAndVerdicts : Obligations.SelfTestsAndVerdicts := by
  refine ⟨fun k i bank r s hk h5 hr h0 hd ht => ?bank, fun k p lane r s hk h5 hr h0 hd ht hl => ?lane,
    fun k p lane rep r s hk h5 hr h1 ht => ?transient, fun k l g rep r s hk h5 hr h1 ht => ?lasting, fun b s hb h5 hr => ?reset,
    fun n i s hn ho hi hout => ?test, fun n i r s hn ho hi hout => ?replace⟩
  case bank =>
    rw [exec_targetedSelfTest, hk, answer_on h5, selfTest_bank hr h0 hd ht]
    rfl
  case lane =>
    rw [exec_targetedSelfTest, hk, answer_on h5, selfTest_lane_in_use hr h0 hd ht hl]
    rfl
  case transient =>
    rw [exec_selfTestVerdict, hk, answer_on h5, verdict_lane_transient hr h1 rep ht]
    rfl
  case lasting =>
    rw [exec_selfTestVerdict, hk, answer_on h5, verdict_wire_lasting hr h1 rep ht]
    rfl
  case reset =>
    have hk : (decide (b < 256) && okDom (3 * 256 + b)) = true := by
      have h3 : (3 * 256 + b) / 256 = 3 := by omega
      have hn : (3 * 256 + b) % 256 = b := by omega
      rw [okDom, h3, hn, decide_eq_true (by omega : b < 256)]
      exact decide_eq_true hb
    rw [exec_domainResetDone, hk, answer_on h5, resetDone_of_controller hb hr]
    rfl
  case test =>
    rw [exec_panesvcSelfTest, decide_eq_true hn, answer_open ho, panesvcTest_of_inst hi hout]
    rfl
  case replace =>
    intro s1 hr ht hw h0
    rw [exec_panesvcReplace, decide_eq_true hn, answer_open ho, panesvcReplace_of_current hi hout hr ht hw h0]
    rfl

end

section
/-! SUPPORT. The phases of a firmware update (R530, R531, Table 17-8). -/

namespace Sys2Proof.Machine

open Sys2Proof

theorem exec_updateStart (s : State) : exec .updateStart s = answer s true (whenOpen s Reg.CTL_UPDCMD (updStart s)) := rfl
theorem exec_updateAbort (s : State) : exec .updateAbort s = answer s true (whenOpen s Reg.CTL_UPDCMD (updAbort s)) := rfl
theorem exec_updateVerifyDone (s : State) : exec .updateVerifyDone s = answer s true (settle (updVerify s)) := rfl
theorem exec_updateWriteDone (ok : Bool) (s : State) : exec (.updateWriteDone ok) s = answer s true (updWrite s ok) := rfl
theorem exec_linkFirmwarePortDone (s : State) : exec .linkFirmwarePortDone s = answer s true (settle (updPortDone s)) := rfl
theorem exec_updateHandover (s : State) : exec .updateHandover s =
    answer s true (if s.rel.upd = 3 ∧ s.mgmt.commits = [] then settle (serveWaiting (updTakeOver s)) else s) := rfl

/-- The verdict on an image that has been read is its end in Verify: on to Write, or the result of its first failing check. -/
theorem updVerify_of_read {s s1 : State} {img : List Byte} (h1 : s.rel.upd = 1) (hr : runMc (readImage (updAddr s)) s = (.ok img, s1)) :
    let s2 := dropNeeds s1 (.ctl .update)
    let v := imgVerdict (fun o n => (img.drop o).take n) (floorOf s2)
    updVerify s = if v ≠ 0 then updEnd s2 v else { s2 with rel := { s2.rel with upd := 2, updImg := img } } := by
  intro s2 v
  unfold updVerify
  rw [if_neg (not_not_intro h1), hr]

section
variable {s : State} (h4 : s.rel.upd = 4) (hb : s.rel.updBegun = true)
include h4 hb

/-- The last port makes the new slot the active one. -/
theorem updPortDone_of_last (hp : s.rel.updPort = 33) :
    let s1 : State := { s with
      boot := { s.boot with fw := s.boot.fw.set 2 ((imgFw (fun o n => (s.rel.updImg.drop o).take n)).getD 2 0) }
      rel := { s.rel with updPort := 34, updBegun := false } }
    let s2 := writeDirectory s1 (1 - s.boot.active)
    updPortDone s = updEnd { s2 with boot := { s2.boot with active := 1 - s.boot.active } } 0 := by
  intro s1 s2
  unfold updPortDone
  rw [if_neg (by simp [h4, hb]), hp]
  rfl

/-- An exchange port before the last one is followed by the next. -/
theorem updPortDone_of_next (hp : s.rel.updPort < 31) :
    updPortDone s = updShutter { s with rel := { s.rel with updPort := s.rel.updPort + 1, updBegun := false } } := by
  unfold updPortDone
  dsimp only
  rw [if_neg (by simp [h4, hb]), if_neg (by omega), if_neg (by omega), if_neg (by omega)]

end

end Sys2Proof.Machine

open Sys2Proof Sys2Proof.Machine

/-- Settles O47, a clause for each phase of an update. -/
theorem firmwareUpdates : Obligations.FirmwareUpdates := by
  refine ⟨fun s ho h0 hs => ?start, fun s ho h0 => ?running, fun s ho h0 hs => ?opened, fun s ho h1 => ?abort, fun img s s1 h5 h1 hr => ?sound,
    fun img s s1 h5 h1 hr => ?unsound, fun s h5 h2 => ?written, fun s h5 h3 hc => ?handover, fun s h5 h4 hb hp => ?last,
    fun s h5 h4 hb hp => ?next⟩
  case start => rw [exec_updateStart, answer_open ho, updStart, if_neg (not_not_intro h0), if_neg hs]
  case running => rw [exec_updateStart, answer_open ho, updStart, if_pos h0]
  case opened => rw [exec_updateStart, answer_open ho, updStart, if_neg (not_not_intro h0), if_pos hs]
  case abort => rw [exec_updateAbort, answer_open ho, updAbort, if_pos h1]
  case sound =>
    intro s2 hv
    rw [exec_updateVerifyDone, answer_on h5, updVerify_of_read h1 hr, if_neg (not_not_intro hv)]
    rfl
  case unsound =>
    intro s2 v hv
    rw [exec_updateVerifyDone, answer_on h5, updVerify_of_read h1 hr, if_pos hv]
    rfl
  case written => rw [exec_updateWriteDone, answer_on h5, updWrite, if_neg (not_not_intro h2), if_pos rfl]
  case handover =>
    rw [exec_updateHandover, answer_on h5, if_pos ⟨h3, hc⟩]
    rfl
  case last =>
    intro s1 s2
    rw [exec_linkFirmwarePortDone, answer_on h5, updPortDone_of_last h4 hb hp]
    rfl
  case next =>
    rw [exec_linkFirmwarePortDone, answer_on h5, updPortDone_of_next h4 hb hp]
    rfl

end
